-- ==== Sys2Proof/Word.lean ====
section
/-! DEFINITION. The word types of the JL9: bytes, 32-bit and 64-bit words (00 R11, R12). -/

namespace Sys2Proof

/-- One byte of device memory. -/
abbrev Byte := BitVec 8

/-- A 32-bit word: an FP32 or INT32 element, a tally, a sequence number. -/
abbrev W32 := BitVec 32

/-- A 64-bit word of a register, a record or a parameter block (00 R12). -/
abbrev W64 := BitVec 64

end Sys2Proof
end

