-- ==== Sys2Proof/Syntax.lean ====
section
/-! DEFINITION. The commands of the block, one constructor for each row of spec/opcode_table.json. A Smiper command
carries its header and its parameter words (15 R399, R400); every other row carries the unit it happens in and what the
environment supplied. -/

namespace Sys2Proof

/-- Where a Smiper datagram came from: the reply goes back there (14 R389, 15 R402). -/
structure Source where
  port : Nat := 0
  v6 : Bool := false
  mac : BitVec 48 := 0
  vid : Option Nat := none
  addr : BitVec 128 := 0
  udp : BitVec 16 := 0
  deriving DecidableEq, Repr

/-- The header fields a host chooses, and the datagram's CRC (15 R400, R406). MAGIC, REPLY, LENGTH and OPCODE are those
of the command itself. -/
structure Hdr where
  version : Nat := 1
  noseq : Bool := false
  seq : W32 := 0
  tag : BitVec 16 := 0
  session : W32 := 0
  crc : W32 := 0
  src : Source := {}
  deriving DecidableEq, Repr

/-- An error observed in a stored word or codeword (07 R218, 10 R294). -/
inductive Ecc where
  | clean
  | corrected
  | die (die : Nat)
  | uncorrectable
  deriving DecidableEq, Repr

/-- A tagged access that can wait: an engine of a bench (0 lane row stream, 1 lane row drain, 2 awl, 3 last,
4 vector engine, 5 ragged loop), or a DMA channel of a location (07 R222). -/
inductive Access where
  | engine (b e : Nat)
  | channel (loc ch : Nat)
  deriving DecidableEq, Repr

/-- The unit whose output is formed again (17 R465, R469). -/
inductive ReformUnit where
  | vector (b : Nat)
  | awl (b : Nat)
  | last (b : Nat)
  | router (b : Nat)
  | channel (loc ch : Nat)
  | former (loc : Nat)
  | update (k : Nat)
  deriving DecidableEq, Repr

/-- A lattice flit: its header words 0 and 1 and its 256 B payload (13 R353). -/
structure Flit where
  word0 : W64
  word1 : W64
  payload : List Byte
  deriving DecidableEq, Repr

/-- A PTP message: the port and the protocol (UDP on IPv6, or on IPv4) that carry it, the time it carried, and the time base
at its arrival or departure, both in ns (14 R394 to R396). -/
structure PtpMsg where
  port : Nat
  v6 : Bool
  domain : Nat
  source : Nat
  twoStep : Bool
  seqId : Nat
  time : Nat
  stamp : Nat
  correction : Int
  quality : List Nat
  deriving DecidableEq, Repr

/-- The commands. -/
inductive Instr where
  /-- 15 R424: Returns the serial number, firmware version, life-cycle state, power state, mode, census digest and domain placement. -/
  | identify (h : Hdr) (w : List W64)
  /-- 15 R424: Returns the part of identity that PART selects: the firmware digest, the presented widths, or bypass maps. -/
  | identifyPart (h : Hdr) (w : List W64)
  /-- 15 R409: Makes its SESSION current unless another session executed a command in the last 10 s, and resets LAST_SEQ and the reply cache. -/
  | sessionOpen (h : Hdr) (w : List W64)
  /-- 15 R409: Makes its SESSION current at once, and resets LAST_SEQ and the reply cache. -/
  | sessionTake (h : Hdr) (w : List W64)
  /-- 15 R401: A datagram whose opcode no table lists is refused with UNKNOWN_OPCODE. -/
  | unknownOpcode (h : Hdr) (opcode : Nat) (w : List W64)
  /-- 15 R434: Accepts a long operation that writes LAT_DOMAIN, then trains, checks and calibrates the used ports and measures the agreement minima. -/
  | domainForm (h : Hdr) (w : List W64)
  /-- 15 R434: As DOMAIN_FORM, but keeps the caller's AGREE_BEATS, FLOOD_BEATS and RETRAIN_SLIP, and fails if they fall short. -/
  | domainFormEx (h : Hdr) (w : List W64)
  /-- 15 R434: A used port that is not UP within 10 s of acceptance ends the domain formation FAILED with LINK. -/
  | domainFormTimeout
  /-- 15 R425: Returns one register of device control space. -/
  | regRead (h : Hdr) (w : List W64)
  /-- 15 R424: Returns COUNT consecutive register words from ADDR upward. -/
  | regReadBlock (h : Hdr) (w : List W64)
  /-- 15 R425: Writes the masked bits of a register that has no row of its own, subject to access codes, update classes and BUSY. -/
  | regWrite (h : Hdr) (w : List W64)
  /-- 15 R424: Applies up to 64 masked register writes in listed order, all or none. -/
  | regWriteMulti (h : Hdr) (w : List W64)
  /-- 16 R459: A write of 1 to PENDING in JOB_XLATE clears it and opens recording for the next translation stop. -/
  | jobXlateClear (h : Hdr) (w : List W64)
  /-- 17 R484: Writes of 1 clear the W1C bits of FAULT_STATUS, and ALERT_N is released when none remains. -/
  | faultStatusClear (h : Hdr) (w : List W64)
  /-- 21 R543: A write to a match field of FRZ_CTRL takes effect at the next always-on cycle and sets MATCHES to 0. -/
  | frzMatchWrite (h : Hdr) (w : List W64)
  /-- 14 R398: A write of MODE or MAX_FRAME starts a new link bring-up after its reply, and takes effect at that bring-up. -/
  | hpCtrlLinkWrite (h : Hdr) (w : List W64)
  /-- 14 R398: A write of a class S host-port field takes effect at the end of the reply frame to the command that wrote it. -/
  | hostAddressWrite (h : Hdr) (w : List W64)
  /-- 15 R416: Returns one status word. -/
  | statusRead (h : Hdr) (w : List W64)
  /-- 15 R418: Returns COUNT status words from FIRST, wrapping after slot 255. -/
  | statusPageRead (h : Hdr) (w : List W64)
  /-- 15 R419: Returns result records of a slot; records at or above PARTIAL read as zeros. -/
  | resultRead (h : Hdr) (w : List W64)
  /-- 15 R424: Returns raw words of a slot's result area. -/
  | resultReadRaw (h : Hdr) (w : List W64)
  /-- 15 R421: Ends a QUEUED operation ABORTED, or stops a RUNNING one as its operation class permits. -/
  | opAbort (h : Hdr) (w : List W64)
  /-- 15 R424: Applies OP_ABORT to every operation of one class, newest first. -/
  | opAbortClass (h : Hdr) (w : List W64)
  /-- 15 R420: A QUEUED long operation enters RUNNING once its class is free, in acceptance order, and performs its work. -/
  | longOpStart (slot : Nat)
  /-- 15 R427: Reads bytes from a physical or job address through the hardware state machine. -/
  | memRead (h : Hdr) (w : List W64)
  /-- 15 R427: Reads strided lines from a physical or job address and returns them packed. -/
  | memReadEx (h : Hdr) (w : List W64)
  /-- 15 R427: Writes bytes to a physical or job address, and replies OK once every byte is acknowledged. -/
  | memWrite (h : Hdr) (w : List W64)
  /-- 15 R427: Writes strided lines, checks any host tallies first, and advances the producer position at POS_ADDR. -/
  | memWriteEx (h : Hdr) (w : List W64)
  /-- 15 R428: Runs a one-line TWO_D copy as a long operation on a hub MANAGEMENT channel. -/
  | copy (h : Hdr) (w : List W64)
  /-- 15 R428: Runs a raw descriptor as a long operation on a hub MANAGEMENT channel. -/
  | descSubmit (h : Hdr) (w : List W64)
  /-- 15 R426: Opens a window to every device of the domain with the given operations and size, or closes it. -/
  | windowOpen (h : Hdr) (w : List W64)
  /-- 13 R379: Writes a window record, which takes effect at the start of the next beat. -/
  | windowWrite (h : Hdr) (w : List W64)
  /-- 16 R445: Checks a schedule image in full and, if it passes, installs the segment table, items, lists and seed. -/
  | jobLoad (h : Hdr) (w : List W64)
  /-- 15 R429: As JOB_LOAD, with a segment table supplied by the host. -/
  | jobLoadEx (h : Hdr) (w : List W64)
  /-- 15 R430: Marks the device ready to join the job's start at the first agreed join beat. -/
  | jobRun (h : Hdr) (w : List W64)
  /-- 16 R447: As JOB_RUN, with a named domain start beat. -/
  | jobRunEx (h : Hdr) (w : List W64)
  /-- 16 R447: At the agreed join beat, the job starts, or a restored job resumes, and JOB_STATE becomes RUNNING. -/
  | jobJoinBeat
  /-- 16 R449: Floods PREEMPT so that the domain stops at the next quiesce point and saves the job. -/
  | preempt (h : Hdr) (w : List W64)
  /-- 16 R449: Floods PREEMPT naming a quiesce fence. -/
  | preemptAt (h : Hdr) (w : List W64)
  /-- 16 R454: Restores the save area with tally checks, then joins the domain for the resume beat. -/
  | resume (h : Hdr) (w : List W64)
  /-- 16 R454: As RESUME, at a named domain beat. -/
  | resumeAt (h : Hdr) (w : List W64)
  /-- 16 R458: Discards queued work, closes the windows, clears the scratchpads and mapped segments, and empties the segment table. -/
  | jobUnload (h : Hdr) (w : List W64)
  /-- 16 R457: As JOB_UNLOAD, but leaves named physical segments uncleared, which can park a job. -/
  | jobUnloadEx (h : Hdr) (w : List W64)
  /-- 16 R438: Maps one job segment unpaired or unmaps it, then retries every translation-stopped channel and reader. -/
  | segmentMap (h : Hdr) (w : List W64)
  /-- 16 R439: Writes up to 64 raw segment-table entries, all or none, then retries translation stops. -/
  | segmentWrite (h : Hdr) (w : List W64)
  /-- 15 R429: Stops every descriptor with HALT, ends the job and ends JOB_RUN ABORTED. -/
  | halt (h : Hdr) (w : List W64)
  /-- 15 R429: Stops one channel's descriptor with HALT. -/
  | haltChannel (h : Hdr) (w : List W64)
  /-- 15 R432: Writes step-descriptor slot T mod 2 with VALID = 1 and watches the step through its closes. -/
  | step (h : Hdr) (w : List W64)
  /-- 15 R432: As STEP, with the full step descriptor of R333. -/
  | stepEx (h : Hdr) (w : List W64)
  /-- 15 R433: Writes a group record from a preset, DECAY, CLIP and SKIP_IF_IDLE. -/
  | groupPreset (h : Hdr) (w : List W64)
  /-- 12 R331: Writes a whole group record of the group table. -/
  | groupWrite (h : Hdr) (w : List W64)
  /-- 15 R431: Returns STEP_STATE, COMMIT_STATUS, FINGERPRINT and NORM. -/
  | commitRead (h : Hdr) (w : List W64)
  /-- 15 R431: As COMMIT_READ, plus each floor's update counters. -/
  | commitReadEx (h : Hdr) (w : List W64)
  /-- 15 R435: Returns the summed arithmetic, ECC, sync and lattice counters. -/
  | countersRead (h : Hdr) (w : List W64)
  /-- 15 R435: Returns one unit's counters. -/
  | countersReadEx (h : Hdr) (w : List W64)
  /-- 15 R435: Runs a patrol pass of all cellars at full rate under leave. -/
  | scrub (h : Hdr) (w : List W64)
  /-- 15 R435: Patrols or clears named physical segments. -/
  | scrubEx (h : Hdr) (w : List W64)
  /-- 20 R521: Runs the field or full test set that the life-cycle state selects. -/
  | bist (h : Hdr) (w : List W64)
  /-- 20 R521: Runs listed regions with listed pattern masks, or the full set when N = 0. -/
  | bistEx (h : Hdr) (w : List W64)
  /-- 20 R522: A region starts once its predecessors have started, its leave is granted and the concurrency limits allow it; it saves, then tests. -/
  | bistRegionStart (region : Nat)
  /-- 20 R524: A region's restore ends; it writes its result record, returns its leave and applies the failure consequences. -/
  | bistRegionEnd (region : Nat) (seen : List Nat)
  /-- 18 R496: Enters ACTIVE, REST or VAULT after its reply, if the job state and operations permit. -/
  | powerState (h : Hdr) (w : List W64)
  /-- 18 R497: Puts named bench dies and floors into REST. -/
  | powerStateEx (h : Hdr) (w : List W64)
  /-- 15 R435: Returns the hottest die temperature and package power. -/
  | powerRead (h : Hdr) (w : List W64)
  /-- 18 R500: Returns the power registers from PWR_STATUS to LEAVE_COUNT. -/
  | powerReadEx (h : Hdr) (w : List W64)
  /-- 22 R554: Performs a warm reset after its reply. -/
  | reset (h : Hdr) (w : List W64)
  /-- 15 R435: Schedules a warm reset at a domain beat. -/
  | resetAt (h : Hdr) (w : List W64)
  /-- 15 R435: The beat named by RESET_AT arrives and the warm reset begins. -/
  | resetAtBeat
  /-- 19 R515: Takes every measurement and writes a signed attestation report into result records. -/
  | attest (h : Hdr) (w : List W64)
  /-- 19 R515: As ATTEST, with a measurement mask and optionally the certificate chain. -/
  | attestEx (h : Hdr) (w : List W64)
  /-- 19 R503: Makes a one-way life-cycle step by blowing fuses, with its checks. -/
  | lifecycleAdvance (h : Hdr) (w : List W64)
  /-- 19 R513: Moves between DEPLOYED and SERVICE on a valid signed authorisation, and renews LC_CHALLENGE. -/
  | lifecycleAuth (h : Hdr) (w : List W64)
  /-- 19 R511: Verifies an image, writes it to the inactive slot, verifies the slot again and then writes the directory. -/
  | firmwareUpdate (h : Hdr) (w : List W64)
  /-- 15 R435: Writes raw bytes to the flash in the states that permit it. -/
  | flashWrite (h : Hdr) (w : List W64)
  /-- 21 R529: Floods FREEZE with the current beat as its target. -/
  | freeze (h : Hdr) (w : List W64)
  /-- 21 R529: Floods FREEZE with a target beat, or freezes this device alone at that beat. -/
  | freezeAt (h : Hdr) (w : List W64)
  /-- 21 R537: Reads frozen state from the element space through the IEEE 1687 network. -/
  | stateRead (h : Hdr) (w : List W64)
  /-- 21 R537: Drives a raw IEEE 1687 access from the read-out controller. -/
  | ijtagAccess (h : Hdr) (w : List W64)
  /-- 21 R536: A scan through the IEEE 1149.1 test access port, limited by the life-cycle state. -/
  | tapScan (bits : Nat)
  /-- 21 R542: Returns the newest COUNT log entries, oldest first. -/
  | logRead (h : Hdr) (w : List W64)
  /-- 21 R542: Returns COUNT log entries in ring order from index FIRST. -/
  | logReadEx (h : Hdr) (w : List W64)
  /-- 21 R534: Thaws this device at the start of the next beat. -/
  | thaw (h : Hdr) (w : List W64)
  /-- 21 R534: Thaws this device at a named beat of the always-on count. -/
  | thawAt (h : Hdr) (w : List W64)
  /-- 21 R534: Clocks restart, the cellars leave self-refresh, the ports retrain, the beat realigns and the device joins its job. -/
  | thawTakeEffect
  /-- 22 R560: SMBus block read of the device's life-cycle, power, mode and safe state. -/
  | smbStatus
  /-- 22 R560: SMBus block read of the hottest die temperature. -/
  | smbTemp
  /-- 22 R560: SMBus block read of the package power. -/
  | smbPower
  /-- 22 R560: SMBus block read of the serial number. -/
  | smbIdent
  /-- 22 R560: Leaves VAULT by warm reset; ignored in other states. -/
  | smbWake
  /-- 22 R560: Performs a warm reset over SMBus. -/
  | smbReset
  /-- 22 R559: While ALERT_N is low, answers the SMBus Alert Response Address with the device's own address. -/
  | smbAlertResponse
  /-- 22 R561: Erases a firmware slot, if recovery is permitted. -/
  | recoveryErase (slot : Nat)
  /-- 22 R561: Programs data into the erased slot. -/
  | recoveryWrite (off : Nat) (data : List Byte)
  /-- 22 R561: Writes the directory naming the slot as active, then performs a warm reset. -/
  | recoveryActivate (slot : Nat)
  /-- 22 R552: The always-on domain leaves power-on reset once VDD_AON and CLK_AON are good; it starts the log and serves SMBus. -/
  | aonPowerOn (straps : Nat)
  /-- 22 R553: RESET_N is sampled high with PWRGOOD high, and the device runs its power-up sequence. -/
  | resetRelease
  /-- 22 R553: A cellar whose channels have not all trained within 80 ms puts the device in Safe with cause FLOOR_FAILED. -/
  | cellarTrainTimeout (k : Nat)
  /-- 19 R510: Digests the ROM, completes fuse steps, verifies a firmware slot, updates rollback, derives the identity key and starts firmware. -/
  | bootRom
  /-- 22 R554: On RESET_N low with PWRGOOD high, or a reset command, stops the clocks, parks the cellars and restarts the device, keeping what R554 keeps. -/
  | warmReset
  /-- 22 R555: PWRGOOD falls while RESET_N is high; the device enters reset and treats the next rise as a power-up. -/
  | pwrgoodFall
  /-- 22 R555: The rails are removed and everything but the fuses and field repair record is lost. -/
  | powerOff
  /-- 14 R384: A host-port frame is checked for size, FCS, VLAN, address, IP and UDP and is dispatched, or dropped and counted. -/
  | hostFrameReceive (port : Nat) (frame : List Byte)
  /-- 14 R386: Answers an ARP request for IPV4_ADDR. -/
  | arpRequest (port : Nat) (frame : List Byte)
  /-- 14 R386: Answers an IPv6 neighbour solicitation for IPV6_ADDR. -/
  | neighbourSolicitation (port : Nat) (frame : List Byte)
  /-- 14 R386: Answers an ICMP or ICMPv6 echo request to the device's address. -/
  | echoRequest (port : Nat) (frame : List Byte)
  /-- 14 R392: Auto-negotiation, training and FEC lock complete, and the link is logged as up. -/
  | hostLinkUp (port : Nat)
  /-- 14 R393: Block lock or alignment is lost, or the FEC error rate is exceeded; frames in flight are dropped, the port retrains and the loss is logged. -/
  | hostLinkDown (port : Nat)
  /-- 14 R396: A Sync, with any Follow_Up, is timestamped and the servo steers or steps the time base. -/
  | ptpSync (m : PtpMsg)
  /-- 14 R395: A Follow_Up supplies the precise origin time of a two-step Sync. -/
  | followUp (m : PtpMsg)
  /-- 14 R395: The PTP unit sends a Delay_Req and timestamps it. -/
  | delayReq (m : PtpMsg)
  /-- 14 R395: A Delay_Resp completes the end-to-end delay measurement. -/
  | delayResp (m : PtpMsg)
  /-- 14 R395: An Announce message takes part in the best-clock selection of the time transmitter. -/
  | announce (m : PtpMsg)
  /-- 14 R396: No Sync arrives for three announced intervals, and PTP_STATE becomes HOLDOVER. -/
  | ptpHoldover
  /-- 03 R566: The bench sequencer reads the next record of its list and places it in its engine's queue, or handles it itself. -/
  | recordFetch (b : Nat)
  /-- 03 R91: The lane row checks and runs an operation record chunk by chunk, accumulating and draining. -/
  | laneRowRecord (b : Nat)
  /-- 03 R95: A stream row of a batch record arrives with every slot full and is taken, closing the batch once ROWS rows are held. -/
  | batchRowArrive (b : Nat)
  /-- 03 R95: BATCH_TIMEOUT × 64 bench cycles pass after the first row, and the batch closes and runs its chunks. -/
  | batchTimeout (b : Nat)
  /-- 17 R467: A residue or duplicated-path mismatch withholds a row's contribution, and the row is rerun from the hold buffer. -/
  | laneResidueMismatch (b lane : Nat) (agrees : Bool)
  /-- 04 R130: Pairs with a COMPACTED lane-row record and emits packets of kept elements in the fixed order. -/
  | compact (b : Nat)
  /-- 04 R136: Writes compressed tiles in the smallest of the BITMAP, LIST and DENSE encodings. -/
  | compress (b : Nat)
  /-- 04 R139: Restores tiles to dense rows, with +0 for elements that are not kept. -/
  | expand (b : Nat)
  /-- 04 R146: Copies indexed table rows to output rows, merging equal indices and optionally padding with a valid bitmap. -/
  | gather (b : Nat)
  /-- 04 R147: Adds source rows into indexed table rows in FP32, in index-list order. -/
  | scatterAdd (b : Nat)
  /-- 04 R148: Sorts keys stably and permutes the payload with them. -/
  | sort (b : Nat)
  /-- 04 R149: Forms each output element as an FP32 fused multiply-add chain over its contributions. -/
  | wsum (b : Nat)
  /-- 05 R171: Reads a group table and issues patched copies of its templates for each group, writing zeros for empty groups. -/
  | raggedLoop (b : Nat)
  /-- 05 R158: Ranks experts for each token, assigns slots under capacity and spill, and writes the dispatch outputs. -/
  | routeDispatch (b : Nat)
  /-- 05 R166: Checks the segment headers and writes the collect index, group table and return table. -/
  | routeCollect (b : Nat)
  /-- 06 R201: Runs an out-of-place transpose through the last, carrying or re-blocking scales. -/
  | transpose (b : Nat)
  /-- 06 R208: Runs an in-place square transpose, swapping sub-tile pairs. -/
  | transposeInPlace (b : Nat)
  /-- 11 R319: Waits for its fence, reads the recompute maps, chooses path A, B or C and skips the others. -/
  | select (loc : Nat)
  /-- 02 R568: Checks a VECTOR record and runs its program at every element position of each row. -/
  | vectorRecord (b : Nat)
  /-- 17 R469: A residue or parity mismatch in another unit withholds its output and forms it again. -/
  | outputReform (u : ReformUnit) (recovered : Bool)
  /-- 09 R267: A channel checks and starts a two-dimensional descriptor. -/
  | dmaTwoD (loc ch : Nat)
  /-- 09 R271: A channel checks and starts a circular descriptor with ring ends and limits. -/
  | dmaCircular (loc ch : Nat)
  /-- 09 R277: A channel checks and starts a shape-addressed descriptor with origins. -/
  | dmaShape (loc ch : Nat)
  /-- 09 R281: A channel issues its next burst once pacing, the outstanding limit and its port turn allow, translating JOB addresses. -/
  | dmaBurstIssue (loc ch : Nat)
  /-- 09 R273: A channel at its limit re-reads the limit word and moves on if it has advanced. -/
  | dmaLimitReread (loc ch : Nat)
  /-- 09 R274: A limit wait of LIMIT_TIMEOUT beats without advance stops the descriptor with LIMIT_TIMEOUT. -/
  | limitTimeout (loc ch : Nat)
  /-- 09 R285: Once every outstanding burst has ended after a stop cause, the channel records progress and the done mask and writes word 7 and its report word. -/
  | dmaStop (loc ch : Nat)
  /-- 08 R243: A WRITE packet lands at its destination port, which returns ACK, or NACK if refused. -/
  | bulkWrite (id : Nat)
  /-- 08 R243: A READ_REQ is served at its destination, or joins a merge window, and is answered by READ_DATA. -/
  | bulkReadReq (id : Nat)
  /-- 08 R243: READ_DATA arrives and completes a read burst. -/
  | bulkReadData (id : Nat)
  /-- 09 R284: An ACK completes a write burst and advances the channel's progress and done mask. -/
  | bulkAck (id : Nat) (agrees : Bool)
  /-- 08 R243: A NACK reports a refused write to its channel. -/
  | bulkNack (id : Nat)
  /-- 08 R245: A multicast packet is copied where routes part and delivered to each bench in its mask. -/
  | bulkMulticast (id : Nat)
  /-- 08 R247: A REDUCE contribution is matched in a router, and a complete set is summed in ORDER and sent on. -/
  | bulkReduce (id : Nat)
  /-- 08 R248: A set still incomplete REDUCE_TIMEOUT beats after its first contribution stops with REDUCE_FAULT. -/
  | reduceTimeout (b : Nat)
  /-- 08 R244: A bulk link cycle with a CRC mismatch is replayed, and eight failures mark the link LINK_FAILED. -/
  | linkCrcReplay (b port : Nat) (failures : Nat)
  /-- 07 R229: After 64 bench cycles a merge window closes; the slot is read once and multicast to every requester. -/
  | mergeWindowClose (b slot : Nat)
  /-- 07 R223: A waiting tagged access finds its tags and proceeds, and its tag changes apply after its last byte. -/
  | tagWaitSatisfied (a : Access)
  /-- 07 R225: A tag wait of SLOT_TIMEOUT beats stops its record or descriptor with a SLOT_TIMEOUT fault. -/
  | slotTimeout (a : Access)
  /-- 07 R220: A bank's scrubber reads its next line, corrects it and advances, or records a latent error. -/
  | scratchpadScrubRead (b bank : Nat) (seen : List (Nat × Nat))
  /-- 07 R218: A corrected word is written back in the bank's next cycle that no port uses, unless a port has written it. -/
  | scratchpadEccWriteback (b off : Nat)
  /-- 10 R296: A channel's scrubber reads and corrects its next codeword, or counts and reports a latent error. -/
  | cellarScrubRead (k ch : Nat) (seen : Ecc)
  /-- 10 R294: A corrected codeword is written back in the channel's next idle cycle. -/
  | cellarEccWriteback (k : Nat) (addr : Nat)
  /-- 10 R303: Stashes an entry into the attic ring under its limit, or drops it and marks its group for recomputation. -/
  | stash (k : Nat)
  /-- 10 R304: Copies a stashed entry back to its destination, checking its tallies. -/
  | recall (k : Nat)
  /-- 10 R304: Pops the oldest frame and advances CONSUME_POS. -/
  | free (k : Nat)
  /-- 13 R362: A send channel takes a phase record and, from the beat after its start fence, sends its descriptor's flits in its slots. -/
  | phaseRecord (p : Nat)
  /-- 13 R375: A WRITE flit is checked and its bytes land in the window. -/
  | flitWrite (p : Nat) (f : Flit)
  /-- 13 R376: A REDUCE_ADD flit is checked and its elements are added in scheduled order. -/
  | flitReduceAdd (p : Nat) (f : Flit)
  /-- 13 R377: A READ_REQ flit is checked and queued for READ_DATA in the RESPONSE phases. -/
  | flitReadReq (p : Nat) (f : Flit)
  /-- 13 R377: A READ_DATA flit is checked as a write and lands in the requester's window. -/
  | flitReadData (p : Nat) (f : Flit)
  /-- 13 R378: A STREAM flit lands in the receive ring, or is refused with RING_FULL. -/
  | flitStream (p : Nat) (f : Flit)
  /-- 13 R355: An IDLE flit is numbered and acknowledged, while a pause flit is discarded. -/
  | flitIdle (p : Nat) (f : Flit)
  /-- 13 R360: A BEAT service message gives the parent's beat number and timing for alignment. -/
  | beatMessage (p : Nat) (f : Flit) (residual : Int)
  /-- 13 R370: A flood not yet seen is relayed on every other port, and its effect beat is recorded. -/
  | flood (p : Nat) (f : Flit)
  /-- 13 R356: A request to resend a flit is answered in a resend service slot. -/
  | retryReq (p : Nat) (f : Flit)
  /-- 13 R356: A flit resent three times without acceptance, or a resend not sent within two beats, becomes a lane loss. -/
  | resendTimeout (p seq : Nat)
  /-- 13 R375: A NACK reaching the sender stops its descriptor with WINDOW and reports a schedule fault. -/
  | nack (p : Nat) (f : Flit)
  /-- 13 R365: A child's poll contribution is combined with this device's own and passed up the tree. -/
  | poll (p : Nat) (f : Flit)
  /-- 13 R366: A fence result is taken and passed down the tree, to be applied at the release beat. -/
  | result (p : Nat) (f : Flit)
  /-- 13 R369: A child's vote contribution is combined and passed up the tree. -/
  | vote (p : Nat) (f : Flit)
  /-- 13 R369: The domain's vote result arrives, completing the agreement that the close awaits. -/
  | voteResult (p : Nat) (f : Flit)
  /-- 13 R368: A norm running sum is added to and passed on, or the final S is taken. -/
  | norm (p : Nat) (f : Flit)
  /-- 13 R369: A fingerprint from FP_PREV is compared and, in round 1, passed around the set. -/
  | fprint (p : Nat) (f : Flit)
  /-- 13 R359: A calibration exchange measures a link's one-way delay. -/
  | cal (p : Nat) (f : Flit) (delay : Nat)
  /-- 13 R372: A Wiltus lane loses lock; both ends stop, retrain on the remaining lanes and flood DEGRADE. -/
  | laneLoss (p lane : Nat)
  /-- 13 R372: Retraining ends and the port runs degraded, resending unacknowledged flits. -/
  | retrainComplete (p : Nat)
  /-- 13 R374: A second lane loss, a retraining beyond 400 µs or loss of signal leaves the port FAILED and reports LINK_FAILED. -/
  | portFailed (p : Nat)
  /-- 13 R359: A beat residual above 16 ns for 16 beats reports a BEAT_SKEW fault. -/
  | beatSkew (p : Nat)
  /-- 13 R372: At the DEGRADE flood's effect beat, a slip request of RETRAIN_SLIP beats is taken and near agreements are voided. -/
  | degradeEffect
  /-- 17 R475: At the ABORT flood's effect beat, the step is abandoned, channels stop and recoveries end. -/
  | abortEffect
  /-- 16 R449: At the PREEMPT flood's effect beat, the quiesce fence is chosen. -/
  | preemptEffect
  /-- 21 R531: At the freeze beat, FREEZE is broadcast and every clock but the exceptions stops at the freeze cycle. -/
  | freezeEffect
  /-- 21 R529: FREEZE_N held low for two always-on cycles freezes locally or floods, by PIN_ACTION. -/
  | freezePin
  /-- 08 R256: At each beat start, the root broadcasts BEAT and due domain actions, and benches return excess leave. -/
  | beat
  /-- 08 R257: A leaf's ARRIVE for a fence is accepted at the root. -/
  | syncArrive (rank fence : Nat)
  /-- 08 R257: At a local fence's release beat, it is released if every participant arrived; otherwise it becomes a one-beat slip request. -/
  | fenceRelease (fence : Nat)
  /-- 08 R257: A fence unreleased FENCE_LATE_LIMIT beats after its release beat reports a SYNC_TIMEOUT fault. -/
  | syncTimeout (fence : Nat)
  /-- 08 R258: An overrun notice reaches the root, which keeps the largest request for its fence. -/
  | slipReq (rank beats record : Nat)
  /-- 08 R258: An agreed slip is broadcast, and every leaf moves that fence and all later fences. -/
  | slip (fence beats : Nat)
  /-- 13 R365: At a domain fence's poll beat, the device sends POLL with its readiness, slip and flags. -/
  | domainFencePoll (fence : Nat)
  /-- 13 R366: At the release beat, the agreed result releases the fence or slips it by at least AGREE_BEATS. -/
  | domainFenceResult (fence : Nat)
  /-- 08 R259: A leaf stopped at the quiesce point with no bulk traffic outstanding reports QUIESCED, and the last one starts the save. -/
  | quiesced (rank : Nat)
  /-- 16 R453: Every block of the save area is acknowledged; the save record is written VALID and the job is PREEMPTED. -/
  | saveComplete
  /-- 16 R454: The save area is restored with tallies checked, and the device becomes ready to join for the resume beat. -/
  | restoreComplete
  /-- 16 R458: The clears of an unload complete, the segment table is emptied and the job state becomes NONE. -/
  | unloadComplete
  /-- 12 R335: At the step's start beat, step fences re-arm, lists restart, the snapshot is taken and each floor checks T against T_LOCAL + 1. -/
  | stepStart
  /-- 12 R339: An update entry applies its element-wise rule to every granule into the pending view, or carries or skips it. -/
  | elementwise (k : Nat)
  /-- 12 R342: An update entry writes the orthogonal rule's momentum M to the pending view. -/
  | orthoMomentum (k : Nat)
  /-- 12 R342: An update entry applies the orthogonalised momentum to W and MST. -/
  | orthoApply (k : Nat)
  /-- 12 R346: A floor sends its vote once all its pending-view writes are acknowledged, and the device combines its vote. -/
  | floorVote (k : Nat)
  /-- 12 R348: At the close beat, the outcome takes effect: commit with parity flip, skip, or abort for replay or abandonment; an incomplete agreement moves the close. -/
  | voteClose
  /-- 17 R476: At the agreed replay start beat, the snapshot is restored, fences move and the step runs again. -/
  | stepReplayStart
  /-- 18 R488: A leave request reaches the steward and is granted, or refused and queued. -/
  | leaveRequest (b : Nat)
  /-- 18 R488: A queued request is granted once the units are free, and the waiting record starts. -/
  | leaveGrant
  /-- 18 R491: Every 10 µs the steward measures the rails and sets or clears OVER. -/
  | railMeasure (rails : List (Nat × Nat))
  /-- 18 R498: Every 100 µs the sensors are read and THERM_WARN is set or cleared. -/
  | tempSensorRead (temps : List Int)
  /-- 18 R499: A comparator trips; clocks stop, transmitters idle and THERMTRIP_N latches low. -/
  | thermalTrip (sensor : Nat) (reading : Int)
  /-- 18 R493: Work reaching a gated domain opens its clock within 40 ns. -/
  | clockGateOpen (domain : Nat)
  /-- 18 R493: After GATE_IDLE cycles with no work, a domain gates its clock. -/
  | clockGateIdle (domain : Nat)
  /-- 18 R494: A stopped PLL relocks, and the domains it feeds may open. -/
  | pllLocked (pll : Nat)
  /-- 21 R539: After its 256-cycle hold, an event entry is written to the log ring in stamp order. -/
  | logEntryWrite
  /-- 16 R446: The load finishes reading and writing its image; the device enters LOADED, or PREEMPTED for a parked job, and the operation ends DONE. -/
  | jobLoadDone
  /-- 15 R434: Every used port is trained and calibrated and the minima are measured; domain formation ends DONE and the lattice registers are no longer busy. -/
  | domainFormDone
  /-- 15 R435: A SCRUB or SCRUB_EX pass over its segments finishes, returns its leave and ends DONE. -/
  | scrubDone
  /-- 19 R515: The identity-key signature completes, PARTIAL reaches 28 or 128, the operation ends DONE and ATTESTS counts it. -/
  | attestDone
  /-- 19 R511: The image is written to the inactive slot and read back and verified, the directory copy is written, and the operation ends DONE. -/
  | firmwareUpdateDone
  /-- 15 R435: A raw flash write finishes and its operation ends DONE. -/
  | flashWriteDone
  /-- 13 R356: A Wiltus receiver finds a flit with a CRC mismatch or a gap in SEQ and sends RETRY_REQ for the missing flits in its next service slot. -/
  | flitCrcMismatch (p : Nat) (missing : List Nat) (crcBad : Bool)
  /-- 21 R529: FREEZE_N returns high for two always-on cycles, which re-arms the pin trigger. -/
  | freezeNHigh
  /-- 22 R560: An SMBus transaction with a command code that the table does not list is NACKed and does nothing. -/
  | smbUnlistedCommand (code : Nat)
  deriving DecidableEq, Repr

end Sys2Proof
end

