-- ==== Sys2Proof/Decode.lean ====
section
/-! DEFINITION. The words of the table: no row of spec/opcode_table.json gives bits, so no word spells a command. Smiper
datagrams are read by the host port (Machine/HostPort.lean, 15 R400, R401). -/

namespace Sys2Proof

/-- The command that a word of the table's bits spells: none. -/
def decodeTableWord (_nbits _w : Nat) : Option Instr := none

end Sys2Proof
end

