-- ==== Sys2Proof/Config.lean ====
section
/-! DEFINITION. What the spec leaves open: free values with no body (log entries 1, 5, 9, 10, 11, 13, 77, 82). -/

namespace Sys2Proof.Config

/-- The free value a step takes at count `n` of State's free counter: nothing constrains it (log entry 1). -/
opaque freeWord : Nat → BitVec 64

/-- Falcon-1024 verification of a signature on a message under a public key (19; log entry 10). -/
opaque falconVerify : (key msg sig : List (BitVec 8)) → Bool

/-- The Falcon-1024 signature of a message under the identity key of a seed (19 R515; log entry 10). -/
opaque falconSign : (seed msg : List (BitVec 8)) → List (BitVec 8)

/-- The identity public key that a seed gives (19 R506; log entry 10). -/
opaque identityKey : (seed : List (BitVec 8)) → List (BitVec 8)

/-- The digest of the Vebegal root key in the boot ROM (19 R508; log entry 13). -/
opaque rootDigest : List (BitVec 8)

/-- The contents of the boot ROM (19 R510; log entry 13). -/
opaque romImage : List (BitVec 8)

/-- The minima that DOMAIN_FORM measures on the given
domain word: agreement and flood beats (15 R434; log entry 11). -/
opaque formMinima : BitVec 64 → Nat × Nat

/-- The depth of the domain tree, in links, that a device finds when it has taken the given domain word (13 R358; log entry 11). -/
opaque treeDepth : BitVec 64 → Nat

/-- The job address of the descriptor that a hub channel without a list holds from the start of the lists of the image with the
given digest: a receive channel's ring or the log drain (09 R262, 13 R378, 21 R542; log entry 40). -/
opaque hubDescriptor : (digest : List (BitVec 8)) → (channel : Nat) → Option Nat

/-- A codeword's symbol errors outside a marked die are no more than one, for the stored error at an address (10 R294; log entry
85). -/
opaque oneSymbol : (address : Nat) → Bool

/-- The XTAG that a bulk packet's request is given, by its number (08 R241; log entry 77). -/
opaque packetTag : Nat → BitVec 12

/-- What makes a phase record an all-to-all phase of a routed layer, which no field of it says (05 R162 to R165, R176; log
entry 82): KIND of its segments, the layer, the ranks of this device and of the link partner in the form's source order, local
experts of a device, bytes of a row, the offsets of the header array and of the receive areas in the phase's window, rows of an
area, the budget of a return segment, where the send buffer of a routing group begins beyond the descriptor's source, and at which
offset of the window row i of the return segment of an expert lands. -/
structure RoutedPhase where
  kind : Nat
  layer : Nat
  rank : Nat
  peer : Nat
  localExperts : Nat
  rowBytes : Nat
  headers : Nat
  areas : Nat
  areaRows : Nat
  returnBudget : Nat
  groupAt : Nat → Nat
  landAt : Nat → Nat → Nat

/-- The all-to-all phase that a device's phase record belongs to, if any (log entry 82). -/
opaque routedPhase : (device : Nat) → (record : List (BitVec 64)) → Option RoutedPhase

end Sys2Proof.Config
end

