-- ==== Sys2Proof/Machine/Bits.lean ====
section
/-! DEFINITION. Bit fields, little-endian bytes and sparse maps: the helpers every unit shares (00 R11, R12). -/

namespace Sys2Proof.Machine

/-- Bits [hi:lo] of a word, as a number (00 R11). -/
def fld (w : W64) (hi lo : Nat) : Nat := w.toNat / 2 ^ lo % 2 ^ (hi + 1 - lo)

/-- One bit of a word. -/
def bit (w : W64) (i : Nat) : Bool := w.toNat / 2 ^ i % 2 == 1

/-- `w` with bits [hi:lo] set to `v` (taken modulo the field's width). -/
def putFld (w : W64) (hi lo v : Nat) : W64 :=
  BitVec.ofNat 64 (2 ^ lo * (v % 2 ^ (hi + 1 - lo)) + (w.toNat - 2 ^ lo * fld w hi lo))

/-- The mask of bits [hi:lo]. -/
def fldMask (hi lo : Nat) : W64 := BitVec.ofNat 64 ((2 ^ (hi + 1 - lo) - 1) * 2 ^ lo)

/-- A number as a 64-bit word. -/
abbrev w64 (n : Nat) : W64 := BitVec.ofNat 64 n

/-- A number as a byte. -/
abbrev byteOf (n : Nat) : Byte := BitVec.ofNat 8 n

/-- A number with value 1 for true. -/
def b2n (b : Bool) : Nat := if b then 1 else 0

/-- The little-endian value of bytes (00 R11). -/
def ofLe : List Byte → Nat
  | [] => 0
  | b :: t => b.toNat + 256 * ofLe t

/-- `n` little-endian bytes of a number (00 R11). -/
def toLe : Nat → Nat → List Byte
  | 0, _ => []
  | n + 1, v => byteOf v :: toLe n (v / 256)

/-- The big-endian value of bytes (Ethernet, IP and UDP fields, 00 R11). -/
def ofBe (l : List Byte) : Nat := l.foldl (fun a b => a * 256 + b.toNat) 0

/-- `n` big-endian bytes of a number. -/
def toBe (n v : Nat) : List Byte := (toLe n v).reverse

/-- The eight bytes of a word, lowest first. -/
def wordBytes (w : W64) : List Byte := toLe 8 w.toNat

/-- The bytes of a list of words. -/
def wordsBytes (ws : List W64) : List Byte := ws.flatMap wordBytes

/-- `n` whole words from bytes, little-endian; missing bytes read zero. -/
def bytesWords : Nat → List Byte → List W64
  | 0, _ => []
  | n + 1, l => w64 (ofLe (l.take 8)) :: bytesWords n (l.drop 8)

/-- All the bytes as words, the last one filled up with zeros. -/
def packWords (l : List Byte) : List W64 := bytesWords ((l.length + 7) / 8) l

/-- Cut a list into pieces of `n` elements, at most `k` pieces. -/
def chunk {α : Type} (n : Nat) : Nat → List α → List (List α)
  | 0, _ => []
  | k + 1, l => if l.isEmpty then [] else l.take n :: chunk n k (l.drop n)

/-- The low `n` bits of a number read as two's complement. -/
def signed (n v : Nat) : Int :=
  let v := v % 2 ^ n
  if v < 2 ^ (n - 1) then (v : Int) else (v : Int) - (2 ^ n : Nat)

/-- An integer as `n` bits of two's complement. -/
def unsigned (n : Nat) (i : Int) : Nat := (i % (2 ^ n : Nat)).toNat

/-- Divide, rounding up. -/
def ceilDiv (a b : Nat) : Nat := (a + b - 1) / b

/-- Round up to a multiple. -/
def roundUp (a b : Nat) : Nat := ceilDiv a b * b

/-- The number of one bits among the low `n` bits. -/
def popcount (n v : Nat) : Nat := ((List.range n).filter (fun i => v.testBit i)).length

/-- The indexes of the one bits among the low `n` bits, ascending. -/
def onesOf (n v : Nat) : List Nat := (List.range n).filter (fun i => v.testBit i)

/-- The lowest index below `n` that satisfies `p`. -/
def findIdx (p : Nat → Bool) (n : Nat) : Option Nat := (List.range n).find? p

/-- The i-th element, or `d`. -/
def nth {α : Type} (d : α) (l : List α) (i : Nat) : α := l.getD i d

/-- The i-th parameter word, zero when absent. -/
def wd (ws : List W64) (i : Nat) : W64 := ws.getD i 0

/-- Replace the i-th element. -/
def setNth {α : Type} (l : List α) (i : Nat) (v : α) : List α := l.set i v

/-! ### Sparse maps: address and value pairs, addresses strictly rising, no default listed -/

/-- A sparse map from numbers. -/
abbrev SMap (α : Type) := List (Nat × α)

/-- The value at `k`; `d` says what an unlisted key reads as. -/
def SMap.get {α : Type} (d : Nat → α) : SMap α → Nat → α
  | [], k => d k
  | (a, v) :: t, k => if k = a then v else SMap.get d t k

/-- Drop the entry of `k`, if any. -/
def SMap.erase {α : Type} : SMap α → Nat → SMap α
  | [], _ => []
  | (a, v) :: t, k => if k = a then SMap.erase t k else (a, v) :: SMap.erase t k

/-- Insert `(k, v)` in order, replacing the entry of `k`. -/
def SMap.insert {α : Type} : SMap α → Nat → α → SMap α
  | [], k, v => [(k, v)]
  | (a, w) :: t, k, v =>
    if k = a then (k, v) :: t else if k < a then (k, v) :: (a, w) :: t else (a, w) :: SMap.insert t k v

/-- Write `v` at `k`: the entry goes away when `v` is what an unlisted key reads as. -/
def SMap.set {α : Type} [DecidableEq α] (d : Nat → α) (m : SMap α) (k : Nat) (v : α) : SMap α :=
  if v = d k then m.erase k else m.insert k v

/-- Drop every entry with lo ≤ key < hi. -/
def SMap.eraseRange {α : Type} (m : SMap α) (lo hi : Nat) : SMap α :=
  m.filter (fun p => p.1 < lo || hi ≤ p.1)

/-- The canonical form: keys strictly rising and no entry equal to its default. -/
def SMap.wf {α : Type} [DecidableEq α] (d : Nat → α) : SMap α → Bool
  | [] => true
  | [(a, v)] => decide (v ≠ d a)
  | (a, v) :: (b, w) :: t => decide (v ≠ d a) && decide (a < b) && SMap.wf d ((b, w) :: t)

end Sys2Proof.Machine
end

