-- ==== Sys2Proof/Machine/Formats.lean ====
section
/-! DEFINITION. Number formats, rounding, conversion and FP32 arithmetic (02 R40 to R70), as exact values that are
rounded once. Element codes are natural numbers of the format's width. -/

namespace Sys2Proof.Machine

/-- An exact value: NaN, an infinity, or ±m × 2^e (m = 0 is a signed zero, 02 R45). -/
inductive Val where
  | nan
  | inf (neg : Bool)
  | fin (neg : Bool) (m : Nat) (e : Int)
  deriving DecidableEq, Repr

/-- Event counts of 02 R71: NaNs made, infinities made, saturations, NaNs replaced by zero. -/
structure Cnt where
  nans : Nat := 0
  infs : Nat := 0
  sats : Nat := 0
  repl : Nat := 0
  deriving DecidableEq, Repr

/-- Add event counts. -/
def Cnt.add (a b : Cnt) : Cnt := ⟨a.nans + b.nans, a.infs + b.infs, a.sats + b.sats, a.repl + b.repl⟩

/-- Add up a list of event counts. -/
def Cnt.sum (l : List Cnt) : Cnt := l.foldl Cnt.add {}

/-! ### Format codes (02 R40, R41, R42, R46) -/

abbrev fmtFP32 : Nat := 0
abbrev fmtBF16 : Nat := 1
abbrev fmtFP16 : Nat := 2
abbrev fmtE4M3 : Nat := 3
abbrev fmtE5M2 : Nat := 4
abbrev fmtE3M2 : Nat := 5
abbrev fmtE2M3 : Nat := 6
abbrev fmtE2M1 : Nat := 7
abbrev fmtE8M0 : Nat := 8
abbrev fmtINT32 : Nat := 9
abbrev fmtINT16 : Nat := 10
abbrev fmtINT8 : Nat := 11
abbrev fmtINT4 : Nat := 12
abbrev fmtUINT32 : Nat := 13
abbrev fmtUINT8 : Nat := 14

/-- Width of an element in bits. -/
def fmtBits (f : Nat) : Nat :=
  match f with
  | 0 => 32 | 1 => 16 | 2 => 16 | 3 => 8 | 4 => 8 | 5 => 6 | 6 => 6 | 7 => 4 | 8 => 8
  | 9 => 32 | 10 => 16 | 11 => 8 | 12 => 4 | 13 => 32 | 14 => 8 | _ => 8

/-- A floating-point layout: exponent bits, mantissa bits, bias, code of the largest finite magnitude. -/
structure FpFmt where
  ebits : Nat
  mbits : Nat
  bias : Nat
  maxCode : Nat
  hasInf : Bool
  nanCode : Option Nat
  deriving DecidableEq, Repr

/-- The floating layouts of 02 R41 and R42. -/
def fpFmt (f : Nat) : Option FpFmt :=
  match f with
  | 0 => some ⟨8, 23, 127, 0x7F7FFFFF, true, some 0x7FC00000⟩
  | 1 => some ⟨8, 7, 127, 0x7F7F, true, some 0x7FC0⟩
  | 2 => some ⟨5, 10, 15, 0x7BFF, true, some 0x7E00⟩
  | 3 => some ⟨4, 3, 7, 0x7E, false, some 0x7F⟩
  | 4 => some ⟨5, 2, 15, 0x7B, true, some 0x7E⟩
  | 5 => some ⟨3, 2, 3, 0x1F, false, none⟩
  | 6 => some ⟨2, 3, 1, 0x1F, false, none⟩
  | 7 => some ⟨2, 1, 1, 0x7, false, none⟩
  | _ => none

/-- FP32's layout. -/
def fp32 : FpFmt := ⟨8, 23, 127, 0x7F7FFFFF, true, some 0x7FC00000⟩

/-- Canonical NaN of FP32 (02 R42). -/
abbrev nan32 : Nat := 0x7FC00000

/-- The value of a floating code (02 R41 to R43). -/
def FpFmt.decode (t : FpFmt) (code : Nat) : Val :=
  let w := t.ebits + t.mbits
  let neg := code / 2 ^ w % 2 == 1
  let mag := code % 2 ^ w
  if mag ≤ t.maxCode then
    let x := mag / 2 ^ t.mbits
    let m := mag % 2 ^ t.mbits
    if x = 0 then .fin neg m (1 - (t.bias : Int) - t.mbits)
    else .fin neg (m + 2 ^ t.mbits) ((x : Int) - t.bias - t.mbits)
  else if t.hasInf && mag = t.maxCode + 1 then .inf neg
  else .nan

/-- Rounding modes: RNE, RTZ, SR (02 R60). -/
inductive Rnd where | rne | rtz | sr
  deriving DecidableEq, Repr

/-- The rounding mode of a 2-bit code; 3 is reserved and is refused before use. -/
def rndOf (c : Nat) : Rnd := if c = 0 then .rne else if c = 1 then .rtz else .sr

/-- floor(log2 m) of a non-zero m. -/
def log2 (m : Nat) : Nat := m.log2

/-- m × 2^d as an integer part and a remainder over 2^k. -/
def shiftSplit (m : Nat) (d : Int) : Nat × Nat × Nat :=
  match d with
  | .ofNat k => (m * 2 ^ k, 0, 0)
  | .negSucc k => (m / 2 ^ (k + 1), m % 2 ^ (k + 1), k + 1)

/-- Round n + rem / 2^k to an integer by the mode; `r` is the draw of SR (02 R60, R62). -/
def roundInt (mode : Rnd) (r n rem k : Nat) : Nat :=
  match mode with
  | .rtz => n
  | .rne => if 2 * rem > 2 ^ k || (2 * rem = 2 ^ k && k ≠ 0 && n % 2 = 1) then n + 1 else n
  | .sr => if r < 2 ^ 32 * rem / 2 ^ k then n + 1 else n

/-- Magnitude code of m × 2^e (m non-zero) after rounding, with no upper bound (02 R41, R43, R60, R62). -/
def FpFmt.roundMag (t : FpFmt) (mode : Rnd) (r m : Nat) (e : Int) : Nat :=
  let emin : Int := 1 - (t.bias : Int)
  let x : Int := max ((log2 m : Int) + e) emin
  let (n, rem, k) := shiftSplit m (e - (x - t.mbits))
  (x - emin).toNat * 2 ^ t.mbits + roundInt mode r n rem k

/-- Whether m × 2^e exceeds the largest finite magnitude (02 R62). -/
def FpFmt.exceeds (t : FpFmt) (m : Nat) (e : Int) : Bool :=
  match t.decode t.maxCode with
  | .fin _ mm me =>
    let b := min e me
    mm * 2 ^ (me - b).toNat < m * 2 ^ (e - b).toNat
  | _ => false

/-- The sign bit of a format. -/
def FpFmt.sign (t : FpFmt) (neg : Bool) : Nat := if neg then 2 ^ (t.ebits + t.mbits) else 0

/-- A value into a floating format, with the counts of its replacements (02 R65 to R67, R71). -/
def FpFmt.encode (t : FpFmt) (mode : Rnd) (sat : Bool) (r : Nat) (v : Val) : Nat × Cnt :=
  let sat := sat || t.nanCode.isNone
  match v with
  | .nan =>
    match t.nanCode with
    | some c => (c, {})
    | none => (0, { repl := 1 })
  | .inf neg =>
    if sat then (t.sign neg + t.maxCode, { sats := 1 })
    else if t.hasInf then (t.sign neg + t.maxCode + 1, {})
    else (t.nanCode.getD 0, { nans := 1 })
  | .fin neg m e =>
    if m = 0 then (t.sign neg, {}) else
    let c := t.roundMag mode r m e
    if c ≤ t.maxCode && !(mode = .sr && t.exceeds m e) then (t.sign neg + c, {})
    else if sat || mode = .rtz then (t.sign neg + t.maxCode, { sats := 1 })
    else if t.hasInf then (t.sign neg + t.maxCode + 1, { infs := 1 })
    else (t.nanCode.getD 0, { nans := 1 })

/-! ### Exact arithmetic on values -/

/-- The value is NaN. -/
def Val.isNan : Val → Bool | .nan => true | _ => false
/-- The value is an infinity. -/
def Val.isInf : Val → Bool | .inf _ => true | _ => false
/-- The value is finite. -/
def Val.isFin : Val → Bool | .fin _ _ _ => true | _ => false
/-- The value is a zero of either sign. -/
def Val.isZero : Val → Bool | .fin _ m _ => m == 0 | _ => false
/-- The sign. -/
def Val.neg? : Val → Bool | .nan => false | .inf s => s | .fin s _ _ => s
/-- The value with its sign inverted. -/
def Val.negate : Val → Val | .nan => .nan | .inf s => .inf (!s) | .fin s m e => .fin (!s) m e

/-- A finite value as an integer multiple of 2^b, for b no larger than its exponent. -/
def Val.scaled (b : Int) : Val → Int
  | .fin s m e => let n : Int := m * 2 ^ (e - b).toNat; if s then -n else n
  | _ => 0

/-- i × 2^b as a value; zero takes the given sign. -/
def Val.ofInt (zneg : Bool) (i b : Int) : Val :=
  if i = 0 then .fin zneg 0 0 else .fin (decide (i < 0)) i.natAbs b

/-- The exact product (02 R54, R55: zero times infinity is NaN). -/
def Val.mul (a b : Val) : Val :=
  match a, b with
  | .nan, _ => .nan
  | _, .nan => .nan
  | .inf s, .inf t => .inf (s != t)
  | .inf s, .fin t m _ => if m = 0 then .nan else .inf (s != t)
  | .fin s m _, .inf t => if m = 0 then .nan else .inf (s != t)
  | .fin s m e, .fin t n f => .fin (s != t) (m * n) (e + f)

/-- The exact sum of a list: NaN and infinities as 02 R55 rules; an exact zero is +0 unless every addend is −0 (R45). -/
def Val.sum (l : List Val) : Val :=
  if l.any Val.isNan then .nan
  else
    let infs := l.filter Val.isInf
    if infs.any Val.neg? && infs.any (fun v => !v.neg?) then .nan
    else match infs with
    | v :: _ => v
    | [] =>
      let b := l.foldl (fun b v => match v with | .fin _ m e => if m = 0 then b else min b e | _ => b) (0 : Int)
      let t := l.foldl (fun a v => a + v.scaled (min b 0)) (0 : Int)
      Val.ofInt (!l.isEmpty && l.all Val.neg?) t (min b 0)

/-- Compare two finite or infinite values: a < b. -/
def Val.lt (a b : Val) : Bool :=
  match a, b with
  | .nan, _ => false
  | _, .nan => false
  | .inf s, .inf t => s && !t
  | .inf s, _ => s
  | _, .inf t => !t
  | .fin s m e, .fin t n f =>
    let c := min e f
    decide ((Val.fin s m e).scaled c < (Val.fin t n f).scaled c)

/-- Equality of values (NaN equals nothing; the zeros are equal). -/
def Val.eqv (a b : Val) : Bool := !a.isNan && !b.isNan && !a.lt b && !b.lt a

/-! ### FP32 arithmetic: one rounding to nearest even (02 R57) -/

/-- The value of an FP32 code. -/
def dec32 (a : Nat) : Val := fp32.decode a

/-- A value as FP32, rounding to nearest even. -/
def enc32 (v : Val) : Nat := (fp32.encode .rne false 0 v).1

/-- Counts of a floating result: NaN from no NaN operand, infinity from finite operands (02 R71). -/
def cntOf (ops : List Val) (r : Nat) : Cnt :=
  match dec32 r with
  | .nan => if ops.any Val.isNan then {} else { nans := 1 }
  | .inf _ => if ops.all Val.isFin then { infs := 1 } else {}
  | _ => {}

def fadd (a b : Nat) : Nat := enc32 (Val.sum [dec32 a, dec32 b])
def fsub (a b : Nat) : Nat := enc32 (Val.sum [dec32 a, (dec32 b).negate])
def fmul (a b : Nat) : Nat := enc32 ((dec32 a).mul (dec32 b))
def ffma (a b c : Nat) : Nat := enc32 (Val.sum [(dec32 a).mul (dec32 b), dec32 c])

/-- Sign inverted exactly; NaN gives the canonical NaN (02 R569 NEG). -/
def fneg (a : Nat) : Nat := enc32 (dec32 a).negate

/-- Sign cleared exactly; NaN gives the canonical NaN (02 R569 ABS). -/
def fabs (a : Nat) : Nat := match dec32 a with | .nan => nan32 | _ => a % 2 ^ 31

/-- Quotient num / den × 2^e with a sticky bit: exact for one rounding to at most 60 bits. -/
def divSticky (neg : Bool) (num den : Nat) (e : Int) : Val :=
  let k := 80 + (log2 den)
  let q := num * 2 ^ k / den
  let s := if num * 2 ^ k % den = 0 then 0 else 1
  .fin neg (2 * q + s) (e - k - 1)

/-- The quotient of two values (IEEE 754 division). -/
def Val.div (a b : Val) : Val :=
  match a, b with
  | .nan, _ => .nan
  | _, .nan => .nan
  | .inf _, .inf _ => .nan
  | .inf s, .fin t _ _ => .inf (s != t)
  | .fin s _ _, .inf t => .fin (s != t) 0 0
  | .fin s m e, .fin t n f =>
    if n = 0 then (if m = 0 then .nan else .inf (s != t))
    else if m = 0 then .fin (s != t) 0 0
    else divSticky (s != t) m n (e - f)

def fdiv (a b : Nat) : Nat := enc32 ((dec32 a).div (dec32 b))
/-- The FP32 code of 1. -/
abbrev one32 : Nat := 0x3F800000
def frcp (a : Nat) : Nat := fdiv one32 a

/-- Integer square root of n < 4^k, bit by bit from bit k − 1. -/
def isqrt : Nat → Nat → Nat → Nat
  | 0, _, r => r
  | k + 1, n, r => let c := r + 2 ^ k; isqrt k n (if c * c ≤ n then c else r)

/-- The square root of a value, with a sticky bit. -/
def Val.sqrt : Val → Val
  | .nan => .nan
  | .inf s => if s then .nan else .inf false
  | .fin s m e =>
    if m = 0 then .fin s 0 0
    else if s then .nan
    else
      let m' := if e % 2 = 0 then m * 2 ^ 80 else m * 2 ^ 81
      let e' := if e % 2 = 0 then e - 80 else e - 81
      let q := isqrt (log2 m' / 2 + 1) m' 0
      .fin false (2 * q + (if q * q = m' then 0 else 1)) (e' / 2 - 1)

/-- The reciprocal square root of a value, with a sticky bit; of ±0 it is ±infinity (IEEE 754 rSqrt). -/
def Val.rsqrt : Val → Val
  | .nan => .nan
  | .inf s => if s then .nan else .fin false 0 0
  | .fin s m e =>
    if m = 0 then .inf s
    else if s then .nan
    else
      let m' := if e % 2 = 0 then m else 2 * m
      let e' := if e % 2 = 0 then e else e - 1
      let k := 80 + log2 m'
      let q := isqrt (k + 1) (2 ^ (2 * k) / m') 0
      .fin false (2 * q + (if q * q * m' = 2 ^ (2 * k) then 0 else 1)) (-(e' / 2) - k - 1)

def fsqrt (a : Nat) : Nat := enc32 (dec32 a).sqrt
def frsqrt (a : Nat) : Nat := enc32 (dec32 a).rsqrt

/-- Binary places of the fixed-point work of EXP2 and LOG2 (log entry 15). -/
abbrev fxBits : Nat := 320

/-- ln 2 × 2^320, rounded down. -/
def fxLn2 : Nat := 1480553391661173448385607439722553250922680800745876974795605978609098082859138712941075737848984

/-- Σ t^k / k! in fixed point: `term` is the current term, `k` the next divisor. -/
def fxExp : Nat → Nat → Nat → Nat → Nat
  | 0, _, _, _ => 0
  | n + 1, t, term, k => term + fxExp n t (term * t / 2 ^ fxBits / k) (k + 1)

/-- Two to the power of a value, correctly rounded by one final rounding (02 R57; log entry 15). -/
def Val.exp2 : Val → Val
  | .nan => .nan
  | .inf s => if s then .fin false 0 0 else .inf false
  | .fin s m e =>
    if m = 0 then .fin false 1 0
    else if decide ((log2 m : Int) + e ≥ 9) then
      (if s then .fin false 1 (-400) else .fin false 1 400)
    else
      let x := (Val.fin s m e).scaled (min e (-(fxBits : Int)))
      let q : Int := (2 : Int) ^ ((-(min e (-(fxBits : Int)))).toNat)
      let n := x / q
      let f := x % q
      if f = 0 then .fin false 1 n
      else
        let fx := (f * 2 ^ fxBits / q).toNat
        let y := fxExp 90 (fx * fxLn2 / 2 ^ fxBits) (2 ^ fxBits) 1
        .fin false (2 * y + 1) (n - fxBits - 1)

/-- Σ z^(2k+1) / (2k+1) in fixed point. -/
def fxAtanh : Nat → Nat → Nat → Nat → Nat
  | 0, _, _, _ => 0
  | n + 1, z2, p, k => p / k + fxAtanh n z2 (p * z2 / 2 ^ fxBits) (k + 2)

/-- Base-2 logarithm of a value, by one final rounding (02 R57; log entry 15). Of ±0 it is −infinity (IEEE 754 log2). -/
def Val.log2v : Val → Val
  | .nan => .nan
  | .inf s => if s then .nan else .inf false
  | .fin s m e =>
    if m = 0 then .inf true
    else if s then .nan
    else
      let l := log2 m
      let n : Int := (l : Int) + e
      if m = 2 ^ l then Val.ofInt false n 0
      else
        let z := (m - 2 ^ l) * 2 ^ fxBits / (m + 2 ^ l)
        let ln := 2 * fxAtanh 120 (z * z / 2 ^ fxBits) z 1
        let y : Int := n * 2 ^ fxBits + (ln * 2 ^ fxBits / fxLn2 : Nat)
        Val.ofInt false (2 * y + 1) (-(fxBits : Int) - 1)

def fexp2 (a : Nat) : Nat := enc32 (dec32 a).exp2
def flog2 (a : Nat) : Nat := enc32 (dec32 a).log2v

/-- Minimum under 02 R58. -/
def fmin (a b : Nat) : Nat :=
  let x := dec32 a; let y := dec32 b
  if x.isNan || y.isNan then nan32
  else if x.lt y then a else if y.lt x then b
  else if x.neg? then a else b

/-- Maximum under 02 R58. -/
def fmax (a b : Nat) : Nat :=
  let x := dec32 a; let y := dec32 b
  if x.isNan || y.isNan then nan32
  else if x.lt y then b else if y.lt x then a
  else if x.neg? then b else a

/-- FP32 truncated to BF16, held in FP32 (02 R72, R569 TRUNC16). -/
def trunc16 (a : Nat) : Nat := match dec32 a with | .nan => nan32 | _ => a / 65536 * 65536

/-- The exact remainder after TRUNC16 (02 R569 LO16). -/
def lo16 (a : Nat) : Nat := if (dec32 a).isFin then fsub a (trunc16 a) else 0

/-! ### Integers -/

/-- Smallest and largest value of an integer format (02 R46). -/
def intRange (f : Nat) : Int × Int :=
  match f with
  | 9 => (-2147483648, 2147483647)
  | 10 => (-32768, 32767)
  | 11 => (-128, 127)
  | 12 => (-8, 7)
  | 13 => (0, 4294967295)
  | _ => (0, 255)

/-- The format is an integer format. -/
def fmtIsInt (f : Nat) : Bool := decide (9 ≤ f && f ≤ 14)

/-- An integer code's value (02 R46). -/
def decInt (f code : Nat) : Int :=
  if f = fmtUINT32 || f = fmtUINT8 then ((code % 2 ^ fmtBits f : Nat) : Int) else signed (fmtBits f) code

/-- An integer into an integer format, saturating (02 R69). -/
def encInt (f : Nat) (i : Int) : Nat × Cnt :=
  let (lo, hi) := intRange f
  if i < lo then (unsigned (fmtBits f) lo, { sats := 1 })
  else if hi < i then (unsigned (fmtBits f) hi, { sats := 1 })
  else (unsigned (fmtBits f) i, {})

/-- The magnitude of a finite value rounded to an integer. -/
def roundMagInt (mode : Rnd) (r m : Nat) (e : Int) : Nat :=
  let (n, rem, k) := shiftSplit m e
  roundInt mode r n rem k

/-- A floating value into an integer format (02 R68). -/
def valToInt (f : Nat) (mode : Rnd) (r : Nat) (v : Val) : Nat × Cnt :=
  let (lo, hi) := intRange f
  match v with
  | .nan => (0, { repl := 1 })
  | .inf s => (unsigned (fmtBits f) (if s then lo else hi), { sats := 1 })
  | .fin s m e =>
    let n : Int := roundMagInt mode r m e
    encInt f (if s then -n else n)

/-- The value of an element code of any format but E8M0; an INT8 element of an MX block is n × 2^−6 (02 R48). -/
def decodeElem (f : Nat) (mx : Bool) (code : Nat) : Val :=
  match fpFmt f with
  | some t => t.decode code
  | none => Val.ofInt false (decInt f code) (if mx then -6 else 0)

/-- The value of an E8M0 code (02 R47). -/
def decodeScale (e : Nat) : Val := if e = 0xFF then .nan else .fin false 1 ((e : Int) - 127)

/-- An element of a block with scale code `sc` (02 R48). -/
def decodeMx (f sc code : Nat) : Val := if sc = 0xFF then .nan else (decodeElem f true code).mul (decodeScale sc)

/-- FP32 to E8M0 (02 R70), with its counts. -/
def toE8M0 (v : Val) : Nat × Cnt :=
  match v with
  | .nan => (0xFF, {})
  | .inf _ => (0xFF, { nans := 1 })
  | .fin _ m e =>
    if m = 0 then (0, { sats := 1 })
    else
      let x := (log2 m : Int) + e
      if x < -127 then (0, { sats := 1 }) else if 127 < x then (254, { sats := 1 }) else ((x + 127).toNat, {})

/-! ### Block scaling (02 R50) -/

/-- The exponent m of the largest magnitude of an MX element type (02 R50 step 4). -/
def mxMaxExp (f : Nat) : Int := match f with | 3 => 8 | 4 => 15 | 5 => 4 | 6 => 2 | 7 => 2 | _ => 0

/-- floor(log2) of the largest magnitude of a list of finite values; none when all are zero. -/
def maxExp (l : List Val) : Option Int :=
  l.foldl (fun a v => match v with
    | .fin _ m e => if m = 0 then a else
        let x := (log2 m : Int) + e
        match a with | none => some x | some y => some (max x y)
    | _ => a) none

/-- One element of a block: the source divided by 2^s, rounded, saturating to the element type (02 R50 step 5). -/
def mxElem (f : Nat) (mode : Rnd) (r : Nat) (s : Int) (v : Val) : Nat × Cnt :=
  match v with
  | .fin neg m e =>
    match fpFmt f with
    | some t => t.encode mode true r (.fin neg m (e - s))
    | none =>
      let n : Int := roundMagInt mode r m (e - s + 6)
      encInt fmtINT8 (if neg then -n else n)
  | _ => (0, {})

/-- A block of source values (with their draws) into scale code and element codes (02 R50). -/
def mxBlock (f : Nat) (mode : Rnd) (l : List (Val × Nat)) : Nat × List Nat × Cnt :=
  let vs := l.map Prod.fst
  if vs.any (fun v => !v.isFin) then (0xFF, l.map (fun _ => 0), {})
  else match maxExp vs with
  | none => (0, vs.map (fun v => match fpFmt f with | some t => t.sign v.neg? | none => 0), {})
  | some x =>
    let s := max (-127) (min 127 (x - mxMaxExp f))
    let es := l.map (fun p => mxElem f mode p.2 s p.1)
    ((s + 127).toNat, es.map Prod.fst, Cnt.sum (es.map Prod.snd))

/-! ### The stochastic generator (02 R63) -/

/-- One round of Philox4x32 on a counter and a key. -/
def philoxRound (c : Nat × Nat × Nat × Nat) (k : Nat × Nat) : Nat × Nat × Nat × Nat :=
  let (c0, c1, c2, c3) := c
  let p := 0xD2511F53 * c0
  let q := 0xCD9E8D57 * c2
  ((q / 2 ^ 32) ^^^ c1 ^^^ k.1, q % 2 ^ 32, (p / 2 ^ 32) ^^^ c3 ^^^ k.2, p % 2 ^ 32)

/-- `n` rounds, the key stepping between them. -/
def philoxRounds : Nat → Nat × Nat × Nat × Nat → Nat × Nat → Nat × Nat × Nat × Nat
  | 0, c, _ => c
  | n + 1, c, k => philoxRounds n (philoxRound c k) ((k.1 + 0x9E3779B9) % 2 ^ 32, (k.2 + 0xBB67AE85) % 2 ^ 32)

/-- The draw of an element: seed, tensor ID, element index, step (02 R63, R64). -/
def draw (seed tensor index t : Nat) : Nat :=
  (philoxRounds 10 (index % 2 ^ 32, index / 2 ^ 32 % 2 ^ 16, tensor % 2 ^ 32, t % 2 ^ 32)
    (seed % 2 ^ 32, seed / 2 ^ 32 % 2 ^ 32)).1

/-! ### Acceptance (02 R51, R52) -/

/-- Formats a lane row takes as operands. -/
def laneOperand (f : Nat) : Bool := (1 ≤ f && f ≤ 7) || f = fmtINT8 || f = fmtINT4 || f = fmtUINT8
/-- Formats a lane row drains to. -/
def laneDrain (f : Nat) : Bool := f = fmtFP32 || f = fmtBF16 || f = fmtFP16 || f = fmtINT32
/-- The six MX element types (02 R48). -/
def mxType (f : Nat) : Bool := (3 ≤ f && f ≤ 7) || f = fmtINT8
/-- Formats the vector engine takes. -/
def vecFormat (f : Nat) : Bool := f ≤ 14
/-- Formats of awl sums (02 R51). -/
def awlSumFormat (f : Nat) : Bool := f = fmtFP32 || f = fmtBF16 || f = fmtFP16
/-- Gradient and state reads of the update engine. -/
def updRead (f : Nat) : Bool := f ≤ 4
/-- State writes of the update engine. -/
def updWrite (f : Nat) : Bool := f ≤ 4
/-- The product is of the integer class: the format has no scales and is an integer (02 R52). -/
def intClass (f : Nat) (mx : Bool) : Bool := fmtIsInt f && !mx

end Sys2Proof.Machine
end

