-- ==== Sys2Proof/Machine/Hashes.lean ====
section
/-! DEFINITION. The codes and digests the chapters name: CRC-32C (06 R191, 15 R399), CRC-32 of Ethernet (14 R384),
CRC-64 of granules (12 R344), the PEC of SMBus (22 R559) and SHAKE256 (03 R108, 16 R443, 19). -/

namespace Sys2Proof.Machine

/-- One bit of a reflected CRC. -/
def crcStepR (poly c : Nat) : Nat := if c % 2 = 1 then (c / 2) ^^^ poly else c / 2

/-- `n` bits of a reflected CRC. -/
def crcBitsR (poly : Nat) : Nat → Nat → Nat
  | 0, c => c
  | n + 1, c => crcBitsR poly n (crcStepR poly c)

/-- A reflected CRC over bytes, from a start value. -/
def crcR (poly start : Nat) (l : List Byte) : Nat :=
  l.foldl (fun c b => crcBitsR poly 8 (c ^^^ b.toNat)) start

/-- One bit of a CRC of width `w` that is not reflected. -/
def crcStepF (w poly c : Nat) : Nat :=
  if c.testBit (w - 1) then ((c * 2) % 2 ^ w) ^^^ poly else (c * 2) % 2 ^ w

/-- `n` bits of a CRC that is not reflected. -/
def crcBitsF (w poly : Nat) : Nat → Nat → Nat
  | 0, c => c
  | n + 1, c => crcBitsF w poly n (crcStepF w poly c)

/-- A CRC of width `w` that is not reflected, over bytes, from a start value. -/
def crcF (w poly start : Nat) (l : List Byte) : Nat :=
  l.foldl (fun c b => crcBitsF w poly 8 (c ^^^ (b.toNat * 2 ^ (w - 8)))) start

/-- CRC-32C with a start value and a final inversion (15 R399). -/
def crc32c (start : Nat) (l : List Byte) : Nat := crcR 0x82F63B78 start l ^^^ 0xFFFFFFFF

/-- The CRC-32 of an Ethernet frame (14 R384). -/
def crcEth (l : List Byte) : Nat := crcR 0xEDB88320 0xFFFFFFFF l ^^^ 0xFFFFFFFF

/-- CRC-64 of ECMA-182 from a start value, no inversion (12 R344). -/
def crc64 (start : Nat) (l : List Byte) : Nat := crcF 64 0x42F0E1EBA9EA3693 start l

/-- The SMBus packet error code (22 R559). -/
def pec (l : List Byte) : Nat := crcF 8 0x07 0 l

/-! ### SHAKE256 (FIPS 202): a state is five planes of five lanes, plane y and lane x; the constants are formed as the
standard forms them -/

/-- Lanes of two planes, one with the other. -/
def xorPlane (p q : List W64) : List W64 := List.zipWith (fun x y => x ^^^ y) p q

/-- A plane turned so that lane x takes the place of lane 0. -/
def turn (x : Nat) (p : List W64) : List W64 := p.drop x ++ p.take x

/-- theta: every lane takes the parities of the column before it and, turned by one bit, of the column after it. -/
def thetaStep (s : List (List W64)) : List (List W64) :=
  let parity := s.foldl xorPlane (List.replicate 5 0)
  s.map (xorPlane (xorPlane (turn 4 parity) ((turn 1 parity).map (·.rotateLeft 1))))

/-- The walk of rho over the lanes from (1, 0): the lane of step t turns by (t + 1)(t + 2) / 2. -/
def rhoWalk : Nat → Nat → Nat → Nat → List ((Nat × Nat) × Nat)
  | 0, _, _, _ => []
  | n + 1, t, x, y => ((x, y), (t + 1) * (t + 2) / 2 % 64) :: rhoWalk n (t + 1) y ((2 * x + 3 * y) % 5)

/-- The turns of the lanes, by plane. -/
def rhoTurns : List (List Nat) :=
  let walk := rhoWalk 24 0 1 0
  (List.range 5).map (fun y => (List.range 5).map (fun x => ((walk.find? (fun p => p.1 = (x, y))).map Prod.snd).getD 0))

/-- rho, then pi: the lane at (x, y) goes to (y, 2x + 3y). -/
def rhoPiStep (s : List (List W64)) : List (List W64) :=
  let r := List.zipWith (List.zipWith (fun w n => w.rotateLeft n)) s rhoTurns
  (List.range 5).map (fun y => (List.range 5).map (fun x => (r.getD x []).getD ((x + 3 * y) % 5) 0))

/-- chi: every lane takes the two lanes after it in its plane. -/
def chiStep (s : List (List W64)) : List (List W64) :=
  s.map (fun p => xorPlane p (List.zipWith (fun a c => ~~~a &&& c) (turn 1 p) (turn 2 p)))

/-- The bits of iota, from the shift register with polynomial x^8 + x^6 + x^5 + x^4 + 1. -/
def iotaBits : Nat → Nat → List Bool
  | 0, _ => []
  | n + 1, r => r.testBit 0 :: iotaBits n (if 128 ≤ r then (2 * r) ^^^ 0x171 else 2 * r)

/-- The constant of a round from its seven bits: bit j of them is bit 2^j − 1. -/
def iotaWord (l : List Bool) : W64 := l.zipIdx.foldl (fun w p => if p.1 then w ^^^ (1#64 <<< (2 ^ p.2 - 1)) else w) 0

/-- The constants of the 24 rounds. -/
def iotaWords : List W64 := (List.range 24).map (fun i => iotaWord (((iotaBits 168 1).drop (7 * i)).take 7))

/-- One round: theta, rho, pi, chi, iota. -/
def keccakRound (s : List (List W64)) (c : W64) : List (List W64) :=
  (chiStep (rhoPiStep (thetaStep s))).modifyHead (fun p => p.modifyHead (· ^^^ c))

/-- The 25 lanes of a state as words, and words as a state. -/
def toPlanes (l : List W64) : List (List W64) := chunk 5 5 l

/-- A block of 136 bytes is absorbed: the 17 words of the rate change, then the 24 rounds. -/
def keccakAbsorb (s : List (List W64)) (block : List Byte) : List (List W64) :=
  iotaWords.foldl keccakRound (List.zipWith xorPlane s (toPlanes (bytesWords 17 block ++ List.replicate 8 0)))

/-- The last block of a message, padded for SHAKE. -/
def shakePad (l : List Byte) : List Byte :=
  if l.length = 135 then l ++ [0x9F]
  else l ++ [0x1F] ++ List.replicate (134 - l.length) 0 ++ [0x80]

/-- The first `n` ≤ 136 bytes of SHAKE256 over a message. -/
def shake256 (n : Nat) (msg : List Byte) : List Byte :=
  let full := msg.length / 136
  let s := (chunk 136 full msg).foldl keccakAbsorb (toPlanes (List.replicate 25 0))
  ((keccakAbsorb s (shakePad (msg.drop (136 * full)))).flatten.flatMap wordBytes).take n

end Sys2Proof.Machine
end

