-- ==== Sys2Proof/Machine/Catalogue.lean ====
section
/-! DEFINITION. The registers of device control space: every register the chapters lay out, its fields, their access
codes, update classes and reset values (00 R13 to R20), and the address of every field. -/

namespace Sys2Proof.Machine

/-- Access codes (00 R13); a Reserved field is not listed. -/
inductive Acc where | ro | rw | w1c
  deriving DecidableEq, Repr

/-- Update classes (00 R17). -/
inductive Cls where | none | l | s | k
  deriving DecidableEq, Repr

/-- The three kinds of register block (08 R249). -/
inductive Area where | hub | bench | floor
  deriving DecidableEq, Repr

/-- When a register returns to its reset value: at reset only, at job load too, or at power-up only. -/
inductive Clear where | reset | job | powerUp
  deriving DecidableEq, Repr

/-- What makes the block of a class K field busy (00 R19 and the register's own rule). -/
inductive Busy where | never | job | bench | location | group | form | stepSlot
  deriving DecidableEq, Repr

/-- One field of a register. -/
structure FieldDesc where
  name : String
  hi : Nat
  lo : Nat
  acc : Acc
  cls : Cls
  reset : Nat
  deriving DecidableEq, Repr

/-- One register, or one array of them: `reps` gives each index's stride and count. -/
structure RegDesc where
  name : String
  area : Area
  off : Nat
  reps : List (Nat × Nat)
  clear : Clear
  busy : Busy
  fields : List FieldDesc
  deriving DecidableEq, Repr

/-- A field of one register, by its address and bits. -/
structure Fld where
  addr : Nat
  hi : Nat
  lo : Nat
  deriving DecidableEq, Repr

/-- First address of bench b's block (03 R109). -/
def benchBase (b : Nat) : Nat := 0xFF01000000 + 0x10000 * b

/-- First address of floor k's block (10 R307). -/
def floorBase (k : Nat) : Nat := 0xFF02000000 + 0x10000 * k

/-- The block of a location: bench 0 to 143, floor 144 to 151, hub 152 (17 R484). -/
def locBase (loc : Nat) : Nat :=
  if loc < 144 then benchBase loc else if loc < 152 then floorBase (loc - 144) else 0xFF00000000

/-- The block of channel `ch` of a location (09 R289). -/
def chanBase (loc ch : Nat) : Nat := locBase loc + (if loc = 152 then 0x3000 else 0x600) + 32 * ch

/-- Address of LR_WIDTH (03 R109). -/
abbrev Reg.LR_WIDTH (b : Nat) : Nat := benchBase b + 0x200
abbrev Reg.LR_WIDTH_UNIFORM_EN (b : Nat) : Fld := ⟨Reg.LR_WIDTH b, 26, 26⟩
abbrev Reg.LR_WIDTH_UNIFORM_WIDTH (b : Nat) : Fld := ⟨Reg.LR_WIDTH b, 25, 17⟩
abbrev Reg.LR_WIDTH_BYPASS_COUNT (b : Nat) : Fld := ⟨Reg.LR_WIDTH b, 16, 12⟩
abbrev Reg.LR_WIDTH_PRESENTED_WIDTH (b : Nat) : Fld := ⟨Reg.LR_WIDTH b, 8, 0⟩
/-- Address of LR_BYPASS (03 R109). -/
abbrev Reg.LR_BYPASS (b i : Nat) : Nat := benchBase b + 0x220 + 8 * i
abbrev Reg.LR_BYPASS_BYPASS_MAP (b i : Nat) : Fld := ⟨Reg.LR_BYPASS b i, 63, 0⟩
/-- Address of LR_COUNT0 (03 R109). -/
abbrev Reg.LR_COUNT0 (b : Nat) : Nat := benchBase b + 0x240
abbrev Reg.LR_COUNT0_STREAM_BUBBLES (b : Nat) : Fld := ⟨Reg.LR_COUNT0 b, 63, 32⟩
abbrev Reg.LR_COUNT0_LOAD_BUBBLES (b : Nat) : Fld := ⟨Reg.LR_COUNT0 b, 31, 0⟩
/-- Address of LR_COUNT1 (03 R109). -/
abbrev Reg.LR_COUNT1 (b : Nat) : Nat := benchBase b + 0x248
abbrev Reg.LR_COUNT1_DRAIN_BUBBLES (b : Nat) : Fld := ⟨Reg.LR_COUNT1 b, 63, 32⟩
abbrev Reg.LR_COUNT1_BATCH_TIMEOUTS (b : Nat) : Fld := ⟨Reg.LR_COUNT1 b, 31, 16⟩
abbrev Reg.LR_COUNT1_BATCH_FULL (b : Nat) : Fld := ⟨Reg.LR_COUNT1 b, 15, 0⟩
/-- Address of AWL_COUNT0 (04 R152). -/
abbrev Reg.AWL_COUNT0 (b : Nat) : Nat := benchBase b + 0x300
abbrev Reg.AWL_COUNT0_CODE_CYCLES (b : Nat) : Fld := ⟨Reg.AWL_COUNT0 b, 63, 32⟩
abbrev Reg.AWL_COUNT0_PACKETS (b : Nat) : Fld := ⟨Reg.AWL_COUNT0 b, 31, 0⟩
/-- Address of AWL_COUNT1 (04 R152). -/
abbrev Reg.AWL_COUNT1 (b : Nat) : Nat := benchBase b + 0x308
abbrev Reg.AWL_COUNT1_OVERRUNS (b : Nat) : Fld := ⟨Reg.AWL_COUNT1 b, 63, 48⟩
abbrev Reg.AWL_COUNT1_TILE_ERRORS (b : Nat) : Fld := ⟨Reg.AWL_COUNT1 b, 47, 32⟩
abbrev Reg.AWL_COUNT1_MASK_DROPS (b : Nat) : Fld := ⟨Reg.AWL_COUNT1 b, 31, 0⟩
/-- Address of AWL_LAST_OVERRUN (04 R152). -/
abbrev Reg.AWL_LAST_OVERRUN (b : Nat) : Nat := benchBase b + 0x310
abbrev Reg.AWL_LAST_OVERRUN_RECORD_ID (b : Nat) : Fld := ⟨Reg.AWL_LAST_OVERRUN b, 63, 48⟩
abbrev Reg.AWL_LAST_OVERRUN_SLIP_REQUESTED (b : Nat) : Fld := ⟨Reg.AWL_LAST_OVERRUN b, 47, 32⟩
/-- Address of LAYOUT_COUNT0 (06 R198). -/
abbrev Reg.LAYOUT_COUNT0 (b : Nat) : Nat := benchBase b + 0x380
abbrev Reg.LAYOUT_COUNT0_OOB_READS (b : Nat) : Fld := ⟨Reg.LAYOUT_COUNT0 b, 63, 32⟩
abbrev Reg.LAYOUT_COUNT0_OOB_WRITES (b : Nat) : Fld := ⟨Reg.LAYOUT_COUNT0 b, 31, 0⟩
/-- Address of LAYOUT_COUNT1 (06 R198). -/
abbrev Reg.LAYOUT_COUNT1 (b : Nat) : Nat := benchBase b + 0x388
abbrev Reg.LAYOUT_COUNT1_INDEX_NEGATIVE (b : Nat) : Fld := ⟨Reg.LAYOUT_COUNT1 b, 63, 32⟩
abbrev Reg.LAYOUT_COUNT1_INDEX_HIGH (b : Nat) : Fld := ⟨Reg.LAYOUT_COUNT1 b, 31, 0⟩
/-- Address of LAYOUT_COUNT2 (06 R198). -/
abbrev Reg.LAYOUT_COUNT2 (b : Nat) : Nat := benchBase b + 0x390
abbrev Reg.LAYOUT_COUNT2_REBLOCKS (b : Nat) : Fld := ⟨Reg.LAYOUT_COUNT2 b, 63, 32⟩
/-- Address of SP_CTRL (07 R235). -/
abbrev Reg.SP_CTRL (b : Nat) : Nat := benchBase b + 0x400
abbrev Reg.SP_CTRL_STRICT (b : Nat) : Fld := ⟨Reg.SP_CTRL b, 35, 35⟩
abbrev Reg.SP_CTRL_MERGE_EN (b : Nat) : Fld := ⟨Reg.SP_CTRL b, 34, 34⟩
abbrev Reg.SP_CTRL_SCRUB_EN (b : Nat) : Fld := ⟨Reg.SP_CTRL b, 33, 33⟩
abbrev Reg.SP_CTRL_SCRUB_INTERVAL (b : Nat) : Fld := ⟨Reg.SP_CTRL b, 32, 29⟩
abbrev Reg.SP_CTRL_SLOT_TIMEOUT (b : Nat) : Fld := ⟨Reg.SP_CTRL b, 15, 0⟩
/-- Address of SP_CONFLICT0 (07 R235). -/
abbrev Reg.SP_CONFLICT0 (b : Nat) : Nat := benchBase b + 0x410
abbrev Reg.SP_CONFLICT0_STREAM_WAITS (b : Nat) : Fld := ⟨Reg.SP_CONFLICT0 b, 63, 32⟩
abbrev Reg.SP_CONFLICT0_STATIONARY_WAITS (b : Nat) : Fld := ⟨Reg.SP_CONFLICT0 b, 31, 0⟩
/-- Address of SP_CONFLICT1 (07 R235). -/
abbrev Reg.SP_CONFLICT1 (b : Nat) : Nat := benchBase b + 0x418
abbrev Reg.SP_CONFLICT1_DRAIN_WAITS (b : Nat) : Fld := ⟨Reg.SP_CONFLICT1 b, 63, 32⟩
abbrev Reg.SP_CONFLICT1_DMA_WAITS (b : Nat) : Fld := ⟨Reg.SP_CONFLICT1 b, 31, 0⟩
/-- Address of SP_CONFLICT2 (07 R235). -/
abbrev Reg.SP_CONFLICT2 (b : Nat) : Nat := benchBase b + 0x420
abbrev Reg.SP_CONFLICT2_AWL_WAITS (b : Nat) : Fld := ⟨Reg.SP_CONFLICT2 b, 63, 32⟩
abbrev Reg.SP_CONFLICT2_VECTOR_WAITS (b : Nat) : Fld := ⟨Reg.SP_CONFLICT2 b, 31, 0⟩
/-- Address of SP_TAG (07 R235). -/
abbrev Reg.SP_TAG (b : Nat) : Nat := benchBase b + 0x428
abbrev Reg.SP_TAG_TAG_WAIT_CYCLES (b : Nat) : Fld := ⟨Reg.SP_TAG b, 63, 32⟩
abbrev Reg.SP_TAG_TIMEOUTS (b : Nat) : Fld := ⟨Reg.SP_TAG b, 31, 16⟩
abbrev Reg.SP_TAG_TAG_CORRECTED (b : Nat) : Fld := ⟨Reg.SP_TAG b, 15, 0⟩
/-- Address of SP_ECC (07 R235). -/
abbrev Reg.SP_ECC (b : Nat) : Nat := benchBase b + 0x430
abbrev Reg.SP_ECC_CORRECTED (b : Nat) : Fld := ⟨Reg.SP_ECC b, 63, 32⟩
abbrev Reg.SP_ECC_UNCORRECTABLE (b : Nat) : Fld := ⟨Reg.SP_ECC b, 31, 0⟩
/-- Address of SP_SCRUB (07 R235). -/
abbrev Reg.SP_SCRUB (b : Nat) : Nat := benchBase b + 0x438
abbrev Reg.SP_SCRUB_PASSES (b : Nat) : Fld := ⟨Reg.SP_SCRUB b, 63, 32⟩
abbrev Reg.SP_SCRUB_WRITEBACKS (b : Nat) : Fld := ⟨Reg.SP_SCRUB b, 31, 0⟩
/-- Address of SP_MERGE (07 R235). -/
abbrev Reg.SP_MERGE (b : Nat) : Nat := benchBase b + 0x440
abbrev Reg.SP_MERGE_BURSTS_MERGED (b : Nat) : Fld := ⟨Reg.SP_MERGE b, 63, 32⟩
abbrev Reg.SP_MERGE_WINDOWS (b : Nat) : Fld := ⟨Reg.SP_MERGE b, 31, 0⟩
/-- Address of SP_LAST_FAULT (07 R235). -/
abbrev Reg.SP_LAST_FAULT (b : Nat) : Nat := benchBase b + 0x448
abbrev Reg.SP_LAST_FAULT_KIND (b : Nat) : Fld := ⟨Reg.SP_LAST_FAULT b, 63, 60⟩
abbrev Reg.SP_LAST_FAULT_PORT (b : Nat) : Fld := ⟨Reg.SP_LAST_FAULT b, 59, 57⟩
abbrev Reg.SP_LAST_FAULT_OFFSET (b : Nat) : Fld := ⟨Reg.SP_LAST_FAULT b, 54, 32⟩
abbrev Reg.SP_LAST_FAULT_BEAT (b : Nat) : Fld := ⟨Reg.SP_LAST_FAULT b, 31, 0⟩
/-- Address of REDUCE (08 R246). -/
abbrev Reg.REDUCE (b i : Nat) : Nat := benchBase b + 0x580 + 8 * i
abbrev Reg.REDUCE_REDUCE_ID (b i : Nat) : Fld := ⟨Reg.REDUCE b i, 63, 56⟩
abbrev Reg.REDUCE_INPUT_MASK (b i : Nat) : Fld := ⟨Reg.REDUCE b i, 55, 48⟩
abbrev Reg.REDUCE_ORDER (b i : Nat) : Fld := ⟨Reg.REDUCE b i, 47, 24⟩
abbrev Reg.REDUCE_OUT_PORT (b i : Nat) : Fld := ⟨Reg.REDUCE b i, 23, 21⟩
abbrev Reg.REDUCE_VALID (b i : Nat) : Fld := ⟨Reg.REDUCE b i, 20, 20⟩
/-- Address of NET_COUNT (08 R260). -/
abbrev Reg.NET_COUNT (b : Nat) : Nat := benchBase b + 0x500
abbrev Reg.NET_COUNT_LINK_REPLAYS (b : Nat) : Fld := ⟨Reg.NET_COUNT b, 63, 32⟩
abbrev Reg.NET_COUNT_REDUCE_FAULTS (b : Nat) : Fld := ⟨Reg.NET_COUNT b, 31, 16⟩
abbrev Reg.NET_COUNT_MULTICAST_COPIES (b : Nat) : Fld := ⟨Reg.NET_COUNT b, 15, 0⟩
/-- Address of SYNC_CTRL (08 R260). -/
abbrev Reg.SYNC_CTRL : Nat := 0xFF00002000
abbrev Reg.SYNC_CTRL_REDUCE_TIMEOUT : Fld := ⟨Reg.SYNC_CTRL, 31, 16⟩
abbrev Reg.SYNC_CTRL_FENCE_LATE_LIMIT : Fld := ⟨Reg.SYNC_CTRL, 15, 0⟩
/-- Address of SYNC_BEAT (08 R260). -/
abbrev Reg.SYNC_BEAT : Nat := 0xFF00002008
abbrev Reg.SYNC_BEAT_BEAT : Fld := ⟨Reg.SYNC_BEAT, 63, 0⟩
/-- Address of SYNC_COUNT (08 R260). -/
abbrev Reg.SYNC_COUNT : Nat := 0xFF00002010
abbrev Reg.SYNC_COUNT_LATE_FENCES : Fld := ⟨Reg.SYNC_COUNT, 63, 32⟩
abbrev Reg.SYNC_COUNT_SLIPS : Fld := ⟨Reg.SYNC_COUNT, 31, 0⟩
/-- Address of CH_STATE (09 R289). -/
abbrev Reg.CH_STATE (loc ch : Nat) : Nat := chanBase loc ch + 0x0
abbrev Reg.CH_STATE_STATE (loc ch : Nat) : Fld := ⟨Reg.CH_STATE loc ch, 63, 60⟩
abbrev Reg.CH_STATE_STOP_CAUSE (loc ch : Nat) : Fld := ⟨Reg.CH_STATE loc ch, 59, 56⟩
abbrev Reg.CH_STATE_RECORD_ID (loc ch : Nat) : Fld := ⟨Reg.CH_STATE loc ch, 55, 40⟩
abbrev Reg.CH_STATE_PROGRESS (loc ch : Nat) : Fld := ⟨Reg.CH_STATE loc ch, 39, 0⟩
/-- Address of CH_DONE_MASK (09 R289). -/
abbrev Reg.CH_DONE_MASK (loc ch : Nat) : Nat := chanBase loc ch + 0x8
abbrev Reg.CH_DONE_MASK_DONE_MASK (loc ch : Nat) : Fld := ⟨Reg.CH_DONE_MASK loc ch, 63, 0⟩
/-- Address of CH_CTRL (09 R289). -/
abbrev Reg.CH_CTRL (loc ch : Nat) : Nat := chanBase loc ch + 0x10
abbrev Reg.CH_CTRL_RATE_CAP (loc ch : Nat) : Fld := ⟨Reg.CH_CTRL loc ch, 5, 0⟩
/-- Address of CH_COUNT (09 R289). -/
abbrev Reg.CH_COUNT (loc ch : Nat) : Nat := chanBase loc ch + 0x18
abbrev Reg.CH_COUNT_PACE_CYCLES (loc ch : Nat) : Fld := ⟨Reg.CH_COUNT loc ch, 63, 32⟩
abbrev Reg.CH_COUNT_TALLY_REFETCHES (loc ch : Nat) : Fld := ⟨Reg.CH_COUNT loc ch, 31, 16⟩
abbrev Reg.CH_COUNT_STOPS (loc ch : Nat) : Fld := ⟨Reg.CH_COUNT loc ch, 15, 0⟩
/-- Address of DMA_CTRL (09 R290). -/
abbrev Reg.DMA_CTRL (loc : Nat) : Nat := locBase loc + (if loc = 152 then 0x3400 else 0x700)
abbrev Reg.DMA_CTRL_LIMIT_TIMEOUT (loc : Nat) : Fld := ⟨Reg.DMA_CTRL loc, 15, 0⟩
/-- Address of DMA_OOB (09 R290). -/
abbrev Reg.DMA_OOB (loc : Nat) : Nat := locBase loc + (if loc = 152 then 0x3408 else 0x708)
abbrev Reg.DMA_OOB_OOB_READS (loc : Nat) : Fld := ⟨Reg.DMA_OOB loc, 63, 32⟩
abbrev Reg.DMA_OOB_OOB_WRITES (loc : Nat) : Fld := ⟨Reg.DMA_OOB loc, 31, 0⟩
/-- Address of CELLAR_CTRL (10 R307). -/
abbrev Reg.CELLAR_CTRL (k : Nat) : Nat := floorBase k + 0x800
abbrev Reg.CELLAR_CTRL_SCRUB_EN (k : Nat) : Fld := ⟨Reg.CELLAR_CTRL k, 5, 5⟩
abbrev Reg.CELLAR_CTRL_SCRUB_INTERVAL (k : Nat) : Fld := ⟨Reg.CELLAR_CTRL k, 4, 0⟩
/-- Address of CELLAR_ECC (10 R307). -/
abbrev Reg.CELLAR_ECC (k : Nat) : Nat := floorBase k + 0x808
abbrev Reg.CELLAR_ECC_CORRECTED (k : Nat) : Fld := ⟨Reg.CELLAR_ECC k, 63, 32⟩
abbrev Reg.CELLAR_ECC_DIE_CORRECTIONS (k : Nat) : Fld := ⟨Reg.CELLAR_ECC k, 31, 16⟩
abbrev Reg.CELLAR_ECC_UNCORRECTABLE (k : Nat) : Fld := ⟨Reg.CELLAR_ECC k, 15, 0⟩
/-- Address of CELLAR_DIE (10 R307). -/
abbrev Reg.CELLAR_DIE (k : Nat) : Nat := floorBase k + 0x810
abbrev Reg.CELLAR_DIE_PASSES (k : Nat) : Fld := ⟨Reg.CELLAR_DIE k, 63, 32⟩
abbrev Reg.CELLAR_DIE_MARK_VALID (k : Nat) : Fld := ⟨Reg.CELLAR_DIE k, 4, 4⟩
abbrev Reg.CELLAR_DIE_MARKED_DIE (k : Nat) : Fld := ⟨Reg.CELLAR_DIE k, 3, 0⟩
/-- Address of ATTIC_CTRL (10 R307). -/
abbrev Reg.ATTIC_CTRL (k : Nat) : Nat := floorBase k + 0x840
abbrev Reg.ATTIC_CTRL_EN (k : Nat) : Fld := ⟨Reg.ATTIC_CTRL k, 63, 63⟩
abbrev Reg.ATTIC_CTRL_RING_LOG2 (k : Nat) : Fld := ⟨Reg.ATTIC_CTRL k, 62, 57⟩
abbrev Reg.ATTIC_CTRL_CTRL_ADDR (k : Nat) : Fld := ⟨Reg.ATTIC_CTRL k, 47, 0⟩
/-- Address of ATTIC_COUNT (10 R307). -/
abbrev Reg.ATTIC_COUNT (k : Nat) : Nat := floorBase k + 0x848
abbrev Reg.ATTIC_COUNT_STASHED (k : Nat) : Fld := ⟨Reg.ATTIC_COUNT k, 63, 32⟩
abbrev Reg.ATTIC_COUNT_DROPPED (k : Nat) : Fld := ⟨Reg.ATTIC_COUNT k, 31, 16⟩
abbrev Reg.ATTIC_COUNT_SKIPPED (k : Nat) : Fld := ⟨Reg.ATTIC_COUNT k, 15, 0⟩
/-- Address of STEP_STATE (11 R325). -/
abbrev Reg.STEP_STATE : Nat := 0xFF00004000
abbrev Reg.STEP_STATE_PHASE : Fld := ⟨Reg.STEP_STATE, 63, 60⟩
abbrev Reg.STEP_STATE_LAST_OUTCOME : Fld := ⟨Reg.STEP_STATE, 59, 58⟩
abbrev Reg.STEP_STATE_REPLAYS : Fld := ⟨Reg.STEP_STATE, 57, 48⟩
abbrev Reg.STEP_STATE_STEP : Fld := ⟨Reg.STEP_STATE, 31, 0⟩
/-- Address of SEL_COUNT (11 R325). -/
abbrev Reg.SEL_COUNT (loc : Nat) : Nat := locBase loc + 0x900
abbrev Reg.SEL_COUNT_PATH_A (loc : Nat) : Fld := ⟨Reg.SEL_COUNT loc, 63, 48⟩
abbrev Reg.SEL_COUNT_PATH_B (loc : Nat) : Fld := ⟨Reg.SEL_COUNT loc, 47, 32⟩
abbrev Reg.SEL_COUNT_PATH_C (loc : Nat) : Fld := ⟨Reg.SEL_COUNT loc, 31, 16⟩
abbrev Reg.SEL_COUNT_FORCED (loc : Nat) : Fld := ⟨Reg.SEL_COUNT loc, 15, 0⟩
/-- Address of GROUP_W0 (12 R331). -/
abbrev Reg.GROUP_W0 (i : Nat) : Nat := 0xFF00006000 + 64 * i
abbrev Reg.GROUP_W0_RULE (i : Nat) : Fld := ⟨Reg.GROUP_W0 i, 63, 60⟩
abbrev Reg.GROUP_W0_FROZEN (i : Nat) : Fld := ⟨Reg.GROUP_W0 i, 59, 59⟩
abbrev Reg.GROUP_W0_SKIP_IF_IDLE (i : Nat) : Fld := ⟨Reg.GROUP_W0 i, 58, 58⟩
abbrev Reg.GROUP_W0_NESTEROV (i : Nat) : Fld := ⟨Reg.GROUP_W0 i, 57, 57⟩
abbrev Reg.GROUP_W0_CLIP_EN (i : Nat) : Fld := ⟨Reg.GROUP_W0 i, 56, 56⟩
abbrev Reg.GROUP_W0_MASTER (i : Nat) : Fld := ⟨Reg.GROUP_W0 i, 55, 55⟩
abbrev Reg.GROUP_W0_WFMT (i : Nat) : Fld := ⟨Reg.GROUP_W0 i, 54, 51⟩
abbrev Reg.GROUP_W0_MFMT (i : Nat) : Fld := ⟨Reg.GROUP_W0 i, 50, 47⟩
abbrev Reg.GROUP_W0_VFMT (i : Nat) : Fld := ⟨Reg.GROUP_W0 i, 46, 43⟩
abbrev Reg.GROUP_W0_GFMT (i : Nat) : Fld := ⟨Reg.GROUP_W0 i, 42, 39⟩
abbrev Reg.GROUP_W0_WROUND (i : Nat) : Fld := ⟨Reg.GROUP_W0 i, 38, 37⟩
abbrev Reg.GROUP_W0_SROUND (i : Nat) : Fld := ⟨Reg.GROUP_W0 i, 36, 35⟩
abbrev Reg.GROUP_W0_SAT (i : Nat) : Fld := ⟨Reg.GROUP_W0 i, 34, 34⟩
/-- Address of GROUP_W1 (12 R331). -/
abbrev Reg.GROUP_W1 (i : Nat) : Nat := 0xFF00006008 + 64 * i
abbrev Reg.GROUP_W1_BETA1 (i : Nat) : Fld := ⟨Reg.GROUP_W1 i, 63, 32⟩
abbrev Reg.GROUP_W1_BETA2 (i : Nat) : Fld := ⟨Reg.GROUP_W1 i, 31, 0⟩
/-- Address of GROUP_W2 (12 R331). -/
abbrev Reg.GROUP_W2 (i : Nat) : Nat := 0xFF00006010 + 64 * i
abbrev Reg.GROUP_W2_EPS (i : Nat) : Fld := ⟨Reg.GROUP_W2 i, 63, 32⟩
abbrev Reg.GROUP_W2_DECAY (i : Nat) : Fld := ⟨Reg.GROUP_W2 i, 31, 0⟩
/-- Address of GROUP_W3 (12 R331). -/
abbrev Reg.GROUP_W3 (i : Nat) : Nat := 0xFF00006018 + 64 * i
abbrev Reg.GROUP_W3_CLIP (i : Nat) : Fld := ⟨Reg.GROUP_W3 i, 63, 32⟩
/-- Address of STEP_W0 (12 R333). -/
abbrev Reg.STEP_W0 (i : Nat) : Nat := 0xFF00005000 + 2048 * i
abbrev Reg.STEP_W0_T (i : Nat) : Fld := ⟨Reg.STEP_W0 i, 63, 32⟩
abbrev Reg.STEP_W0_VALID (i : Nat) : Fld := ⟨Reg.STEP_W0 i, 31, 31⟩
abbrev Reg.STEP_W0_NONFINITE_ACTION (i : Nat) : Fld := ⟨Reg.STEP_W0 i, 30, 30⟩
abbrev Reg.STEP_W0_REPLAY_LIMIT (i : Nat) : Fld := ⟨Reg.STEP_W0 i, 29, 26⟩
abbrev Reg.STEP_W0_SKIP_LIMIT (i : Nat) : Fld := ⟨Reg.STEP_W0 i, 25, 22⟩
/-- Address of STEP_W1 (12 R333). -/
abbrev Reg.STEP_W1 (i : Nat) : Nat := 0xFF00005008 + 2048 * i
abbrev Reg.STEP_W1_GRAD_SCALE (i : Nat) : Fld := ⟨Reg.STEP_W1 i, 63, 32⟩
/-- Address of STEP_SIZE (12 R333). -/
abbrev Reg.STEP_SIZE (i j : Nat) : Nat := 0xFF00005040 + 2048 * i + 8 * j
abbrev Reg.STEP_SIZE_ODD (i j : Nat) : Fld := ⟨Reg.STEP_SIZE i j, 63, 32⟩
abbrev Reg.STEP_SIZE_EVEN (i j : Nat) : Fld := ⟨Reg.STEP_SIZE i j, 31, 0⟩
/-- Address of NORMTAB_W0 (12 R336). -/
abbrev Reg.NORMTAB_W0 (k i : Nat) : Nat := floorBase k + 0xC00 + 16 * i
abbrev Reg.NORMTAB_W0_TALLY_HI (k i : Nat) : Fld := ⟨Reg.NORMTAB_W0 k i, 63, 32⟩
abbrev Reg.NORMTAB_W0_TALLY_LO (k i : Nat) : Fld := ⟨Reg.NORMTAB_W0 k i, 31, 0⟩
/-- Address of NORMTAB_W1 (12 R336). -/
abbrev Reg.NORMTAB_W1 (k i : Nat) : Nat := floorBase k + 0xC08 + 16 * i
abbrev Reg.NORMTAB_W1_GROUP (k i : Nat) : Fld := ⟨Reg.NORMTAB_W1 k i, 63, 56⟩
abbrev Reg.NORMTAB_W1_VALID (k i : Nat) : Fld := ⟨Reg.NORMTAB_W1 k i, 55, 55⟩
/-- Address of COMMIT_CTRL (12 R350). -/
abbrev Reg.COMMIT_CTRL : Nat := 0xFF00004100
abbrev Reg.COMMIT_CTRL_PENDING_DELTA : Fld := ⟨Reg.COMMIT_CTRL, 63, 46⟩
abbrev Reg.COMMIT_CTRL_FP_SET : Fld := ⟨Reg.COMMIT_CTRL, 45, 36⟩
abbrev Reg.COMMIT_CTRL_NORM_SET : Fld := ⟨Reg.COMMIT_CTRL, 35, 26⟩
abbrev Reg.COMMIT_CTRL_VOTE_BEATS : Fld := ⟨Reg.COMMIT_CTRL, 25, 18⟩
abbrev Reg.COMMIT_CTRL_VOTE_LATE_LIMIT : Fld := ⟨Reg.COMMIT_CTRL, 17, 10⟩
/-- Address of COMMIT_FENCES (12 R350). -/
abbrev Reg.COMMIT_FENCES : Nat := 0xFF00004108
abbrev Reg.COMMIT_FENCES_NORM_FENCE : Fld := ⟨Reg.COMMIT_FENCES, 63, 48⟩
abbrev Reg.COMMIT_FENCES_VOTE_FENCE : Fld := ⟨Reg.COMMIT_FENCES, 47, 32⟩
abbrev Reg.COMMIT_FENCES_START_FENCE : Fld := ⟨Reg.COMMIT_FENCES, 31, 16⟩
/-- Address of COMMIT_STATUS (12 R350). -/
abbrev Reg.COMMIT_STATUS : Nat := 0xFF00004110
abbrev Reg.COMMIT_STATUS_T_COMMITTED : Fld := ⟨Reg.COMMIT_STATUS, 63, 32⟩
abbrev Reg.COMMIT_STATUS_COMMIT_PARITY : Fld := ⟨Reg.COMMIT_STATUS, 31, 31⟩
abbrev Reg.COMMIT_STATUS_SKIPPED : Fld := ⟨Reg.COMMIT_STATUS, 30, 30⟩
abbrev Reg.COMMIT_STATUS_FP_MINORITY : Fld := ⟨Reg.COMMIT_STATUS, 29, 29⟩
abbrev Reg.COMMIT_STATUS_NONFINITE : Fld := ⟨Reg.COMMIT_STATUS, 28, 28⟩
abbrev Reg.COMMIT_STATUS_LOCAL_CAUSE : Fld := ⟨Reg.COMMIT_STATUS, 27, 24⟩
abbrev Reg.COMMIT_STATUS_DOMAIN_CAUSE : Fld := ⟨Reg.COMMIT_STATUS, 23, 20⟩
/-- Address of FINGERPRINT (12 R350). -/
abbrev Reg.FINGERPRINT : Nat := 0xFF00004118
abbrev Reg.FINGERPRINT_VALUE : Fld := ⟨Reg.FINGERPRINT, 63, 0⟩
/-- Address of NORM (12 R350). -/
abbrev Reg.NORM : Nat := 0xFF00004120
abbrev Reg.NORM_S : Fld := ⟨Reg.NORM, 63, 32⟩
abbrev Reg.NORM_N : Fld := ⟨Reg.NORM, 31, 0⟩
/-- Address of UPD_COUNT0 (12 R350). -/
abbrev Reg.UPD_COUNT0 (k : Nat) : Nat := floorBase k + 0xA00
abbrev Reg.UPD_COUNT0_UPDATED (k : Nat) : Fld := ⟨Reg.UPD_COUNT0 k, 63, 32⟩
abbrev Reg.UPD_COUNT0_CARRIED (k : Nat) : Fld := ⟨Reg.UPD_COUNT0 k, 31, 0⟩
/-- Address of UPD_COUNT1 (12 R350). -/
abbrev Reg.UPD_COUNT1 (k : Nat) : Nat := floorBase k + 0xA08
abbrev Reg.UPD_COUNT1_FROZEN (k : Nat) : Fld := ⟨Reg.UPD_COUNT1 k, 63, 48⟩
abbrev Reg.UPD_COUNT1_SKEWS (k : Nat) : Fld := ⟨Reg.UPD_COUNT1 k, 47, 32⟩
abbrev Reg.UPD_COUNT1_NONFINITE_ELEMS (k : Nat) : Fld := ⟨Reg.UPD_COUNT1 k, 31, 0⟩
/-- Address of UPD_COUNTER (12 R350). -/
abbrev Reg.UPD_COUNTER (k : Nat) : Nat := floorBase k + 0xA10
abbrev Reg.UPD_COUNTER_T_LOCAL (k : Nat) : Fld := ⟨Reg.UPD_COUNTER k, 31, 0⟩
/-- Address of FENCE (13 R364). -/
abbrev Reg.FENCE (i : Nat) : Nat := 0xFF00100000 + 16 * i
abbrev Reg.FENCE_RELEASE_BEAT (i : Nat) : Fld := ⟨Reg.FENCE i, 63, 24⟩
abbrev Reg.FENCE_PARTICIPANTS (i : Nat) : Fld := ⟨Reg.FENCE i, 23, 12⟩
abbrev Reg.FENCE_DOMAIN (i : Nat) : Fld := ⟨Reg.FENCE i, 11, 11⟩
abbrev Reg.FENCE_ACCEPT_SLIP (i : Nat) : Fld := ⟨Reg.FENCE i, 10, 10⟩
abbrev Reg.FENCE_QUIESCE (i : Nat) : Fld := ⟨Reg.FENCE i, 9, 9⟩
abbrev Reg.FENCE_STEP (i : Nat) : Fld := ⟨Reg.FENCE i, 8, 8⟩
/-- Address of WIN_W2 (13 R379). -/
abbrev Reg.WIN_W2 (i : Nat) : Nat := 0xFF0000A010 + 32 * i
abbrev Reg.WIN_W2_ACCEPTED (i : Nat) : Fld := ⟨Reg.WIN_W2 i, 63, 32⟩
abbrev Reg.WIN_W2_REFUSED (i : Nat) : Fld := ⟨Reg.WIN_W2 i, 31, 0⟩
/-- Address of WIN_W0 (13 R379). -/
abbrev Reg.WIN_W0 (i : Nat) : Nat := 0xFF0000A000 + 32 * i
abbrev Reg.WIN_W0_VALID (i : Nat) : Fld := ⟨Reg.WIN_W0 i, 63, 63⟩
abbrev Reg.WIN_W0_OP_WRITE (i : Nat) : Fld := ⟨Reg.WIN_W0 i, 62, 62⟩
abbrev Reg.WIN_W0_OP_READ (i : Nat) : Fld := ⟨Reg.WIN_W0 i, 61, 61⟩
abbrev Reg.WIN_W0_OP_REDUCE (i : Nat) : Fld := ⟨Reg.WIN_W0 i, 60, 60⟩
abbrev Reg.WIN_W0_SIZE_LOG2 (i : Nat) : Fld := ⟨Reg.WIN_W0 i, 59, 54⟩
abbrev Reg.WIN_W0_BASE (i : Nat) : Fld := ⟨Reg.WIN_W0 i, 47, 0⟩
/-- Address of WIN_W1 (13 R379). -/
abbrev Reg.WIN_W1 (i : Nat) : Nat := 0xFF0000A008 + 32 * i
abbrev Reg.WIN_W1_SRC_LO (i : Nat) : Fld := ⟨Reg.WIN_W1 i, 63, 54⟩
abbrev Reg.WIN_W1_SRC_HI (i : Nat) : Fld := ⟨Reg.WIN_W1 i, 53, 44⟩
abbrev Reg.WIN_W1_SRC_STEP (i : Nat) : Fld := ⟨Reg.WIN_W1 i, 43, 34⟩
/-- Address of LAT_DOMAIN (13 R382). -/
abbrev Reg.LAT_DOMAIN : Nat := 0xFF0000B000
abbrev Reg.LAT_DOMAIN_DOMAIN_INDEX : Fld := ⟨Reg.LAT_DOMAIN, 63, 54⟩
abbrev Reg.LAT_DOMAIN_DOMAIN_LAST : Fld := ⟨Reg.LAT_DOMAIN, 53, 44⟩
abbrev Reg.LAT_DOMAIN_PARENT_PORT : Fld := ⟨Reg.LAT_DOMAIN, 43, 40⟩
abbrev Reg.LAT_DOMAIN_SUBTREE_LAST : Fld := ⟨Reg.LAT_DOMAIN, 39, 30⟩
abbrev Reg.LAT_DOMAIN_AGREE_BEATS : Fld := ⟨Reg.LAT_DOMAIN, 29, 24⟩
abbrev Reg.LAT_DOMAIN_FLOOD_BEATS : Fld := ⟨Reg.LAT_DOMAIN, 23, 18⟩
abbrev Reg.LAT_DOMAIN_RETRAIN_SLIP : Fld := ⟨Reg.LAT_DOMAIN, 17, 8⟩
/-- Address of LAT_SETS (13 R382). -/
abbrev Reg.LAT_SETS : Nat := 0xFF0000B008
abbrev Reg.LAT_SETS_NORM_FIRST : Fld := ⟨Reg.LAT_SETS, 63, 54⟩
abbrev Reg.LAT_SETS_NORM_NEXT : Fld := ⟨Reg.LAT_SETS, 53, 44⟩
abbrev Reg.LAT_SETS_FP_NEXT : Fld := ⟨Reg.LAT_SETS, 43, 34⟩
abbrev Reg.LAT_SETS_FP_PREV : Fld := ⟨Reg.LAT_SETS, 33, 24⟩
/-- Address of LAT_COUNT (13 R382). -/
abbrev Reg.LAT_COUNT : Nat := 0xFF0000B010
abbrev Reg.LAT_COUNT_VOID_AGREEMENTS : Fld := ⟨Reg.LAT_COUNT, 63, 48⟩
abbrev Reg.LAT_COUNT_FLOODS : Fld := ⟨Reg.LAT_COUNT, 47, 32⟩
abbrev Reg.LAT_COUNT_COLLISIONS : Fld := ⟨Reg.LAT_COUNT, 31, 16⟩
abbrev Reg.LAT_COUNT_BEAT_SKEWS : Fld := ⟨Reg.LAT_COUNT, 15, 0⟩
/-- Address of PORT_W0 (13 R382). -/
abbrev Reg.PORT_W0 (i : Nat) : Nat := 0xFF0000B100 + 32 * i
abbrev Reg.PORT_W0_STATE (i : Nat) : Fld := ⟨Reg.PORT_W0 i, 63, 60⟩
abbrev Reg.PORT_W0_LANES (i : Nat) : Fld := ⟨Reg.PORT_W0 i, 59, 56⟩
abbrev Reg.PORT_W0_PARTNER (i : Nat) : Fld := ⟨Reg.PORT_W0 i, 55, 46⟩
abbrev Reg.PORT_W0_PARTNER_PORT (i : Nat) : Fld := ⟨Reg.PORT_W0 i, 45, 42⟩
abbrev Reg.PORT_W0_DELAY (i : Nat) : Fld := ⟨Reg.PORT_W0 i, 31, 16⟩
abbrev Reg.PORT_W0_BEAT_ERROR (i : Nat) : Fld := ⟨Reg.PORT_W0 i, 15, 0⟩
/-- Address of PORT_W1 (13 R382). -/
abbrev Reg.PORT_W1 (i : Nat) : Nat := 0xFF0000B108 + 32 * i
abbrev Reg.PORT_W1_CRC_ERRORS (i : Nat) : Fld := ⟨Reg.PORT_W1 i, 63, 32⟩
abbrev Reg.PORT_W1_RESENDS (i : Nat) : Fld := ⟨Reg.PORT_W1 i, 31, 16⟩
abbrev Reg.PORT_W1_RETRAINS (i : Nat) : Fld := ⟨Reg.PORT_W1 i, 15, 0⟩
/-- Address of PORT_W2 (13 R382). -/
abbrev Reg.PORT_W2 (i : Nat) : Nat := 0xFF0000B110 + 32 * i
abbrev Reg.PORT_W2_REFUSED (i : Nat) : Fld := ⟨Reg.PORT_W2 i, 63, 32⟩
abbrev Reg.PORT_W2_OVERFLOW_FLITS (i : Nat) : Fld := ⟨Reg.PORT_W2 i, 31, 0⟩
/-- Address of HP_CTRL (14 R398). -/
abbrev Reg.HP_CTRL : Nat := 0xFF0000C000
abbrev Reg.HP_CTRL_MODE : Fld := ⟨Reg.HP_CTRL, 63, 62⟩
abbrev Reg.HP_CTRL_VLAN_EN : Fld := ⟨Reg.HP_CTRL, 61, 61⟩
abbrev Reg.HP_CTRL_VID : Fld := ⟨Reg.HP_CTRL, 60, 49⟩
abbrev Reg.HP_CTRL_MAX_FRAME : Fld := ⟨Reg.HP_CTRL, 48, 35⟩
abbrev Reg.HP_CTRL_SMIPER_PORT : Fld := ⟨Reg.HP_CTRL, 34, 19⟩
abbrev Reg.HP_CTRL_PTP_TRANSPORT : Fld := ⟨Reg.HP_CTRL, 18, 18⟩
abbrev Reg.HP_CTRL_PTP_PORT : Fld := ⟨Reg.HP_CTRL, 17, 17⟩
abbrev Reg.HP_CTRL_PTP_DOMAIN : Fld := ⟨Reg.HP_CTRL, 16, 9⟩
/-- Address of HP_MAC (14 R398). -/
abbrev Reg.HP_MAC : Nat := 0xFF0000C008
abbrev Reg.HP_MAC_MAC_ADDR : Fld := ⟨Reg.HP_MAC, 47, 0⟩
/-- Address of HP_IPV4 (14 R398). -/
abbrev Reg.HP_IPV4 : Nat := 0xFF0000C010
abbrev Reg.HP_IPV4_IPV4_ADDR : Fld := ⟨Reg.HP_IPV4, 31, 0⟩
/-- Address of HP_IPV6 (14 R398). -/
abbrev Reg.HP_IPV6 (i : Nat) : Nat := 0xFF0000C018 + 8 * i
abbrev Reg.HP_IPV6_IPV6_ADDR (i : Nat) : Fld := ⟨Reg.HP_IPV6 i, 63, 0⟩
/-- Address of HP_STATUS (14 R398). -/
abbrev Reg.HP_STATUS : Nat := 0xFF0000C028
abbrev Reg.HP_STATUS_LINK : Fld := ⟨Reg.HP_STATUS, 63, 62⟩
abbrev Reg.HP_STATUS_PTP_STATE : Fld := ⟨Reg.HP_STATUS, 61, 60⟩
abbrev Reg.HP_STATUS_PTP_OFFSET : Fld := ⟨Reg.HP_STATUS, 31, 0⟩
/-- Address of HP_COUNT0 (14 R398). -/
abbrev Reg.HP_COUNT0 : Nat := 0xFF0000C030
abbrev Reg.HP_COUNT0_FRAMES_IN : Fld := ⟨Reg.HP_COUNT0, 63, 32⟩
abbrev Reg.HP_COUNT0_FRAMES_DROPPED : Fld := ⟨Reg.HP_COUNT0, 31, 0⟩
/-- Address of HP_COUNT1 (14 R398). -/
abbrev Reg.HP_COUNT1 : Nat := 0xFF0000C038
abbrev Reg.HP_COUNT1_BUFFER_DROPS : Fld := ⟨Reg.HP_COUNT1, 63, 32⟩
abbrev Reg.HP_COUNT1_LINK_LOSSES : Fld := ⟨Reg.HP_COUNT1, 31, 16⟩
abbrev Reg.HP_COUNT1_TIME_STEPS : Fld := ⟨Reg.HP_COUNT1, 15, 0⟩
/-- Address of HP_TIME (14 R398). -/
abbrev Reg.HP_TIME : Nat := 0xFF0000C040
abbrev Reg.HP_TIME_TIME_NS : Fld := ⟨Reg.HP_TIME, 63, 0⟩
/-- Address of SM_STATE (15 R436). -/
abbrev Reg.SM_STATE : Nat := 0xFF0000D000
abbrev Reg.SM_STATE_SESSION : Fld := ⟨Reg.SM_STATE, 63, 32⟩
abbrev Reg.SM_STATE_LAST_SEQ : Fld := ⟨Reg.SM_STATE, 31, 0⟩
/-- Address of SM_COUNT0 (15 R436). -/
abbrev Reg.SM_COUNT0 : Nat := 0xFF0000D008
abbrev Reg.SM_COUNT0_EXECUTED : Fld := ⟨Reg.SM_COUNT0, 63, 32⟩
abbrev Reg.SM_COUNT0_DUPLICATES : Fld := ⟨Reg.SM_COUNT0, 31, 16⟩
abbrev Reg.SM_COUNT0_DROPPED : Fld := ⟨Reg.SM_COUNT0, 15, 0⟩
/-- Address of SM_COUNT1 (15 R436). -/
abbrev Reg.SM_COUNT1 : Nat := 0xFF0000D010
abbrev Reg.SM_COUNT1_STALE : Fld := ⟨Reg.SM_COUNT1, 63, 48⟩
abbrev Reg.SM_COUNT1_AHEAD : Fld := ⟨Reg.SM_COUNT1, 47, 32⟩
abbrev Reg.SM_COUNT1_REFUSED : Fld := ⟨Reg.SM_COUNT1, 31, 16⟩
abbrev Reg.SM_COUNT1_UNSEQUENCED : Fld := ⟨Reg.SM_COUNT1, 15, 0⟩
/-- Address of SEGTAB (16 R438). -/
abbrev Reg.SEGTAB (i : Nat) : Nat := 0xFF00010000 + 8 * i
abbrev Reg.SEGTAB_VALID (i : Nat) : Fld := ⟨Reg.SEGTAB i, 63, 63⟩
abbrev Reg.SEGTAB_PAIRED (i : Nat) : Fld := ⟨Reg.SEGTAB i, 62, 62⟩
abbrev Reg.SEGTAB_JOB_SEG (i : Nat) : Fld := ⟨Reg.SEGTAB i, 61, 44⟩
abbrev Reg.SEGTAB_PHYS_B (i : Nat) : Fld := ⟨Reg.SEGTAB i, 19, 10⟩
abbrev Reg.SEGTAB_PHYS_A (i : Nat) : Fld := ⟨Reg.SEGTAB i, 9, 0⟩
/-- Address of JOB_STATE (16 R459). -/
abbrev Reg.JOB_STATE : Nat := 0xFF0000E000
abbrev Reg.JOB_STATE_STATE : Fld := ⟨Reg.JOB_STATE, 63, 60⟩
abbrev Reg.JOB_STATE_QUIESCE_FENCE : Fld := ⟨Reg.JOB_STATE, 59, 44⟩
abbrev Reg.JOB_STATE_JOB_ID : Fld := ⟨Reg.JOB_STATE, 31, 0⟩
/-- Address of JOB_SEED (16 R459). -/
abbrev Reg.JOB_SEED : Nat := 0xFF0000E008
abbrev Reg.JOB_SEED_VALUE : Fld := ⟨Reg.JOB_SEED, 63, 0⟩
/-- Address of JOB_SAVE (16 R459). -/
abbrev Reg.JOB_SAVE : Nat := 0xFF0000E010
abbrev Reg.JOB_SAVE_SAVE_ADDR : Fld := ⟨Reg.JOB_SAVE, 47, 0⟩
/-- Address of JOB_XLATE (16 R459). -/
abbrev Reg.JOB_XLATE : Nat := 0xFF0000E018
abbrev Reg.JOB_XLATE_PENDING : Fld := ⟨Reg.JOB_XLATE, 63, 63⟩
abbrev Reg.JOB_XLATE_LOCATION : Fld := ⟨Reg.JOB_XLATE, 62, 55⟩
abbrev Reg.JOB_XLATE_CHANNEL : Fld := ⟨Reg.JOB_XLATE, 54, 50⟩
abbrev Reg.JOB_XLATE_ADDR : Fld := ⟨Reg.JOB_XLATE, 47, 0⟩
/-- Address of JOB_COUNT (16 R459). -/
abbrev Reg.JOB_COUNT : Nat := 0xFF0000E020
abbrev Reg.JOB_COUNT_XLATE_STOPS : Fld := ⟨Reg.JOB_COUNT, 63, 32⟩
abbrev Reg.JOB_COUNT_PREEMPTIONS : Fld := ⟨Reg.JOB_COUNT, 31, 16⟩
abbrev Reg.JOB_COUNT_RESUMES : Fld := ⟨Reg.JOB_COUNT, 15, 0⟩
/-- Address of FAULT_STATUS (17 R484). -/
abbrev Reg.FAULT_STATUS : Nat := 0xFF0000F000
abbrev Reg.FAULT_STATUS_SAFE : Fld := ⟨Reg.FAULT_STATUS, 63, 63⟩
abbrev Reg.FAULT_STATUS_FAILED : Fld := ⟨Reg.FAULT_STATUS, 62, 62⟩
abbrev Reg.FAULT_STATUS_SAFE_CAUSE : Fld := ⟨Reg.FAULT_STATUS, 61, 57⟩
abbrev Reg.FAULT_STATUS_FP_MINORITY_SEEN : Fld := ⟨Reg.FAULT_STATUS, 2, 2⟩
abbrev Reg.FAULT_STATUS_LATENT : Fld := ⟨Reg.FAULT_STATUS, 1, 1⟩
abbrev Reg.FAULT_STATUS_ABORT_SENT : Fld := ⟨Reg.FAULT_STATUS, 0, 0⟩
/-- Address of FAULT_LAST0 (17 R484). -/
abbrev Reg.FAULT_LAST0 : Nat := 0xFF0000F008
abbrev Reg.FAULT_LAST0_KIND : Fld := ⟨Reg.FAULT_LAST0, 63, 59⟩
abbrev Reg.FAULT_LAST0_DISPOSITION : Fld := ⟨Reg.FAULT_LAST0, 58, 56⟩
abbrev Reg.FAULT_LAST0_UNIT : Fld := ⟨Reg.FAULT_LAST0, 55, 48⟩
abbrev Reg.FAULT_LAST0_PERSISTENT : Fld := ⟨Reg.FAULT_LAST0, 47, 47⟩
abbrev Reg.FAULT_LAST0_BEAT : Fld := ⟨Reg.FAULT_LAST0, 31, 0⟩
/-- Address of FAULT_LAST1 (17 R484). -/
abbrev Reg.FAULT_LAST1 : Nat := 0xFF0000F010
abbrev Reg.FAULT_LAST1_RECORD_ID : Fld := ⟨Reg.FAULT_LAST1, 63, 48⟩
abbrev Reg.FAULT_LAST1_LANE : Fld := ⟨Reg.FAULT_LAST1, 47, 40⟩
abbrev Reg.FAULT_LAST1_ADDRESS : Fld := ⟨Reg.FAULT_LAST1, 39, 0⟩
/-- Address of FAULT_COUNT (17 R484). -/
abbrev Reg.FAULT_COUNT : Nat := 0xFF0000F018
abbrev Reg.FAULT_COUNT_LOCAL : Fld := ⟨Reg.FAULT_COUNT, 63, 48⟩
abbrev Reg.FAULT_COUNT_ABORTS : Fld := ⟨Reg.FAULT_COUNT, 47, 32⟩
abbrev Reg.FAULT_COUNT_DOUBLE_FAULTS : Fld := ⟨Reg.FAULT_COUNT, 31, 16⟩
abbrev Reg.FAULT_COUNT_PERSISTENT : Fld := ⟨Reg.FAULT_COUNT, 15, 0⟩
/-- Address of INTEG_CTRL (17 R484). -/
abbrev Reg.INTEG_CTRL : Nat := 0xFF0000F020
abbrev Reg.INTEG_CTRL_REPLAY_GAP : Fld := ⟨Reg.INTEG_CTRL, 7, 0⟩
/-- Address of INTEG_COUNT (17 R484). -/
abbrev Reg.INTEG_COUNT (loc : Nat) : Nat := locBase loc + 0xB00
abbrev Reg.INTEG_COUNT_RESIDUE (loc : Nat) : Fld := ⟨Reg.INTEG_COUNT loc, 63, 48⟩
abbrev Reg.INTEG_COUNT_PARITY (loc : Nat) : Fld := ⟨Reg.INTEG_COUNT loc, 47, 32⟩
abbrev Reg.INTEG_COUNT_RERUN_CYCLES (loc : Nat) : Fld := ⟨Reg.INTEG_COUNT loc, 31, 0⟩
/-- Address of PWR_CTRL (18 R500). -/
abbrev Reg.PWR_CTRL : Nat := 0xFF0000A800
abbrev Reg.PWR_CTRL_T_WARN : Fld := ⟨Reg.PWR_CTRL, 39, 32⟩
abbrev Reg.PWR_CTRL_POWER_LIMIT : Fld := ⟨Reg.PWR_CTRL, 28, 16⟩
abbrev Reg.PWR_CTRL_GATE_IDLE : Fld := ⟨Reg.PWR_CTRL, 15, 0⟩
/-- Address of PWR_STATUS (18 R500). -/
abbrev Reg.PWR_STATUS : Nat := 0xFF0000A808
abbrev Reg.PWR_STATUS_STATE : Fld := ⟨Reg.PWR_STATUS, 63, 60⟩
abbrev Reg.PWR_STATUS_OVER : Fld := ⟨Reg.PWR_STATUS, 59, 59⟩
abbrev Reg.PWR_STATUS_THERM_WARN : Fld := ⟨Reg.PWR_STATUS, 58, 58⟩
abbrev Reg.PWR_STATUS_BASE_RESERVE : Fld := ⟨Reg.PWR_STATUS, 57, 45⟩
abbrev Reg.PWR_STATUS_FREE : Fld := ⟨Reg.PWR_STATUS, 44, 32⟩
abbrev Reg.PWR_STATUS_PACKAGE_MW : Fld := ⟨Reg.PWR_STATUS, 31, 0⟩
/-- Address of PWR_RAIL (18 R500). -/
abbrev Reg.PWR_RAIL (i : Nat) : Nat := 0xFF0000A810 + 8 * i
abbrev Reg.PWR_RAIL_RAIL_MW (i : Nat) : Fld := ⟨Reg.PWR_RAIL i, 63, 32⟩
abbrev Reg.PWR_RAIL_RAIL_MV (i : Nat) : Fld := ⟨Reg.PWR_RAIL i, 31, 16⟩
/-- Address of PWR_TEMP0 (18 R500). -/
abbrev Reg.PWR_TEMP0 : Nat := 0xFF0000A860
abbrev Reg.PWR_TEMP0_ALL : Fld := ⟨Reg.PWR_TEMP0, 63, 0⟩
/-- Address of PWR_TEMP1 (18 R500). -/
abbrev Reg.PWR_TEMP1 : Nat := 0xFF0000A868
abbrev Reg.PWR_TEMP1_HUB : Fld := ⟨Reg.PWR_TEMP1, 63, 48⟩
/-- Address of PWR_TEMP2 (18 R500). -/
abbrev Reg.PWR_TEMP2 : Nat := 0xFF0000A870
abbrev Reg.PWR_TEMP2_ALL : Fld := ⟨Reg.PWR_TEMP2, 63, 0⟩
/-- Address of PWR_TEMP3 (18 R500). -/
abbrev Reg.PWR_TEMP3 : Nat := 0xFF0000A878
abbrev Reg.PWR_TEMP3_ALL : Fld := ⟨Reg.PWR_TEMP3, 63, 0⟩
/-- Address of LEAVE_COUNT (18 R500). -/
abbrev Reg.LEAVE_COUNT : Nat := 0xFF0000A880
abbrev Reg.LEAVE_COUNT_GRANTS : Fld := ⟨Reg.LEAVE_COUNT, 63, 32⟩
abbrev Reg.LEAVE_COUNT_REFUSALS : Fld := ⟨Reg.LEAVE_COUNT, 31, 16⟩
abbrev Reg.LEAVE_COUNT_OVER_EVENTS : Fld := ⟨Reg.LEAVE_COUNT, 15, 0⟩
/-- Address of LEAVE_TABLE (18 R500). -/
abbrev Reg.LEAVE_TABLE (i : Nat) : Nat := 0xFF0000A900 + 8 * i
abbrev Reg.LEAVE_TABLE_MIN_UNITS (i : Nat) : Fld := ⟨Reg.LEAVE_TABLE i, 47, 32⟩
abbrev Reg.LEAVE_TABLE_UNITS (i : Nat) : Fld := ⟨Reg.LEAVE_TABLE i, 15, 0⟩
/-- Address of BENCH_LEAVE (18 R500). -/
abbrev Reg.BENCH_LEAVE (b : Nat) : Nat := benchBase b + 0xD00
abbrev Reg.BENCH_LEAVE_STANDING (b : Nat) : Fld := ⟨Reg.BENCH_LEAVE b, 63, 48⟩
abbrev Reg.BENCH_LEAVE_HELD (b : Nat) : Fld := ⟨Reg.BENCH_LEAVE b, 47, 32⟩
abbrev Reg.BENCH_LEAVE_LEAVE_WAIT_CYCLES (b : Nat) : Fld := ⟨Reg.BENCH_LEAVE b, 31, 0⟩
/-- Address of LC_STATUS (19 R516). -/
abbrev Reg.LC_STATUS : Nat := 0xFF00001000
abbrev Reg.LC_STATUS_STATE : Fld := ⟨Reg.LC_STATUS, 63, 60⟩
abbrev Reg.LC_STATUS_BOOT_SLOT : Fld := ⟨Reg.LC_STATUS, 59, 59⟩
abbrev Reg.LC_STATUS_SLOT_FALLBACK : Fld := ⟨Reg.LC_STATUS, 58, 58⟩
abbrev Reg.LC_STATUS_ROLLBACK : Fld := ⟨Reg.LC_STATUS, 57, 50⟩
abbrev Reg.LC_STATUS_SEED_BANK : Fld := ⟨Reg.LC_STATUS, 49, 48⟩
abbrev Reg.LC_STATUS_FW_VERSION : Fld := ⟨Reg.LC_STATUS, 31, 0⟩
/-- Address of LC_CHALLENGE (19 R516). -/
abbrev Reg.LC_CHALLENGE (i : Nat) : Nat := 0xFF00001008 + 8 * i
abbrev Reg.LC_CHALLENGE_CHALLENGE (i : Nat) : Fld := ⟨Reg.LC_CHALLENGE i, 63, 0⟩
/-- Address of LC_COUNT (19 R516). -/
abbrev Reg.LC_COUNT : Nat := 0xFF00001028
abbrev Reg.LC_COUNT_ATTESTS : Fld := ⟨Reg.LC_COUNT, 63, 32⟩
abbrev Reg.LC_COUNT_AUTH_FAILURES : Fld := ⟨Reg.LC_COUNT, 31, 16⟩
abbrev Reg.LC_COUNT_FALLBACKS : Fld := ⟨Reg.LC_COUNT, 15, 0⟩
/-- Address of BIST_HELD (20 R528). -/
abbrev Reg.BIST_HELD (i : Nat) : Nat := 0xFF00001100 + 8 * i
abbrev Reg.BIST_HELD_BENCH_HELD (i : Nat) : Fld := ⟨Reg.BIST_HELD i, 63, 0⟩
/-- Address of BIST_HELD3 (20 R528). -/
abbrev Reg.BIST_HELD3 : Nat := 0xFF00001118
abbrev Reg.BIST_HELD3_PORT_HELD : Fld := ⟨Reg.BIST_HELD3, 19, 8⟩
abbrev Reg.BIST_HELD3_FLOOR_HELD : Fld := ⟨Reg.BIST_HELD3, 7, 0⟩
/-- Address of BIST_COUNT (20 R528). -/
abbrev Reg.BIST_COUNT : Nat := 0xFF00001120
abbrev Reg.BIST_COUNT_RUNS : Fld := ⟨Reg.BIST_COUNT, 63, 32⟩
abbrev Reg.BIST_COUNT_FAILS : Fld := ⟨Reg.BIST_COUNT, 31, 16⟩
abbrev Reg.BIST_COUNT_REPAIRS : Fld := ⟨Reg.BIST_COUNT, 15, 0⟩
/-- Address of FRZ_CTRL (21 R543). -/
abbrev Reg.FRZ_CTRL : Nat := 0xFF00001200
abbrev Reg.FRZ_CTRL_PIN_ACTION : Fld := ⟨Reg.FRZ_CTRL, 63, 62⟩
abbrev Reg.FRZ_CTRL_MATCH_ACTION : Fld := ⟨Reg.FRZ_CTRL, 61, 60⟩
abbrev Reg.FRZ_CTRL_MATCH_EVENT : Fld := ⟨Reg.FRZ_CTRL, 59, 48⟩
abbrev Reg.FRZ_CTRL_MATCH_MASK : Fld := ⟨Reg.FRZ_CTRL, 47, 36⟩
abbrev Reg.FRZ_CTRL_MATCH_SOURCE : Fld := ⟨Reg.FRZ_CTRL, 35, 28⟩
abbrev Reg.FRZ_CTRL_MATCH_ANY : Fld := ⟨Reg.FRZ_CTRL, 27, 27⟩
abbrev Reg.FRZ_CTRL_MATCH_COUNT : Fld := ⟨Reg.FRZ_CTRL, 26, 11⟩
/-- Address of FRZ_STATUS (21 R543). -/
abbrev Reg.FRZ_STATUS : Nat := 0xFF00001208
abbrev Reg.FRZ_STATUS_FROZEN : Fld := ⟨Reg.FRZ_STATUS, 63, 63⟩
abbrev Reg.FRZ_STATUS_CAUSE : Fld := ⟨Reg.FRZ_STATUS, 62, 61⟩
abbrev Reg.FRZ_STATUS_LOCAL : Fld := ⟨Reg.FRZ_STATUS, 60, 60⟩
abbrev Reg.FRZ_STATUS_MATCHES : Fld := ⟨Reg.FRZ_STATUS, 59, 44⟩
abbrev Reg.FRZ_STATUS_FREEZE_BEAT : Fld := ⟨Reg.FRZ_STATUS, 31, 0⟩
/-- Address of FRZ_COUNT (21 R543). -/
abbrev Reg.FRZ_COUNT : Nat := 0xFF00001210
abbrev Reg.FRZ_COUNT_FREEZES : Fld := ⟨Reg.FRZ_COUNT, 63, 32⟩
abbrev Reg.FRZ_COUNT_IGNORED : Fld := ⟨Reg.FRZ_COUNT, 31, 16⟩
abbrev Reg.FRZ_COUNT_THAWS : Fld := ⟨Reg.FRZ_COUNT, 15, 0⟩
/-- Address of LOG_STATUS (21 R543). -/
abbrev Reg.LOG_STATUS : Nat := 0xFF00001218
abbrev Reg.LOG_STATUS_WRITE_SEQ : Fld := ⟨Reg.LOG_STATUS, 63, 32⟩
abbrev Reg.LOG_STATUS_DRAIN_LOST : Fld := ⟨Reg.LOG_STATUS, 31, 0⟩

/-- Registers of the catalogue, part 0. -/
def catalogue0 : List RegDesc := [
  ⟨"LR_WIDTH", .bench, 0x200, [], .reset, .bench,
    [⟨"UNIFORM_EN", 26, 26, .rw, .k, 0⟩,
     ⟨"UNIFORM_WIDTH", 25, 17, .rw, .k, 256⟩,
     ⟨"BYPASS_COUNT", 16, 12, .ro, .none, 0⟩,
     ⟨"PRESENTED_WIDTH", 8, 0, .ro, .none, 256⟩]⟩,
  ⟨"LR_BYPASS", .bench, 0x220, [(8, 4)], .reset, .never,
    [⟨"BYPASS_MAP", 63, 0, .ro, .none, 0⟩]⟩,
  ⟨"LR_COUNT0", .bench, 0x240, [], .job, .never,
    [⟨"STREAM_BUBBLES", 63, 32, .ro, .none, 0⟩,
     ⟨"LOAD_BUBBLES", 31, 0, .ro, .none, 0⟩]⟩,
  ⟨"LR_COUNT1", .bench, 0x248, [], .job, .never,
    [⟨"DRAIN_BUBBLES", 63, 32, .ro, .none, 0⟩,
     ⟨"BATCH_TIMEOUTS", 31, 16, .ro, .none, 0⟩,
     ⟨"BATCH_FULL", 15, 0, .ro, .none, 0⟩]⟩,
  ⟨"AWL_COUNT0", .bench, 0x300, [], .job, .never,
    [⟨"CODE_CYCLES", 63, 32, .ro, .none, 0⟩,
     ⟨"PACKETS", 31, 0, .ro, .none, 0⟩]⟩,
  ⟨"AWL_COUNT1", .bench, 0x308, [], .job, .never,
    [⟨"OVERRUNS", 63, 48, .ro, .none, 0⟩,
     ⟨"TILE_ERRORS", 47, 32, .ro, .none, 0⟩,
     ⟨"MASK_DROPS", 31, 0, .ro, .none, 0⟩]⟩,
  ⟨"AWL_LAST_OVERRUN", .bench, 0x310, [], .job, .never,
    [⟨"RECORD_ID", 63, 48, .ro, .none, 0⟩,
     ⟨"SLIP_REQUESTED", 47, 32, .ro, .none, 0⟩]⟩,
  ⟨"LAYOUT_COUNT0", .bench, 0x380, [], .job, .never,
    [⟨"OOB_READS", 63, 32, .ro, .none, 0⟩,
     ⟨"OOB_WRITES", 31, 0, .ro, .none, 0⟩]⟩,
  ⟨"LAYOUT_COUNT1", .bench, 0x388, [], .job, .never,
    [⟨"INDEX_NEGATIVE", 63, 32, .ro, .none, 0⟩,
     ⟨"INDEX_HIGH", 31, 0, .ro, .none, 0⟩]⟩,
  ⟨"LAYOUT_COUNT2", .bench, 0x390, [], .job, .never,
    [⟨"REBLOCKS", 63, 32, .ro, .none, 0⟩]⟩,
  ⟨"SP_CTRL", .bench, 0x400, [], .reset, .bench,
    [⟨"STRICT", 35, 35, .rw, .k, 0⟩,
     ⟨"MERGE_EN", 34, 34, .rw, .k, 1⟩,
     ⟨"SCRUB_EN", 33, 33, .rw, .l, 1⟩,
     ⟨"SCRUB_INTERVAL", 32, 29, .rw, .l, 8⟩,
     ⟨"SLOT_TIMEOUT", 15, 0, .rw, .k, 2048⟩]⟩,
  ⟨"SP_CONFLICT0", .bench, 0x410, [], .job, .never,
    [⟨"STREAM_WAITS", 63, 32, .ro, .none, 0⟩,
     ⟨"STATIONARY_WAITS", 31, 0, .ro, .none, 0⟩]⟩,
  ⟨"SP_CONFLICT1", .bench, 0x418, [], .job, .never,
    [⟨"DRAIN_WAITS", 63, 32, .ro, .none, 0⟩,
     ⟨"DMA_WAITS", 31, 0, .ro, .none, 0⟩]⟩,
  ⟨"SP_CONFLICT2", .bench, 0x420, [], .job, .never,
    [⟨"AWL_WAITS", 63, 32, .ro, .none, 0⟩,
     ⟨"VECTOR_WAITS", 31, 0, .ro, .none, 0⟩]⟩,
  ⟨"SP_TAG", .bench, 0x428, [], .job, .never,
    [⟨"TAG_WAIT_CYCLES", 63, 32, .ro, .none, 0⟩,
     ⟨"TIMEOUTS", 31, 16, .ro, .none, 0⟩,
     ⟨"TAG_CORRECTED", 15, 0, .ro, .none, 0⟩]⟩,
  ⟨"SP_ECC", .bench, 0x430, [], .reset, .never,
    [⟨"CORRECTED", 63, 32, .ro, .none, 0⟩,
     ⟨"UNCORRECTABLE", 31, 0, .ro, .none, 0⟩]⟩,
  ⟨"SP_SCRUB", .bench, 0x438, [], .job, .never,
    [⟨"PASSES", 63, 32, .ro, .none, 0⟩,
     ⟨"WRITEBACKS", 31, 0, .ro, .none, 0⟩]⟩,
  ⟨"SP_MERGE", .bench, 0x440, [], .job, .never,
    [⟨"BURSTS_MERGED", 63, 32, .ro, .none, 0⟩,
     ⟨"WINDOWS", 31, 0, .ro, .none, 0⟩]⟩,
  ⟨"SP_LAST_FAULT", .bench, 0x448, [], .job, .never,
    [⟨"KIND", 63, 60, .ro, .none, 0⟩,
     ⟨"PORT", 59, 57, .ro, .none, 0⟩,
     ⟨"OFFSET", 54, 32, .ro, .none, 0⟩,
     ⟨"BEAT", 31, 0, .ro, .none, 0⟩]⟩,
  ⟨"REDUCE", .bench, 0x580, [(8, 16)], .reset, .job,
    [⟨"REDUCE_ID", 63, 56, .rw, .k, 0⟩,
     ⟨"INPUT_MASK", 55, 48, .rw, .k, 0⟩,
     ⟨"ORDER", 47, 24, .rw, .k, 0⟩,
     ⟨"OUT_PORT", 23, 21, .rw, .k, 0⟩,
     ⟨"VALID", 20, 20, .rw, .k, 0⟩]⟩,
  ⟨"NET_COUNT", .bench, 0x500, [], .job, .never,
    [⟨"LINK_REPLAYS", 63, 32, .ro, .none, 0⟩,
     ⟨"REDUCE_FAULTS", 31, 16, .ro, .none, 0⟩,
     ⟨"MULTICAST_COPIES", 15, 0, .ro, .none, 0⟩]⟩,
  ⟨"SYNC_CTRL", .hub, 0x2000, [], .reset, .job,
    [⟨"REDUCE_TIMEOUT", 31, 16, .rw, .k, 256⟩,
     ⟨"FENCE_LATE_LIMIT", 15, 0, .rw, .k, 64⟩]⟩,
  ⟨"SYNC_BEAT", .hub, 0x2008, [], .reset, .never,
    [⟨"BEAT", 63, 0, .ro, .none, 0⟩]⟩,
  ⟨"SYNC_COUNT", .hub, 0x2010, [], .job, .never,
    [⟨"LATE_FENCES", 63, 32, .ro, .none, 0⟩,
     ⟨"SLIPS", 31, 0, .ro, .none, 0⟩]⟩,
  ⟨"CH_STATE", .bench, 0x600, [(32, 8)], .reset, .never,
    [⟨"STATE", 63, 60, .ro, .none, 0⟩,
     ⟨"STOP_CAUSE", 59, 56, .ro, .none, 0⟩,
     ⟨"RECORD_ID", 55, 40, .ro, .none, 0⟩,
     ⟨"PROGRESS", 39, 0, .ro, .none, 0⟩]⟩,
  ⟨"CH_STATE", .hub, 0x3000, [(32, 32)], .reset, .never,
    [⟨"STATE", 63, 60, .ro, .none, 0⟩,
     ⟨"STOP_CAUSE", 59, 56, .ro, .none, 0⟩,
     ⟨"RECORD_ID", 55, 40, .ro, .none, 0⟩,
     ⟨"PROGRESS", 39, 0, .ro, .none, 0⟩]⟩,
  ⟨"CH_STATE", .floor, 0x600, [(32, 8)], .reset, .never,
    [⟨"STATE", 63, 60, .ro, .none, 0⟩,
     ⟨"STOP_CAUSE", 59, 56, .ro, .none, 0⟩,
     ⟨"RECORD_ID", 55, 40, .ro, .none, 0⟩,
     ⟨"PROGRESS", 39, 0, .ro, .none, 0⟩]⟩,
  ⟨"CH_DONE_MASK", .bench, 0x608, [(32, 8)], .reset, .never,
    [⟨"DONE_MASK", 63, 0, .ro, .none, 0⟩]⟩,
  ⟨"CH_DONE_MASK", .hub, 0x3008, [(32, 32)], .reset, .never,
    [⟨"DONE_MASK", 63, 0, .ro, .none, 0⟩]⟩,
  ⟨"CH_DONE_MASK", .floor, 0x608, [(32, 8)], .reset, .never,
    [⟨"DONE_MASK", 63, 0, .ro, .none, 0⟩]⟩]

/-- Registers of the catalogue, part 1. -/
def catalogue1 : List RegDesc := [
  ⟨"CH_CTRL", .bench, 0x610, [(32, 8)], .reset, .never,
    [⟨"RATE_CAP", 5, 0, .rw, .l, 0⟩]⟩,
  ⟨"CH_CTRL", .hub, 0x3010, [(32, 32)], .reset, .never,
    [⟨"RATE_CAP", 5, 0, .rw, .l, 0⟩]⟩,
  ⟨"CH_CTRL", .floor, 0x610, [(32, 8)], .reset, .never,
    [⟨"RATE_CAP", 5, 0, .rw, .l, 0⟩]⟩,
  ⟨"CH_COUNT", .bench, 0x618, [(32, 8)], .job, .never,
    [⟨"PACE_CYCLES", 63, 32, .ro, .none, 0⟩,
     ⟨"TALLY_REFETCHES", 31, 16, .ro, .none, 0⟩,
     ⟨"STOPS", 15, 0, .ro, .none, 0⟩]⟩,
  ⟨"CH_COUNT", .hub, 0x3018, [(32, 32)], .job, .never,
    [⟨"PACE_CYCLES", 63, 32, .ro, .none, 0⟩,
     ⟨"TALLY_REFETCHES", 31, 16, .ro, .none, 0⟩,
     ⟨"STOPS", 15, 0, .ro, .none, 0⟩]⟩,
  ⟨"CH_COUNT", .floor, 0x618, [(32, 8)], .job, .never,
    [⟨"PACE_CYCLES", 63, 32, .ro, .none, 0⟩,
     ⟨"TALLY_REFETCHES", 31, 16, .ro, .none, 0⟩,
     ⟨"STOPS", 15, 0, .ro, .none, 0⟩]⟩,
  ⟨"DMA_CTRL", .bench, 0x700, [], .reset, .location,
    [⟨"LIMIT_TIMEOUT", 15, 0, .rw, .k, 2048⟩]⟩,
  ⟨"DMA_CTRL", .hub, 0x3400, [], .reset, .location,
    [⟨"LIMIT_TIMEOUT", 15, 0, .rw, .k, 2048⟩]⟩,
  ⟨"DMA_CTRL", .floor, 0x700, [], .reset, .location,
    [⟨"LIMIT_TIMEOUT", 15, 0, .rw, .k, 2048⟩]⟩,
  ⟨"DMA_OOB", .hub, 0x3408, [], .job, .never,
    [⟨"OOB_READS", 63, 32, .ro, .none, 0⟩,
     ⟨"OOB_WRITES", 31, 0, .ro, .none, 0⟩]⟩,
  ⟨"DMA_OOB", .floor, 0x708, [], .job, .never,
    [⟨"OOB_READS", 63, 32, .ro, .none, 0⟩,
     ⟨"OOB_WRITES", 31, 0, .ro, .none, 0⟩]⟩,
  ⟨"CELLAR_CTRL", .floor, 0x800, [], .reset, .never,
    [⟨"SCRUB_EN", 5, 5, .rw, .l, 1⟩,
     ⟨"SCRUB_INTERVAL", 4, 0, .rw, .l, 16⟩]⟩,
  ⟨"CELLAR_ECC", .floor, 0x808, [], .powerUp, .never,
    [⟨"CORRECTED", 63, 32, .ro, .none, 0⟩,
     ⟨"DIE_CORRECTIONS", 31, 16, .ro, .none, 0⟩,
     ⟨"UNCORRECTABLE", 15, 0, .ro, .none, 0⟩]⟩,
  ⟨"CELLAR_DIE", .floor, 0x810, [], .reset, .never,
    [⟨"PASSES", 63, 32, .ro, .none, 0⟩,
     ⟨"MARK_VALID", 4, 4, .ro, .none, 0⟩,
     ⟨"MARKED_DIE", 3, 0, .ro, .none, 0⟩]⟩,
  ⟨"ATTIC_CTRL", .floor, 0x840, [], .reset, .job,
    [⟨"EN", 63, 63, .rw, .k, 0⟩,
     ⟨"RING_LOG2", 62, 57, .rw, .k, 0⟩,
     ⟨"CTRL_ADDR", 47, 0, .rw, .k, 0⟩]⟩,
  ⟨"ATTIC_COUNT", .floor, 0x848, [], .job, .never,
    [⟨"STASHED", 63, 32, .ro, .none, 0⟩,
     ⟨"DROPPED", 31, 16, .ro, .none, 0⟩,
     ⟨"SKIPPED", 15, 0, .ro, .none, 0⟩]⟩,
  ⟨"STEP_STATE", .hub, 0x4000, [], .job, .never,
    [⟨"PHASE", 63, 60, .ro, .none, 0⟩,
     ⟨"LAST_OUTCOME", 59, 58, .ro, .none, 0⟩,
     ⟨"REPLAYS", 57, 48, .ro, .none, 0⟩,
     ⟨"STEP", 31, 0, .ro, .none, 0⟩]⟩,
  ⟨"SEL_COUNT", .bench, 0x900, [], .job, .never,
    [⟨"PATH_A", 63, 48, .ro, .none, 0⟩,
     ⟨"PATH_B", 47, 32, .ro, .none, 0⟩,
     ⟨"PATH_C", 31, 16, .ro, .none, 0⟩,
     ⟨"FORCED", 15, 0, .ro, .none, 0⟩]⟩,
  ⟨"SEL_COUNT", .floor, 0x900, [], .job, .never,
    [⟨"PATH_A", 63, 48, .ro, .none, 0⟩,
     ⟨"PATH_B", 47, 32, .ro, .none, 0⟩,
     ⟨"PATH_C", 31, 16, .ro, .none, 0⟩,
     ⟨"FORCED", 15, 0, .ro, .none, 0⟩]⟩,
  ⟨"GROUP_W0", .hub, 0x6000, [(64, 256)], .reset, .group,
    [⟨"RULE", 63, 60, .rw, .k, 0⟩,
     ⟨"FROZEN", 59, 59, .rw, .k, 0⟩,
     ⟨"SKIP_IF_IDLE", 58, 58, .rw, .k, 0⟩,
     ⟨"NESTEROV", 57, 57, .rw, .k, 0⟩,
     ⟨"CLIP_EN", 56, 56, .rw, .k, 0⟩,
     ⟨"MASTER", 55, 55, .rw, .k, 0⟩,
     ⟨"WFMT", 54, 51, .rw, .k, 0⟩,
     ⟨"MFMT", 50, 47, .rw, .k, 0⟩,
     ⟨"VFMT", 46, 43, .rw, .k, 0⟩,
     ⟨"GFMT", 42, 39, .rw, .k, 0⟩,
     ⟨"WROUND", 38, 37, .rw, .k, 0⟩,
     ⟨"SROUND", 36, 35, .rw, .k, 0⟩,
     ⟨"SAT", 34, 34, .rw, .k, 0⟩]⟩,
  ⟨"GROUP_W1", .hub, 0x6008, [(64, 256)], .reset, .group,
    [⟨"BETA1", 63, 32, .rw, .k, 0⟩,
     ⟨"BETA2", 31, 0, .rw, .k, 0⟩]⟩,
  ⟨"GROUP_W2", .hub, 0x6010, [(64, 256)], .reset, .group,
    [⟨"EPS", 63, 32, .rw, .k, 0⟩,
     ⟨"DECAY", 31, 0, .rw, .k, 0⟩]⟩,
  ⟨"GROUP_W3", .hub, 0x6018, [(64, 256)], .reset, .group,
    [⟨"CLIP", 63, 32, .rw, .k, 0⟩]⟩,
  ⟨"STEP_W0", .hub, 0x5000, [(2048, 2)], .reset, .stepSlot,
    [⟨"T", 63, 32, .rw, .k, 0⟩,
     ⟨"VALID", 31, 31, .rw, .k, 0⟩,
     ⟨"NONFINITE_ACTION", 30, 30, .rw, .k, 0⟩,
     ⟨"REPLAY_LIMIT", 29, 26, .rw, .k, 0⟩,
     ⟨"SKIP_LIMIT", 25, 22, .rw, .k, 0⟩]⟩,
  ⟨"STEP_W1", .hub, 0x5008, [(2048, 2)], .reset, .stepSlot,
    [⟨"GRAD_SCALE", 63, 32, .rw, .k, 0⟩]⟩,
  ⟨"STEP_SIZE", .hub, 0x5040, [(2048, 2), (8, 128)], .reset, .stepSlot,
    [⟨"STEP_SIZE2IP1", 63, 32, .rw, .k, 0⟩,
     ⟨"STEP_SIZE2I", 31, 0, .rw, .k, 0⟩]⟩,
  ⟨"NORMTAB_W0", .floor, 0xC00, [(16, 256)], .reset, .job,
    [⟨"TALLY_HI", 63, 32, .rw, .k, 0⟩,
     ⟨"TALLY_LO", 31, 0, .rw, .k, 0⟩]⟩,
  ⟨"NORMTAB_W1", .floor, 0xC08, [(16, 256)], .reset, .job,
    [⟨"GROUP", 63, 56, .rw, .k, 0⟩,
     ⟨"VALID", 55, 55, .rw, .k, 0⟩]⟩,
  ⟨"COMMIT_CTRL", .hub, 0x4100, [], .reset, .job,
    [⟨"PENDING_DELTA", 63, 46, .rw, .k, 0⟩,
     ⟨"FP_SET", 45, 36, .rw, .k, 0⟩,
     ⟨"NORM_SET", 35, 26, .rw, .k, 0⟩,
     ⟨"VOTE_BEATS", 25, 18, .rw, .k, 4⟩,
     ⟨"VOTE_LATE_LIMIT", 17, 10, .rw, .k, 16⟩]⟩,
  ⟨"COMMIT_FENCES", .hub, 0x4108, [], .reset, .job,
    [⟨"NORM_FENCE", 63, 48, .rw, .k, 0⟩,
     ⟨"VOTE_FENCE", 47, 32, .rw, .k, 0⟩,
     ⟨"START_FENCE", 31, 16, .rw, .k, 0⟩]⟩]

/-- Registers of the catalogue, part 2. -/
def catalogue2 : List RegDesc := [
  ⟨"COMMIT_STATUS", .hub, 0x4110, [], .reset, .never,
    [⟨"T_COMMITTED", 63, 32, .ro, .none, 0⟩,
     ⟨"COMMIT_PARITY", 31, 31, .ro, .none, 0⟩,
     ⟨"SKIPPED", 30, 30, .ro, .none, 0⟩,
     ⟨"FP_MINORITY", 29, 29, .ro, .none, 0⟩,
     ⟨"NONFINITE", 28, 28, .ro, .none, 0⟩,
     ⟨"LOCAL_CAUSE", 27, 24, .ro, .none, 0⟩,
     ⟨"DOMAIN_CAUSE", 23, 20, .ro, .none, 0⟩]⟩,
  ⟨"FINGERPRINT", .hub, 0x4118, [], .reset, .never,
    [⟨"FINGERPRINT", 63, 0, .ro, .none, 0⟩]⟩,
  ⟨"NORM", .hub, 0x4120, [], .reset, .never,
    [⟨"S", 63, 32, .ro, .none, 0⟩,
     ⟨"N", 31, 0, .ro, .none, 0⟩]⟩,
  ⟨"UPD_COUNT0", .floor, 0xA00, [], .job, .never,
    [⟨"UPDATED", 63, 32, .ro, .none, 0⟩,
     ⟨"CARRIED", 31, 0, .ro, .none, 0⟩]⟩,
  ⟨"UPD_COUNT1", .floor, 0xA08, [], .job, .never,
    [⟨"FROZEN", 63, 48, .ro, .none, 0⟩,
     ⟨"SKEWS", 47, 32, .ro, .none, 0⟩,
     ⟨"NONFINITE_ELEMS", 31, 0, .ro, .none, 0⟩]⟩,
  ⟨"UPD_COUNTER", .floor, 0xA10, [], .reset, .never,
    [⟨"T_LOCAL", 31, 0, .ro, .none, 0⟩]⟩,
  ⟨"FENCE", .hub, 0x100000, [(16, 65536)], .reset, .job,
    [⟨"RELEASE_BEAT", 63, 24, .rw, .k, 0⟩,
     ⟨"PARTICIPANTS", 23, 12, .rw, .k, 0⟩,
     ⟨"DOMAIN", 11, 11, .rw, .k, 0⟩,
     ⟨"ACCEPT_SLIP", 10, 10, .rw, .k, 0⟩,
     ⟨"QUIESCE", 9, 9, .rw, .k, 0⟩,
     ⟨"STEP", 8, 8, .rw, .k, 0⟩]⟩,
  ⟨"WIN_W2", .hub, 0xA010, [(32, 64)], .reset, .never,
    [⟨"ACCEPTED", 63, 32, .ro, .none, 0⟩,
     ⟨"REFUSED", 31, 0, .ro, .none, 0⟩]⟩,
  ⟨"WIN_W0", .hub, 0xA000, [(32, 64)], .reset, .never,
    [⟨"VALID", 63, 63, .rw, .s, 0⟩,
     ⟨"OP_WRITE", 62, 62, .rw, .s, 0⟩,
     ⟨"OP_READ", 61, 61, .rw, .s, 0⟩,
     ⟨"OP_REDUCE", 60, 60, .rw, .s, 0⟩,
     ⟨"SIZE_LOG2", 59, 54, .rw, .s, 0⟩,
     ⟨"BASE", 47, 0, .rw, .s, 0⟩]⟩,
  ⟨"WIN_W1", .hub, 0xA008, [(32, 64)], .reset, .never,
    [⟨"SRC_LO", 63, 54, .rw, .s, 0⟩,
     ⟨"SRC_HI", 53, 44, .rw, .s, 0⟩,
     ⟨"SRC_STEP", 43, 34, .rw, .s, 0⟩]⟩,
  ⟨"LAT_DOMAIN", .hub, 0xB000, [], .reset, .form,
    [⟨"DOMAIN_INDEX", 63, 54, .rw, .k, 0⟩,
     ⟨"DOMAIN_LAST", 53, 44, .rw, .k, 0⟩,
     ⟨"PARENT_PORT", 43, 40, .rw, .k, 15⟩,
     ⟨"SUBTREE_LAST", 39, 30, .rw, .k, 0⟩,
     ⟨"AGREE_BEATS", 29, 24, .rw, .k, 4⟩,
     ⟨"FLOOD_BEATS", 23, 18, .rw, .k, 2⟩,
     ⟨"RETRAIN_SLIP", 17, 8, .rw, .k, 400⟩]⟩,
  ⟨"LAT_SETS", .hub, 0xB008, [], .reset, .form,
    [⟨"NORM_FIRST", 63, 54, .rw, .k, 0⟩,
     ⟨"NORM_NEXT", 53, 44, .rw, .k, 0⟩,
     ⟨"FP_NEXT", 43, 34, .rw, .k, 0⟩,
     ⟨"FP_PREV", 33, 24, .rw, .k, 0⟩]⟩,
  ⟨"LAT_COUNT", .hub, 0xB010, [], .job, .never,
    [⟨"VOID_AGREEMENTS", 63, 48, .ro, .none, 0⟩,
     ⟨"FLOODS", 47, 32, .ro, .none, 0⟩,
     ⟨"COLLISIONS", 31, 16, .ro, .none, 0⟩,
     ⟨"BEAT_SKEWS", 15, 0, .ro, .none, 0⟩]⟩,
  ⟨"PORT_W0", .hub, 0xB100, [(32, 12)], .reset, .never,
    [⟨"STATE", 63, 60, .ro, .none, 0⟩,
     ⟨"LANES", 59, 56, .ro, .none, 0⟩,
     ⟨"PARTNER", 55, 46, .ro, .none, 0⟩,
     ⟨"PARTNER_PORT", 45, 42, .ro, .none, 0⟩,
     ⟨"DELAY", 31, 16, .ro, .none, 0⟩,
     ⟨"BEAT_ERROR", 15, 0, .ro, .none, 0⟩]⟩,
  ⟨"PORT_W1", .hub, 0xB108, [(32, 12)], .job, .never,
    [⟨"CRC_ERRORS", 63, 32, .ro, .none, 0⟩,
     ⟨"RESENDS", 31, 16, .ro, .none, 0⟩,
     ⟨"RETRAINS", 15, 0, .ro, .none, 0⟩]⟩,
  ⟨"PORT_W2", .hub, 0xB110, [(32, 12)], .job, .never,
    [⟨"REFUSED", 63, 32, .ro, .none, 0⟩,
     ⟨"OVERFLOW_FLITS", 31, 0, .ro, .none, 0⟩]⟩,
  ⟨"HP_CTRL", .hub, 0xC000, [], .reset, .never,
    [⟨"MODE", 63, 62, .rw, .s, 0⟩,
     ⟨"VLAN_EN", 61, 61, .rw, .s, 0⟩,
     ⟨"VID", 60, 49, .rw, .s, 0⟩,
     ⟨"MAX_FRAME", 48, 35, .rw, .s, 9216⟩,
     ⟨"SMIPER_PORT", 34, 19, .rw, .s, 0⟩,
     ⟨"PTP_TRANSPORT", 18, 18, .rw, .s, 0⟩,
     ⟨"PTP_PORT", 17, 17, .rw, .s, 0⟩,
     ⟨"PTP_DOMAIN", 16, 9, .rw, .s, 0⟩]⟩,
  ⟨"HP_MAC", .hub, 0xC008, [], .reset, .never,
    [⟨"MAC_ADDR", 47, 0, .rw, .s, 0⟩]⟩,
  ⟨"HP_IPV4", .hub, 0xC010, [], .reset, .never,
    [⟨"IPV4_ADDR", 31, 0, .rw, .s, 0⟩]⟩,
  ⟨"HP_IPV6", .hub, 0xC018, [(8, 2)], .reset, .never,
    [⟨"IPV6_ADDR", 63, 0, .rw, .s, 0⟩]⟩,
  ⟨"HP_STATUS", .hub, 0xC028, [], .reset, .never,
    [⟨"LINK", 63, 62, .ro, .none, 0⟩,
     ⟨"PTP_STATE", 61, 60, .ro, .none, 0⟩,
     ⟨"PTP_OFFSET", 31, 0, .ro, .none, 0⟩]⟩,
  ⟨"HP_COUNT0", .hub, 0xC030, [], .reset, .never,
    [⟨"FRAMES_IN", 63, 32, .ro, .none, 0⟩,
     ⟨"FRAMES_DROPPED", 31, 0, .ro, .none, 0⟩]⟩,
  ⟨"HP_COUNT1", .hub, 0xC038, [], .reset, .never,
    [⟨"BUFFER_DROPS", 63, 32, .ro, .none, 0⟩,
     ⟨"LINK_LOSSES", 31, 16, .ro, .none, 0⟩,
     ⟨"TIME_STEPS", 15, 0, .ro, .none, 0⟩]⟩,
  ⟨"HP_TIME", .hub, 0xC040, [], .powerUp, .never,
    [⟨"TIME_NS", 63, 0, .ro, .none, 0⟩]⟩,
  ⟨"SM_STATE", .hub, 0xD000, [], .reset, .never,
    [⟨"SESSION", 63, 32, .ro, .none, 0⟩,
     ⟨"LAST_SEQ", 31, 0, .ro, .none, 0⟩]⟩,
  ⟨"SM_COUNT0", .hub, 0xD008, [], .reset, .never,
    [⟨"EXECUTED", 63, 32, .ro, .none, 0⟩,
     ⟨"DUPLICATES", 31, 16, .ro, .none, 0⟩,
     ⟨"DROPPED", 15, 0, .ro, .none, 0⟩]⟩,
  ⟨"SM_COUNT1", .hub, 0xD010, [], .reset, .never,
    [⟨"STALE", 63, 48, .ro, .none, 0⟩,
     ⟨"AHEAD", 47, 32, .ro, .none, 0⟩,
     ⟨"REFUSED", 31, 16, .ro, .none, 0⟩,
     ⟨"UNSEQUENCED", 15, 0, .ro, .none, 0⟩]⟩,
  ⟨"SEGTAB", .hub, 0x10000, [(8, 576)], .reset, .never,
    [⟨"VALID", 63, 63, .ro, .none, 0⟩,
     ⟨"PAIRED", 62, 62, .ro, .none, 0⟩,
     ⟨"JOB_SEG", 61, 44, .ro, .none, 0⟩,
     ⟨"PHYS_B", 19, 10, .ro, .none, 0⟩,
     ⟨"PHYS_A", 9, 0, .ro, .none, 0⟩]⟩,
  ⟨"JOB_STATE", .hub, 0xE000, [], .reset, .never,
    [⟨"STATE", 63, 60, .ro, .none, 0⟩,
     ⟨"QUIESCE_FENCE", 59, 44, .ro, .none, 0⟩,
     ⟨"JOB_ID", 31, 0, .ro, .none, 0⟩]⟩,
  ⟨"JOB_SEED", .hub, 0xE008, [], .reset, .never,
    [⟨"JOB_SEED", 63, 0, .ro, .none, 0⟩]⟩]

/-- Registers of the catalogue, part 3. -/
def catalogue3 : List RegDesc := [
  ⟨"JOB_SAVE", .hub, 0xE010, [], .reset, .never,
    [⟨"SAVE_ADDR", 47, 0, .ro, .none, 0⟩]⟩,
  ⟨"JOB_XLATE", .hub, 0xE018, [], .reset, .never,
    [⟨"PENDING", 63, 63, .w1c, .l, 0⟩,
     ⟨"LOCATION", 62, 55, .ro, .none, 0⟩,
     ⟨"CHANNEL", 54, 50, .ro, .none, 0⟩,
     ⟨"ADDR", 47, 0, .ro, .none, 0⟩]⟩,
  ⟨"JOB_COUNT", .hub, 0xE020, [], .job, .never,
    [⟨"XLATE_STOPS", 63, 32, .ro, .none, 0⟩,
     ⟨"PREEMPTIONS", 31, 16, .ro, .none, 0⟩,
     ⟨"RESUMES", 15, 0, .ro, .none, 0⟩]⟩,
  ⟨"FAULT_STATUS", .hub, 0xF000, [], .reset, .never,
    [⟨"SAFE", 63, 63, .ro, .none, 0⟩,
     ⟨"FAILED", 62, 62, .ro, .none, 0⟩,
     ⟨"SAFE_CAUSE", 61, 57, .ro, .none, 0⟩,
     ⟨"FP_MINORITY_SEEN", 2, 2, .w1c, .l, 0⟩,
     ⟨"LATENT", 1, 1, .w1c, .l, 0⟩,
     ⟨"ABORT_SENT", 0, 0, .w1c, .l, 0⟩]⟩,
  ⟨"FAULT_LAST0", .hub, 0xF008, [], .job, .never,
    [⟨"KIND", 63, 59, .ro, .none, 0⟩,
     ⟨"DISPOSITION", 58, 56, .ro, .none, 0⟩,
     ⟨"UNIT", 55, 48, .ro, .none, 0⟩,
     ⟨"PERSISTENT", 47, 47, .ro, .none, 0⟩,
     ⟨"BEAT", 31, 0, .ro, .none, 0⟩]⟩,
  ⟨"FAULT_LAST1", .hub, 0xF010, [], .job, .never,
    [⟨"RECORD_ID", 63, 48, .ro, .none, 0⟩,
     ⟨"LANE", 47, 40, .ro, .none, 0⟩,
     ⟨"ADDRESS", 39, 0, .ro, .none, 0⟩]⟩,
  ⟨"FAULT_COUNT", .hub, 0xF018, [], .job, .never,
    [⟨"LOCAL", 63, 48, .ro, .none, 0⟩,
     ⟨"ABORTS", 47, 32, .ro, .none, 0⟩,
     ⟨"DOUBLE_FAULTS", 31, 16, .ro, .none, 0⟩,
     ⟨"PERSISTENT", 15, 0, .ro, .none, 0⟩]⟩,
  ⟨"INTEG_CTRL", .hub, 0xF020, [], .reset, .job,
    [⟨"REPLAY_GAP", 7, 0, .rw, .k, 16⟩]⟩,
  ⟨"INTEG_COUNT", .bench, 0xB00, [], .job, .never,
    [⟨"RESIDUE", 63, 48, .ro, .none, 0⟩,
     ⟨"PARITY", 47, 32, .ro, .none, 0⟩,
     ⟨"RERUN_CYCLES", 31, 0, .ro, .none, 0⟩]⟩,
  ⟨"INTEG_COUNT", .floor, 0xB00, [], .job, .never,
    [⟨"RESIDUE", 63, 48, .ro, .none, 0⟩,
     ⟨"PARITY", 47, 32, .ro, .none, 0⟩,
     ⟨"RERUN_CYCLES", 31, 0, .ro, .none, 0⟩]⟩,
  ⟨"PWR_CTRL", .hub, 0xA800, [], .reset, .job,
    [⟨"T_WARN", 39, 32, .rw, .k, 95⟩,
     ⟨"POWER_LIMIT", 28, 16, .rw, .k, 8000⟩,
     ⟨"GATE_IDLE", 15, 0, .rw, .l, 256⟩]⟩,
  ⟨"PWR_STATUS", .hub, 0xA808, [], .reset, .never,
    [⟨"STATE", 63, 60, .ro, .none, 0⟩,
     ⟨"OVER", 59, 59, .ro, .none, 0⟩,
     ⟨"THERM_WARN", 58, 58, .ro, .none, 0⟩,
     ⟨"BASE_RESERVE", 57, 45, .ro, .none, 3600⟩,
     ⟨"FREE", 44, 32, .ro, .none, 4400⟩,
     ⟨"PACKAGE_MW", 31, 0, .ro, .none, 0⟩]⟩,
  ⟨"PWR_RAIL", .hub, 0xA810, [(8, 10)], .reset, .never,
    [⟨"RAIL_MW", 63, 32, .ro, .none, 0⟩,
     ⟨"RAIL_MV", 31, 16, .ro, .none, 0⟩]⟩,
  ⟨"PWR_TEMP0", .hub, 0xA860, [], .reset, .never,
    [⟨"D0_D3", 63, 0, .ro, .none, 0⟩]⟩,
  ⟨"PWR_TEMP1", .hub, 0xA868, [], .reset, .never,
    [⟨"HUB", 63, 48, .ro, .none, 0⟩]⟩,
  ⟨"PWR_TEMP2", .hub, 0xA870, [], .reset, .never,
    [⟨"C0_C3", 63, 0, .ro, .none, 0⟩]⟩,
  ⟨"PWR_TEMP3", .hub, 0xA878, [], .reset, .never,
    [⟨"C4_C7", 63, 0, .ro, .none, 0⟩]⟩,
  ⟨"LEAVE_COUNT", .hub, 0xA880, [], .job, .never,
    [⟨"GRANTS", 63, 32, .ro, .none, 0⟩,
     ⟨"REFUSALS", 31, 16, .ro, .none, 0⟩,
     ⟨"OVER_EVENTS", 15, 0, .ro, .none, 0⟩]⟩,
  ⟨"LEAVE_TABLE", .hub, 0xA900, [(8, 7)], .reset, .job,
    [⟨"MIN_UNITS", 47, 32, .ro, .none, 0⟩,
     ⟨"UNITS", 15, 0, .rw, .k, 0⟩]⟩,
  ⟨"BENCH_LEAVE", .bench, 0xD00, [], .reset, .job,
    [⟨"STANDING", 63, 48, .rw, .k, 0⟩,
     ⟨"HELD", 47, 32, .ro, .none, 0⟩,
     ⟨"LEAVE_WAIT_CYCLES", 31, 0, .ro, .none, 0⟩]⟩,
  ⟨"LC_STATUS", .hub, 0x1000, [], .reset, .never,
    [⟨"STATE", 63, 60, .ro, .none, 3⟩,
     ⟨"BOOT_SLOT", 59, 59, .ro, .none, 0⟩,
     ⟨"SLOT_FALLBACK", 58, 58, .ro, .none, 0⟩,
     ⟨"ROLLBACK", 57, 50, .ro, .none, 0⟩,
     ⟨"SEED_BANK", 49, 48, .ro, .none, 1⟩,
     ⟨"FW_VERSION", 31, 0, .ro, .none, 0⟩]⟩,
  ⟨"LC_CHALLENGE", .hub, 0x1008, [(8, 4)], .reset, .never,
    [⟨"CHALLENGE", 63, 0, .ro, .none, 0⟩]⟩,
  ⟨"LC_COUNT", .hub, 0x1028, [], .powerUp, .never,
    [⟨"ATTESTS", 63, 32, .ro, .none, 0⟩,
     ⟨"AUTH_FAILURES", 31, 16, .ro, .none, 0⟩,
     ⟨"FALLBACKS", 15, 0, .ro, .none, 0⟩]⟩,
  ⟨"BIST_HELD", .hub, 0x1100, [(8, 3)], .reset, .never,
    [⟨"BENCH_HELD", 63, 0, .ro, .none, 0⟩]⟩,
  ⟨"BIST_HELD3", .hub, 0x1118, [], .reset, .never,
    [⟨"PORT_HELD", 19, 8, .ro, .none, 0⟩,
     ⟨"FLOOR_HELD", 7, 0, .ro, .none, 0⟩]⟩,
  ⟨"BIST_COUNT", .hub, 0x1120, [], .powerUp, .never,
    [⟨"RUNS", 63, 32, .ro, .none, 0⟩,
     ⟨"FAILS", 31, 16, .ro, .none, 0⟩,
     ⟨"REPAIRS", 15, 0, .ro, .none, 0⟩]⟩,
  ⟨"FRZ_CTRL", .hub, 0x1200, [], .reset, .never,
    [⟨"PIN_ACTION", 63, 62, .rw, .l, 1⟩,
     ⟨"MATCH_ACTION", 61, 60, .rw, .l, 0⟩,
     ⟨"MATCH_EVENT", 59, 48, .rw, .l, 0⟩,
     ⟨"MATCH_MASK", 47, 36, .rw, .l, 0⟩,
     ⟨"MATCH_SOURCE", 35, 28, .rw, .l, 0⟩,
     ⟨"MATCH_ANY", 27, 27, .rw, .l, 0⟩,
     ⟨"MATCH_COUNT", 26, 11, .rw, .l, 1⟩]⟩,
  ⟨"FRZ_STATUS", .hub, 0x1208, [], .powerUp, .never,
    [⟨"FROZEN", 63, 63, .ro, .none, 0⟩,
     ⟨"CAUSE", 62, 61, .ro, .none, 0⟩,
     ⟨"LOCAL", 60, 60, .ro, .none, 0⟩,
     ⟨"MATCHES", 59, 44, .ro, .none, 0⟩,
     ⟨"FREEZE_BEAT", 31, 0, .ro, .none, 0⟩]⟩,
  ⟨"FRZ_COUNT", .hub, 0x1210, [], .powerUp, .never,
    [⟨"FREEZES", 63, 32, .ro, .none, 0⟩,
     ⟨"IGNORED", 31, 16, .ro, .none, 0⟩,
     ⟨"THAWS", 15, 0, .ro, .none, 0⟩]⟩,
  ⟨"LOG_STATUS", .hub, 0x1218, [], .powerUp, .never,
    [⟨"WRITE_SEQ", 63, 32, .ro, .none, 0⟩,
     ⟨"DRAIN_LOST", 31, 0, .ro, .none, 0⟩]⟩]

/-- Every register of device control space. -/
def catalogue : List RegDesc := catalogue0 ++ catalogue1 ++ catalogue2 ++ catalogue3

end Sys2Proof.Machine
end

