-- ==== Sys2Proof/Machine/State.lean ====
section
/-! DEFINITION. The state of the block: every register, memory, queue, buffer, counter, mode and pin the spec gives the
JL9, as plain data, and the state after reset. -/

namespace Sys2Proof.Machine

/-- The model stops with no fault: every command of the table has an effect or leaves the state as it is. -/
inductive Fault where
  deriving DecidableEq, Repr

/-- Why a command has no meaning. -/
inductive Refusal where
  /-- Raised by `exec` for a command that has no meaning in this model yet; safe, it stops where the hardware goes on. -/
  | notModelled (mnemonic : String)
  deriving DecidableEq, Repr

/-- One entry of the event log (21 R540), without its SEQ. -/
structure LogEntry where
  time : Nat
  beat : Nat
  cycle : Nat
  source : Nat
  event : Nat
  data : List W64
  deriving DecidableEq, Repr

/-- A tagged access waiting on its tags: the slots of its extent (bench × 16384 + slot), the tag it needs, and the
counted beat in which the wait began (07 R222 to R225). -/
structure Wait where
  slots : List Nat
  full : Bool
  since : Nat
  deriving DecidableEq, Repr

/-- A record in an engine's queue: its eight words; by operand number, the words of the shape records and programs it names as
they were read at its start (06 R182), or of the private copies of an issue of a ragged loop; that issue's count (05 R171). -/
structure Item where
  words : List W64
  shapes : List (Nat × List W64) := []
  count : Option Nat := none
  /-- False when a patched base lies beyond the scratchpad: the issue fails its check (05 R172). -/
  fits : Bool := true
  deriving DecidableEq, Repr

/-- A packet of a compacted stream: each element is (place in the window, element code, scale code) (04 R125). -/
structure Packet where
  rowValid : Bool
  rowEnd : Bool
  row : Nat
  window : Nat
  elems : List (Nat × Nat × Nat)
  deriving DecidableEq, Repr

/-- A lane-row record in progress (03 R77 to R105). -/
structure LaneRun where
  item : Item
  /-- Rows of the tile; in batch mode the rows taken so far. -/
  rows : Nat
  /-- False while a batch record gathers rows (03 R95). -/
  closed : Bool
  /-- Stream-ring position of row 0 and drain-ring position at the close (03 R94). -/
  sPos : Nat
  dPos : Nat
  /-- Next chunk and row to issue. -/
  chunk : Nat
  row : Nat
  /-- The stationary file of the current chunk, and whether that chunk is in it. -/
  file : Nat
  loaded : Bool
  /-- The chunk that follows is in the other file: the next chunk, or in the last chunk the next record's first one
  (03 R81). -/
  ahead : Bool := false
  /-- Window mask of the current chunk's tile, for a compacted record (04 R131). -/
  winMask : Nat
  wait : Option Wait
  deriving DecidableEq, Repr

/-- An accumulator row waiting to drain (03 R85, R86). -/
structure DrainRow where
  words : List W64
  acc : Nat
  off : Nat
  index : Nat
  tensor : Nat
  wait : Option Wait
  /-- The number of the record that drains the row, in the order in which records start. -/
  run : Nat := 0
  deriving DecidableEq, Repr

/-- The lane row of a bench. -/
structure LaneSt where
  queue : List Item := []
  cur : Option LaneRun := none
  drains : List DrainRow := []
  /-- The record started most recently since job load: the predecessor of the next (03 R83). -/
  pred : Option (List W64) := none
  /-- Records started (03 R85 orders a record's drained rows). -/
  starts : Nat := 0
  /-- The record at the head of the queue whose first chunk has been preloaded (03 R81). -/
  pre : Option Item := none
  /-- Stationary files, by file × 256 + logical lane, and the scale and code stores beside them (03 R80, 04 R123). -/
  files : SMap (List Byte) := []
  scales : SMap (List Byte) := []
  codes : SMap (List Byte) := []
  /-- Windows loaded into each file (04 R132). -/
  maskA : Nat := 0
  maskB : Nat := 0
  /-- The file the last record used (03 R102). -/
  lastFile : Nat := 1
  /-- Accumulators, by row × 256 + logical lane (03 R83). -/
  acc : SMap Nat := []
  /-- Batch ring positions (03 R94). -/
  sRing : Nat := 0
  dRing : Nat := 0
  /-- Packets from the awl not yet issued, and the window masks of the chunks they cover (04 R124, R131). -/
  packets : List Packet := []
  chunkMasks : List Nat := []
  deriving DecidableEq, Repr

/-- Where a whole-record engine stands: awl, last or vector engine. -/
structure EngRun where
  item : Item
  /-- 0 checked, 1 leave held, 2 source tags found, 3 destination tags found (18 R486, 07 R564). -/
  phase : Nat
  wait : Option Wait
  deriving DecidableEq, Repr

/-- A queue of eight and the record in progress. -/
structure EngSt where
  queue : List Item := []
  cur : Option EngRun := none
  deriving DecidableEq, Repr

/-- A ragged loop in progress: its record, the group table it read and the issues still to make (05 R171). -/
structure Ragged where
  words : List W64
  /-- Issues still to make: destination (0 lane row, 1 awl, 2 zeros under EMPTY_ACTION) and the item. -/
  todo : List (Nat × Item)
  issued : Nat
  noticed : Bool
  deriving DecidableEq, Repr

/-- Why a list reader does not read on. -/
inductive SeqState where
  | idle          -- no list, or the end mark reached
  | running
  | full (item : Item) (queue : Nat)   -- holds a record whose queue is full
  | selFence (words : List W64)        -- waits for a SELECT record's fence
  | selMaps (words : List W64)         -- a SELECT map had no segment
  | ragged (words : List W64)
  | translation   -- a list read had no segment (16 R565)
  | faulted       -- stopped by a schedule fault (17 R470)
  deriving DecidableEq, Repr

/-- What a completed ROUTE record leaves for the phases of its layer (05 R162, R164, R176): its mode, layer, step, routing group
and slot budget; DEVICE and LOCAL of every expert; FIRST_ROW and ROWS of every entry of its segment or return table. -/
structure Routed where
  mode : Nat
  layer : Nat
  step : Nat
  group : Nat
  budget : Nat
  experts : List (Nat × Nat)
  table : List (Nat × Nat)
  deriving DecidableEq, Repr

/-- One bench: sequencer and engines (03 R566). -/
structure Bench where
  list : Nat := 0
  pos : Nat := 0
  seq : SeqState := .idle
  /-- After a SELECT: the position at which the chosen path ends, and where the list goes on (11 R319). -/
  skip : List (Nat × Nat) := []
  raggedSt : Option Ragged := none
  raggedWait : Option Wait := none
  lane : LaneSt := {}
  awl : EngSt := {}
  last : EngSt := {}
  vec : EngSt := {}
  /-- ROUTE records completed, one for each mode, layer and routing group (05 R162). -/
  routed : List Routed := []
  /-- Scrub pointers of the 64 banks (07 R220). -/
  scrubPtr : SMap Nat := []
  /-- Corrected words waiting for their write-back, by scratchpad offset (07 R218). -/
  writeBacks : List Nat := []
  deriving DecidableEq, Repr

/-- An event on its way up the sync tree: ARRIVE, an overrun notice (08 R252, R253). `after` is the count of bulk
packets issued before it: the leaf holds the event until its own writes among them are acknowledged (08 R254). -/
inductive UpEvent where
  | arrive (rank fence after : Nat)
  | slipReq (rank beats record after : Nat)
  deriving DecidableEq, Repr

/-- Where a list reader of a floor or channel stands (16 R565, 17 R470). -/
inductive Reader where
  | idle | running | translation | faulted
  deriving DecidableEq, Repr

/-- A read burst of a channel (09 R264, R268): the source byte at which it begins, counted along the source stream (in a SHAPE
descriptor row × 2^32 + byte of the row's run); its physical address (in a LOG descriptor, its ring offset); whether it has
been issued, and its bytes once read. -/
structure ReadBurst where
  key : Nat
  addr : Nat
  len : Nat
  issued : Bool := false
  data : Option (List Byte) := none
  deriving DecidableEq, Repr

/-- A write burst taken and not yet ended (09 R264): stream position, length, destination, the pieces of read bursts it is
formed of (key, offset, bytes), whether its bytes have left the channel, and its wait for its slot's tag at the channel's own
port (09 R279). -/
structure Burst where
  pos : Nat
  len : Nat
  dst : Nat
  parts : List (Nat × Nat × Nat) := []
  sent : Bool := false
  wait : Option Wait := none
  deriving DecidableEq, Repr

/-- The descriptor a channel holds (09 R284, R285). `place` is where it lies, for word 7; `next` and `head` count stream
bytes issued and acknowledged, in the order the bursts are taken; `acked` lists bursts acknowledged beyond `head`; `reads` are
the read bursts whose bytes write bursts still need; `wait` is that of the next burst for its source slot. -/
structure ChanRun where
  words : List W64
  place : Option Nat
  shapeS : List W64 := []
  shapeD : List W64 := []
  next : Nat := 0
  head : Nat := 0
  acked : List (Nat × Nat) := []
  fly : List Burst := []
  reads : List ReadBurst := []
  begun : Bool := false
  limit : Option Nat := none
  limitSince : Option Nat := none
  wait : Option Wait := none
  stop : Option Nat := none
  retries : List (Nat × Nat) := []
  reported : Nat := 0
  /-- Bytes that this descriptor has overwritten at its own location, by physical address, with what they held before; kept
  where its ends lie in different spaces (06 R206). -/
  orig : List Host.Cell := []
  deriving DecidableEq, Repr

/-- A DMA channel (09 R261 to R264). `slot` is the status slot of a management command's descriptor. -/
structure Chan where
  queue : List (List W64 × Option Nat) := []
  list : Nat := 0
  pos : Nat := 0
  reader : Reader := .idle
  cur : Option ChanRun := none
  slot : Option Nat := none
  deriving DecidableEq, Repr

/-- A bulk packet in flight (08 R241). `kind` is the KIND code; `loc`, `ch` and `pos` name the write burst it belongs to, or
`part` the read burst: its key and one; `fe` is the slot-tag mode at its destination; `router` and `port` say where a REDUCE
packet arrives. A MULTICAST's targets are (bench, requester's location and channel, number of its request, `part`). -/
structure Pkt where
  id : Nat
  kind : Nat
  src : Nat
  dst : Nat
  addr : Nat
  len : Nat
  data : List Byte := []
  loc : Nat
  ch : Nat
  pos : Nat
  part : Nat := 0
  fe : Nat := 0
  wait : Option Wait := none
  /-- The merge window it has joined, by the number of the packet that opened it; whether that window has closed; the counted
  beat in which it joined (07 R229, R230). -/
  window : Option Nat := none
  closed : Bool := false
  joinedAt : Nat := 0
  redId : Nat := 0
  router : Nat := 0
  port : Nat := 0
  targets : List (Nat × Nat × Nat × Nat × Nat) := []
  cause : Nat := 0
  deriving DecidableEq, Repr

/-- A matched set in a router (08 R247). -/
structure RedSet where
  router : Nat
  redId : Nat
  addr : Nat
  len : Nat
  got : List (Nat × List Byte)
  /-- The beat, frozen ones not counted, in which its first contribution arrived (08 R248). -/
  since : Nat
  deriving DecidableEq, Repr

/-- The bulk network. -/
structure NetSt where
  pkts : List Pkt := []
  nextId : Nat := 0
  sets : List RedSet := []
  badLinks : List (Nat × Nat) := []
  deriving DecidableEq, Repr

/-- A cellar floor: stash engine, update engine, tally checker, scrubbers (10, 12). -/
structure FloorSt where
  stashList : Nat := 0
  stashPos : Nat := 0
  stash : Reader := .idle
  /-- After a SELECT, as in a bench (11 R320). -/
  stashSkip : List (Nat × Nat) := []
  /-- The stash record in progress: its words, and whether channel 7 carries it. -/
  stashCur : Option (List W64 × Bool) := none
  frames : List Nat := []
  updList : Nat := 0
  updPos : Nat := 0
  upd : Reader := .idle
  accum : Nat := 0
  nonfinite : Bool := false
  skewed : Bool := false
  updFault : Bool := false
  /-- The vote sent: cause, 0 for yes. -/
  vote : Option Nat := none
  fp : W64 := 0
  scrubPos : SMap Nat := []
  dieCounts : SMap Nat := []
  writeBacks : List Nat := []
  deriving DecidableEq, Repr

/-- A fence (08 R257). -/
structure FenceSt where
  arrived : List Nat := []
  released : Bool := false
  relBeat : Nat := 0
  req : Nat := 0
  firstDue : Option Nat := none
  timedOut : Bool := false
  deriving DecidableEq, Repr

/-- A poll or vote contribution: READY or YES, slip or cause, flags. -/
structure Contrib where
  ok : Bool
  num : Nat
  flags : Nat
  deriving DecidableEq, Repr

/-- A poll in progress: the beat it is for, this device's and its children's contributions, and the result (13 R365). -/
structure Poll where
  due : Nat
  own : Option Contrib := none
  kids : List (Nat × Contrib) := []
  sent : Bool := false
  result : Option Contrib := none
  deriving DecidableEq, Repr

/-- The step snapshot (11 R310). -/
structure Snap where
  ctrl : List (Nat × List Byte) := []
  frames : List (Nat × List Nat) := []
  stashPos : List (Nat × Nat) := []
  rings : List (Nat × Nat × Nat) := []
  tags : SMap Bool := []
  deriving DecidableEq, Repr

/-- The step (11 R308, 12 R333 to R348). A slip is (release beat of the slipped fence at that time, beats, fence): it
moves that fence and every later one. -/
structure StepSt where
  start : Nat := 0
  slips : List (Nat × Nat × Nat) := []
  snap : Option Snap := none
  /-- 0 before NORM_FENCE, 1 the device sum is formed, 2 it has been added and sent on, 3 S is known (13 R368). -/
  normStage : Nat := 0
  normSum : Nat := 0
  /-- The vote: opening and close beats, moves of the close (12 R347). -/
  opening : Nat := 0
  close : Nat := 0
  lateMoves : Nat := 0
  /-- FP_DIFF once known, fingerprints of other members by device, and whether round 1 has begun (13 R369). -/
  fpDiff : Option Bool := none
  fpSeen : List (Nat × W64) := []
  fpRound1 : Bool := false
  fpHeld : Bool := false
  /-- Votes of the children, the last combination sent, and the result with the beat at which it came. -/
  kids : List (Nat × Contrib) := []
  sentVote : Option Contrib := none
  agreed : Option (Contrib × Nat) := none
  /-- SKIPPED closes of this step number in a row (12 R348). -/
  skips : Nat := 0
  /-- The effect beat of an abort whose step is still to be replayed, the next replay poll, the agreed replay start
  (17 R476). -/
  replayFrom : Option Nat := none
  replayPoll : Nat := 0
  replayAt : Option Nat := none
  /-- An unrecovered fault of the step (12 R346). -/
  faulted : Bool := false
  /-- START_FENCE's next poll beat (12 R335). -/
  startPoll : Option Nat := none
  deriving DecidableEq, Repr

/-- The loaded job (16). -/
structure JobSt where
  lists : List Nat := []
  prologue : List Nat := []
  steps : Nat := 0
  committed : Nat := 0
  start : Nat := 0
  slips : List (Nat × Nat × Nat) := []
  inPrologue : Bool := false
  digest : List Byte := []
  /-- The join poll: the beat at which it takes place, whether this device is ready, and the agreed join beat (16 R447). -/
  joinPoll : Option Nat := none
  joinReady : Bool := false
  joinAt : Option Nat := none
  /-- 0 a start, 1 a resume, 2 after a thaw. -/
  joinKind : Nat := 0
  /-- Agreed slips of this beat that the root has still to broadcast: fence, beats (13 R366). -/
  agreedSlips : List (Nat × Nat) := []
  /-- A pre-emption flooded and not yet at its fence; the fence chosen. -/
  preempt : Bool := false
  preemptFence : Option Nat := none
  preemptAt : Option Nat := none
  quiesced : List Nat := []
  /-- Release beat of the quiesce fence. -/
  quiesceBeat : Nat := 0
  /-- An abort that waits for the resume beat (17 R479). -/
  abortHeld : Bool := false
  deriving DecidableEq, Repr

/-- A flit sent and not yet covered by ACK_SEQ (13 R356). -/
structure HeldFlit where
  seq : Nat
  flit : Flit
  resends : Nat := 0
  /-- The burst of the send channel that the flit carries, if any. -/
  burst : Option Nat := none
  deriving DecidableEq, Repr

/-- A flit of a segment (05 R162 to R165): its offset in the window, and a header's words or the job address and length of
the bytes it carries. -/
structure SegFlit where
  off : Nat
  head : List W64 := []
  src : Nat := 0
  len : Nat
  deriving DecidableEq, Repr

/-- The segments of an all-to-all phase: its descriptor and where that lies; the flits still to go in its own slots, none for a
slot the slot schedule reserves and no row fills, and those of its overflow slots; bytes sent (05 R163, R164). -/
structure Segments where
  desc : List W64
  place : Nat
  own : List (Option SegFlit) := []
  more : List SegFlit := []
  sent : Nat := 0
  deriving DecidableEq, Repr

/-- A phase in progress on a send channel (13 R361): flits of its first unsent burst already sent, nominal beats gone by
once its start fence is released, whether a collision has been reported, and the segments of an all-to-all phase. -/
structure Phase where
  words : List W64
  sub : Nat := 0
  used : Option Nat := none
  collided : Bool := false
  segs : Option Segments := none
  deriving DecidableEq, Repr

/-- A READ_REQ to be answered: requester, address of the next byte, window, offset and bytes left (13 R377). -/
structure ReadReq where
  dst : Nat
  addr : Nat
  window : Nat
  offset : Nat
  left : Nat
  deriving DecidableEq, Repr

/-- A Wiltus port (13). -/
structure PortSt where
  sendSeq : Nat := 0
  held : List HeldFlit := []
  /-- Flits of bursts that ACK_SEQ covers, until the next service flit from the partner (13 R355, R375). -/
  covered : List HeldFlit := []
  recvNext : Nat := 0
  /-- Received beyond a gap. -/
  early : List Nat := []
  /-- Flits missed, with the beat in which each was (13 R356, R376). -/
  gaps : List (Nat × Nat) := []
  msgs : List (Nat × List W64) := []
  /-- Resends requested, with the beat of the request (13 R356). -/
  resend : List (Nat × Nat) := []
  /-- Flits still to be sent again after retraining (13 R372). -/
  replay : List Nat := []
  skewBeats : Nat := 0
  reads : List ReadReq := []
  /-- SUBTREE_LAST of the partner, from its BEAT message (13 R357, R358). -/
  subLast : Nat := 0
  /-- Time at which the partner's last CAL message came, in units of 0.125 ns (13 R357, R359). -/
  calAt : Nat := 0
  list : Nat := 0
  pos : Nat := 0
  reader : Reader := .idle
  phase : Option Phase := none
  /-- The last record's slots and the last beat in which it may send, for collisions (13 R363). -/
  lastSlots : Nat × Nat := (0, 0)
  lastBeat : Option Nat := none
  deriving DecidableEq, Repr

/-- A context saved in a save area: what 16 R451 lists of the bench, floor and hub state (log entry 8). -/
structure Saved where
  tags : SMap Bool
  bench : SMap Bench
  chans : SMap Chan
  floors : SMap FloorSt
  fences : SMap FenceSt
  step : StepSt
  job : JobSt
  windows : List (Nat × W64)
  /-- The ports, for their phase positions. -/
  ports : SMap PortSt
  stepState : W64
  commit : W64
  deriving DecidableEq, Repr

/-- A flood seen: KIND, key, smallest event beat, word 3, and whether it has been acted on (13 R370). -/
structure Flood where
  kind : Nat
  key : W64
  event : Nat
  target : Nat
  done : Bool
  deriving DecidableEq, Repr

/-- The lattice. -/
structure LatSt where
  ports : SMap PortSt := []
  floods : List Flood := []
  /-- Polls in progress, oldest first, each with its fence (13 R365). -/
  polls : List (Nat × Poll) := []
  /-- Floods this device has begun, by kind: ABORT, PREEMPT, FREEZE; DEGRADE counts by port. -/
  aborts : Nat := 0
  preempts : Nat := 0
  freezes : Nat := 0
  degrades : SMap Nat := []
  /-- REDUCE_ADD flits waiting behind a flit to be resent: beat, position and port, flit (13 R376). -/
  adds : List ((Nat × Nat × Nat) × Flit) := []
  badTypes : Nat := 0
  deriving DecidableEq, Repr

/-- The package around the device (19, 20, 22). -/
inductive Phase0 where
  | off | aon | released | noFirmware | run
  deriving DecidableEq, Repr

/-- Boot and always-on state. -/
structure BootSt where
  phase : Phase0 := .run
  service : Bool := false
  powerUp : Bool := false
  /-- Three copies of T_COMMITTED and COMMIT_PARITY (17 R478). -/
  commitCopies : List (Nat × Nat) := [(0, 0), (0, 0), (0, 0)]
  fwDigest : List Byte := []
  trainTimeout : List Nat := []
  /-- The firmware slot that RECOVERY_ERASE erased last (22 R561). -/
  erased : Option Nat := none
  deriving DecidableEq, Repr

/-- Pins (22 R546). ALERT_N is computed. -/
structure PinSt where
  resetN : Bool := true
  pwrgood : Bool := true
  vddAon : Bool := true
  freezeN : Bool := true
  thermtripN : Bool := true
  freezeArmed : Bool := true
  smbAddr : Nat := 0x58
  deriving DecidableEq, Repr

/-- The time base and PTP (14 R394 to R396). TIME_NS is the register HP_TIME. -/
structure TimeSt where
  frac : Nat := 0
  /-- Steered increment of one always-on cycle, in units of 2^−32 ns. -/
  inc : Nat := 40 * 2 ^ 32
  transmitter : Option Nat := none
  quality : List Nat := []
  sync : Option PtpMsg := none
  good : Nat := 0
  delayReq : Option (Nat × Nat) := none
  delay : Int := 0
  lastSync : Option (Nat × Nat) := none
  deriving DecidableEq, Repr

/-- A reply kept for a resent command (15 R405, R406). -/
structure Cached where
  seq : W32
  opcode : Nat
  tag : BitVec 16
  crc : W32
  reply : Option (Nat × Nat × List W64)
  deriving DecidableEq, Repr

/-- The Smiper session (15 R405). SESSION and LAST_SEQ are the register SM_STATE. -/
structure SmiperSt where
  cache : List Cached := []
  lastBeat : Nat := 0
  /-- Sequenced commands held during VOTING or behind one that is, with their opcodes (15 R407). -/
  heldCmds : List (Nat × Hdr × List W64) := []
  deriving DecidableEq, Repr

/-- A long operation that has been accepted and has not ended (15 R415 to R420). -/
structure LongOp where
  slot : Nat
  opcode : Nat
  params : List W64
  running : Bool
  /-- What is left for the completion row: set once the checks of a load or an update have passed. -/
  ready : Bool := false
  note : List Nat := []
  deriving DecidableEq, Repr

/-- A BIST region: its code and mask; its stage: 0 waits, 1 leave granted, 2 runs, 3 has ended; its start beat; whether
leave has been asked (20 R522). -/
structure Region where
  code : Nat
  mask : Nat
  stage : Nat
  beat : Nat := 0
  asked : Bool := false
  /-- The bench save slot it uses while it runs (20 R518). -/
  slot : Nat := 0
  deriving DecidableEq, Repr

/-- A request for leave that waits: bench number, or 144 the hub for a cellar-wide operation, or 145 + i for BIST region i;
and its units (18 R488). -/
structure LeaveReq where
  who : Nat
  units : Nat
  deriving DecidableEq, Repr

/-- Freeze and thaw (21 R529 to R535). -/
structure FrzSt where
  /-- A pending freeze: beat, cause, local. -/
  pending : Option (Nat × Nat × Bool) := none
  thawAt : Option Nat := none
  /-- Beat at which the freeze took effect. -/
  beat : Nat := 0
  wasRunning : Bool := false
  deriving DecidableEq, Repr

/-- Suspect sites and the last fault of each recovery domain (17 R471, R472): a site is (kind, unit, detail). -/
structure FaultSt where
  suspects : List (Nat × Nat × Nat) := []
  last : SMap Nat := []
  deriving DecidableEq, Repr

/-- What the block has put out: Smiper replies, host frames, SMBus answers, lattice messages. -/
inductive Out where
  /-- A Smiper reply: its destination, opcode, result, detail, echoed SEQUENCE, TAG, SESSION, EXPECTED, and its block
  (15 R400, R402). -/
  | reply (src : Source) (opcode result detail : Nat) (seq : W32) (tag : BitVec 16) (session expected : W32)
      (block : List W64)
  /-- A frame on a host port (14). -/
  | frame (port : Nat) (bytes : List Byte)
  /-- A PTP Delay_Req (14 R395). -/
  | delayReq (domain seqId : Nat)
  /-- A flit on a Wiltus port (13 R353). -/
  | flit (port : Nat) (f : Flit)
  /-- An SMBus answer (22 R560). -/
  | smb (bytes : List Byte)
  /-- An SMBus NACK (22 R559). -/
  | smbNack
  /-- Bits shifted out of the test access port (21 R536). -/
  | tap (bits : List W64)
  deriving DecidableEq, Repr

/-- Everything in the package but the fuses and the queue of commands. -/
structure Dev where
  /-- Physical memory, by address (01 R26): unlisted bytes read zero (log entry 2). -/
  mem : List Host.Cell := []
  /-- Stored errors: 1 correctable, 3 uncorrectable, 16 + n of die n, by word or codeword address (07 R218, 10 R294). -/
  errs : SMap Nat := []
  /-- Slot tags, by bench × 16384 + slot (07 R222); true is full. -/
  tags : SMap Bool := []
  /-- Stored errors of tag words, by bench × 256 + word (07 R221). -/
  tagErrs : SMap Nat := []
  /-- Device control space, by address; an unlisted register holds its reset value (00 R12). -/
  regs : SMap W64 := []
  /-- Writes of class S not yet in effect, in order: address, value, mask (00 R17, R18). -/
  staged : List (Nat × W64 × W64) := []
  /-- Counters of 02 R71, by unit × 4 + counter (bench 0 to 143, floor 144 to 151). -/
  arith : SMap Nat := []
  /-- Beats of the always-on count, and beats that count toward timeouts (07 R225, 21 R532). -/
  aonBeat : Nat := 0
  countedBeats : Nat := 0
  /-- Beats that were not frozen (21 R532). -/
  liveBeats : Nat := 0
  /-- Beats gone by since power-up, whatever they were numbered. -/
  ageBeats : Nat := 0
  /-- The log ring by ring index, the entries in their hold, and the count of all entries (21 R538, R539). -/
  log : SMap (Option LogEntry) := []
  logHeld : List LogEntry := []
  bench : SMap Bench := []
  outbox : List Out := []
  /-- The upward queue of the sync root, oldest first (08 R252). -/
  upq : List UpEvent := []
  /-- Units granted to each bench beyond STANDING, and the largest need of the beat so far (18 R487). -/
  granted : SMap Nat := []
  maxNeed : SMap Nat := []
  /-- The MODEL's own count of free values taken (log entry 1). -/
  free : Nat := 0
  /-- DMA channels, by location × 32 + channel (09 R261): bench b, floor 144 + k, hub 152. -/
  chans : SMap Chan := []
  net : NetSt := {}
  floors : SMap FloorSt := []
  /-- Fences, by number. -/
  fences : SMap FenceSt := []
  step : StepSt := {}
  job : JobSt := {}
  /-- Contexts in save areas, by JOB_ID (16 R451; log entry 8). -/
  saved : SMap (Option Saved) := []
  lat : LatSt := {}
  /-- The serial flash; an unlisted byte reads 0xFF (19 R509). -/
  flash : List Host.Cell := []
  boot : BootSt := {}
  pins : PinSt := {}
  time : TimeSt := {}
  /-- Announced slip beats still to run (07 R225). -/
  slipLeft : Nat := 0
  smiper : SmiperSt := {}
  /-- Long operations in acceptance order, and the result areas of the 256 slots (15 R419). -/
  ops : List LongOp := []
  results : SMap (List (List W64)) := []
  /-- The status word of the last BIST operation that ended, and the digest of its records (19 R515). -/
  lastBist : W64 := 0
  lastBistDigest : List Byte := []
  /-- The beat of a scheduled warm reset (15 R435), and of a reset or power state that follows a reply. -/
  resetAt : Option Nat := none
  /-- Requests for leave waiting at the steward, oldest first (18 R488). -/
  leaveQ : List LeaveReq := []
  /-- Units granted to cellar-wide operations and BIST. -/
  hubGrant : Nat := 0
  /-- Bench dies and floors in REST (bit d, bit 4 + k), gated clock domains, PLLs not locked (18 R492 to R497). -/
  resting : List Nat := []
  gated : List Nat := []
  unlocked : List Nat := []
  /-- Sensors at warning (18 R498). -/
  hotSensors : List Nat := []
  /-- Power of each rail in the last 100 measurements, newest first (18 R491). -/
  railHist : List (List Nat) := []
  bist : List Region := []
  frz : FrzSt := {}
  faults : FaultSt := {}
  deriving DecidableEq, Repr

/-- A seed bank: no fuse blown, a seed with its CRC, abandoned, or destroyed (19 R505, R506). -/
inductive SeedBank where
  | unblown
  | seed (bits : List Byte)
  | abandoned
  | destroyed
  deriving DecidableEq, Repr

/-- The fuses (19 R502, R506, R510; 03 R107): what a step can change only one way. -/
structure Fuses where
  /-- Fuses blown of state words 1 to 5. -/
  lcWords : List Nat := [8, 8, 8, 0, 0]
  banks : List SeedBank := [.seed (List.replicate 32 0), .unblown]
  rollback : Nat := 0
  /-- Fused bypass sets, by bench (03 R107). -/
  laneMaps : SMap Nat := []
  serial : W64 := 0
  mac : BitVec 48 := 0
  deriving DecidableEq, Repr

/-- The state of the block: the waiting commands, the fuses, everything else. -/
structure State where
  pending : List Instr := []
  fuses : Fuses := {}
  dev : Dev := {}
  deriving DecidableEq, Repr

/-- The machine after reset: booted, idle, no job, every port down (log entry 3). -/
def State.reset : State := {}

/-- Change the device. -/
def State.upd (s : State) (f : Dev → Dev) : Host.Outcome State Fault Refusal := .next { s with dev := f s.dev }

/-- Change the device, reading the fuses. -/
def State.updF (s : State) (f : Fuses → Dev → Dev) : Host.Outcome State Fault Refusal :=
  .next { s with dev := f s.fuses s.dev }

end Sys2Proof.Machine
end

