-- ==== Sys2Proof/Machine/Ops.lean ====
section
/-! DEFINITION. The named operations over registers, memory, tags, counters and the log. -/

namespace Sys2Proof.Machine

/-! ### Registers (00 R12 to R20) -/

/-- Whether an offset is one of the places of an array of registers. -/
def inReps : List (Nat × Nat) → Nat → Bool
  | [], o => o == 0
  | (s, c) :: t, o => decide (o / s < c) && inReps t (o % s)

/-- The area and the offset within its block of a control address. -/
def areaOf (a : Nat) : Option (Area × Nat) :=
  if 0xFF00000000 ≤ a ∧ a < 0xFF01000000 then some (.hub, a - 0xFF00000000)
  else if 0xFF01000000 ≤ a ∧ a < 0xFF01000000 + 144 * 0x10000 then some (.bench, (a - 0xFF01000000) % 0x10000)
  else if 0xFF02000000 ≤ a ∧ a < 0xFF02000000 + 8 * 0x10000 then some (.floor, (a - 0xFF02000000) % 0x10000)
  else none

/-- The catalogue's entry for a control address. -/
def findReg (a : Nat) : Option RegDesc :=
  match areaOf a with
  | none => none
  | some (ar, o) => catalogue.find? (fun r => r.area = ar && r.off ≤ o && inReps r.reps (o - r.off))

/-- A register's reset value (00 R12; log entry 12 where the spec gives none). -/
def RegDesc.resetValue (r : RegDesc) : W64 := r.fields.foldl (fun w f => putFld w f.hi f.lo f.reset) 0

/-- What an unlisted control address reads as: the register's reset value, or zero. -/
def regReset (a : Nat) : W64 := match findReg a with | some r => r.resetValue | none => 0

/-- The bits of a register that hold a field; Reserved bits read zero (00 R15). -/
def RegDesc.usedMask (r : RegDesc) : W64 := r.fields.foldl (fun w f => w ||| fldMask f.hi f.lo) 0

/-- Read a register. -/
def Dev.reg (d : Dev) (a : Nat) : W64 := SMap.get regReset d.regs a

/-- Write a register as the JL9 does, whatever its access code. -/
def Dev.setReg (d : Dev) (a : Nat) (v : W64) : Dev := { d with regs := SMap.set regReset d.regs a v }

/-- Read a field. -/
def Dev.get (d : Dev) (f : Fld) : Nat := fld (d.reg f.addr) f.hi f.lo

/-- Write a field. -/
def Dev.set (d : Dev) (f : Fld) (v : Nat) : Dev := d.setReg f.addr (putFld (d.reg f.addr) f.hi f.lo v)

/-- The largest value of a field. -/
def Fld.max (f : Fld) : Nat := 2 ^ (f.hi + 1 - f.lo) - 1

/-- Add to a counter, which stops at its largest value. -/
def Dev.addTo (d : Dev) (f : Fld) (n : Nat) : Dev := if n = 0 then d else d.set f (min f.max (d.get f + n))

/-- Count one. -/
def Dev.inc (d : Dev) (f : Fld) : Dev := d.addTo f 1

/-! ### Free values (log entry 1) -/

/-- The next free value, and the state with the count advanced. -/
def Dev.free? (d : Dev) : W64 × Dev := (Config.freeWord d.free, { d with free := d.free + 1 })

/-- `n` free words. -/
def Dev.freeWords : Nat → Dev → List W64 × Dev
  | 0, d => ([], d)
  | n + 1, d =>
    let (v, d) := d.free?
    let (l, d) := Dev.freeWords n d
    (v :: l, d)

/-- Advance a counter of cycles by an amount the model does not time (log entry 5). -/
def Dev.addCycles (d : Dev) (f : Fld) : Dev :=
  let (v, d) := d.free?
  d.addTo f v.toNat

/-! ### Memory: one canonical list of cells (01 R26, 00 R11) -/

/-- What an unlisted byte reads as (log entry 2). -/
def Memory.unlisted (_ : Nat) : Byte := 0

/-- The canonical form of memory. -/
abbrev Memory.wf (m : List Host.Cell) : Prop := SMap.wf Memory.unlisted m = true

/-- Read one byte. -/
def Memory.read (m : List Host.Cell) (a : Nat) : Byte := SMap.get Memory.unlisted m a

/-- Read `n` bytes. -/
def Memory.readRun (m : List Host.Cell) (a n : Nat) : List Byte :=
  let part : List Host.Cell := m.filter (fun c => a ≤ c.1 && c.1 < a + n)
  (List.range n).map (fun i => Memory.read part (a + i))

/-- The cells of a run of bytes: zeros are not listed. -/
def Memory.cells : Nat → List Byte → List Host.Cell
  | _, [] => []
  | a, b :: t => if b = 0 then Memory.cells (a + 1) t else (a, b) :: Memory.cells (a + 1) t

/-- Write a run of bytes. -/
def Memory.writeRun (m : List Host.Cell) (a : Nat) (l : List Byte) : List Host.Cell :=
  m.filter (fun c => c.1 < a) ++ Memory.cells a l ++ m.filter (fun c => a + l.length ≤ c.1)

/-- Write zero over a range. -/
def Memory.zero (m : List Host.Cell) (a n : Nat) : List Host.Cell :=
  m.filter (fun c => c.1 < a || a + n ≤ c.1)

/-- First byte of bench b's scratchpad (07 R210). -/
def spBase (b : Nat) : Nat := 0xF000000000 + 0x800000 * b

/-- The size of a scratchpad. -/
abbrev spSize : Nat := 0x800000

/-- The size of all cellars together. -/
abbrev cellarEnd : Nat := 0x9000000000

/-- The physical range lies in the cellars or the scratchpads (01 R26, R27). -/
def physOk (a n : Nat) : Bool :=
  decide (a + n ≤ cellarEnd) || (decide (0xF000000000 ≤ a) && decide (a + n ≤ 0xF048000000))

/-- Bytes of physical memory. -/
def Dev.bytes (d : Dev) (a n : Nat) : List Byte := Memory.readRun d.mem a n

/-- Bytes of bench b's scratchpad. -/
def Dev.sp (d : Dev) (b off n : Nat) : List Byte := d.bytes (spBase b + off) n

/-- `n` words of bench b's scratchpad. -/
def Dev.spWords (d : Dev) (b off n : Nat) : List W64 := bytesWords n (d.sp b off (8 * n))

/-- A word of physical memory. -/
def Dev.word (d : Dev) (a : Nat) : W64 := w64 (ofLe (d.bytes a 8))

/-- Where the ECC word of an address begins: 8 B in a scratchpad, 64 B in a cellar (07 R218, 10 R294). -/
def eccWord (a : Nat) : Nat := if a < cellarEnd then a / 64 * 64 else a / 8 * 8

/-- The ECC words from the one that holds `a` to the one that holds `a + n − 1`, with a stored error. -/
def Dev.errIn (d : Dev) (a n : Nat) : List (Nat × Nat) :=
  d.errs.filter (fun e => decide (eccWord a ≤ e.1) && decide (e.1 < a + n))

/-- The first uncorrectable word a read of the range meets. -/
def Dev.badRead (d : Dev) (a n : Nat) : Option Nat :=
  ((d.errIn a n).find? (fun e => e.2 = 3)).map Prod.fst

/-- The cellar that holds a physical cellar address (10 R292). -/
def cellarOf (a : Nat) : Nat := (a / 2 ^ 12 % 8) ^^^ (a / 2 ^ 23 % 8)

/-- What a stored error of the codeword at an address becomes under its cellar's mark: beside the marked die's symbols one
further symbol error is correctable, so an error of another die is not, and one of up to four symbols is if it has one (10 R294;
log entry 85). -/
def Dev.codeError (d : Dev) (a e : Nat) : Nat :=
  if d.get (Reg.CELLAR_DIE_MARK_VALID (cellarOf a)) ≠ 1 then e
  else if 16 ≤ e then (if e - 16 = d.get (Reg.CELLAR_DIE_MARKED_DIE (cellarOf a)) then 1 else 3)
  else if e = 1 then (if Config.oneSymbol a then 1 else 3)
  else e

/-- The first word of a physical range that a read finds uncorrectable, under the die marks. -/
def Dev.badPhys (d : Dev) (a n : Nat) : Option Nat :=
  ((d.errIn a n).find? (fun e => e.2 = 3 ||
    (decide (e.1 < cellarEnd) && decide (d.codeError e.1 e.2 = 3)))).map Prod.fst

/-- The first uncorrectable word that a write of the range covers only in part (07 R219, 10 R294). -/
def Dev.badWrite (d : Dev) (a n : Nat) : Option Nat :=
  ((d.errIn a n).find? (fun e => (e.2 = 3 || (decide (e.1 < cellarEnd) && decide (d.codeError e.1 e.2 = 3))) &&
    let w := if e.1 < cellarEnd then 64 else 8
    !(decide (a ≤ e.1) && decide (e.1 + w ≤ a + n)))).map Prod.fst

/-- Write bytes: words covered whole are encoded afresh, and an unfinished write-back of them is dropped (07 R218, R219,
10 R294). The caller has found `badWrite` none. -/
def Dev.wr (d : Dev) (a : Nat) (l : List Byte) : Dev :=
  if l.isEmpty then d else
  { d with mem := Memory.writeRun d.mem a l
           errs := d.errs.filter (fun e => !(decide (eccWord a ≤ e.1) && decide (e.1 < a + l.length))) }

/-- Write bytes of bench b's scratchpad. -/
def Dev.spWr (d : Dev) (b off : Nat) (l : List Byte) : Dev := d.wr (spBase b + off) l

/-- Write a little-endian word of `n` bytes. -/
def Dev.wrLe (d : Dev) (a n v : Nat) : Dev := d.wr a (toLe n v)

/-- Zero a physical range, with valid check symbols (10 R297, 07 R232). -/
def Dev.zeroRange (d : Dev) (a n : Nat) : Dev :=
  { d with mem := Memory.zero d.mem a n
           errs := d.errs.filter (fun e => e.1 + 8 ≤ a || a + n ≤ e.1) }

/-! ### Benches -/

/-- Bench b. -/
def Dev.bn (d : Dev) (b : Nat) : Bench := SMap.get (fun _ => {}) d.bench b

/-- Replace bench b. -/
def Dev.setBn (d : Dev) (b : Nat) (x : Bench) : Dev := { d with bench := SMap.set (fun _ => {}) d.bench b x }

/-- Change bench b. -/
def Dev.onBn (d : Dev) (b : Nat) (f : Bench → Bench) : Dev := d.setBn b (f (d.bn b))

/-! ### Slot tags (07 R222, R223) -/

/-- The slots, as keys, of a run of scratchpad bytes. -/
def slotRun (b off n : Nat) : List Nat :=
  if n = 0 then [] else
  (List.range ((off + n - 1) / 512 + 1 - off / 512)).map (fun i => 16384 * b + off / 512 + i)

/-- A slot's tag. -/
def Dev.tag (d : Dev) (k : Nat) : Bool := SMap.get (fun _ => false) d.tags k

/-- Set the tags of slots. -/
def Dev.setTags (d : Dev) (ks : List Nat) (v : Bool) : Dev :=
  { d with tags := ks.foldl (fun m k => SMap.set (fun _ => false) m k v) d.tags }

/-- Every slot of an extent holds the tag required. -/
def Dev.tagsAre (d : Dev) (ks : List Nat) (v : Bool) : Bool := ks.all (fun k => d.tag k == v)

/-- The stored error of the tag word that holds a slot's tag: 0 none, 1 correctable, 3 uncorrectable (07 R221). -/
def Dev.tagErr (d : Dev) (k : Nat) : Nat := SMap.get (fun _ => 0) d.tagErrs (k / 64)

/-- A tag word of the extent holds an uncorrectable error (07 R221). -/
def Dev.tagBad (d : Dev) (ks : List Nat) : Option Nat := ks.find? (fun k => d.tagErr k = 3)

/-- Tag words of the extent with a single-bit error are corrected, and counted (07 R221). -/
def Dev.tagFix (d : Dev) (ks : List Nat) : Dev :=
  ks.foldl (fun d k => if d.tagErr k = 1 then
    ({ d with tagErrs := SMap.erase d.tagErrs (k / 64) } : Dev).inc (Reg.SP_TAG_TAG_CORRECTED (k / 16384)) else d) d

/-! ### Counters of 02 R71 -/

/-- Add event counts to a unit's four counters, which stop at their largest value. -/
def Dev.count (d : Dev) (unit : Nat) (c : Cnt) : Dev :=
  let add (m : SMap Nat) (i n : Nat) : SMap Nat :=
    if n = 0 then m else
      SMap.set (fun _ => 0) m (unit * 4 + i) (min 0xFFFFFFFF (SMap.get (fun _ => 0) m (unit * 4 + i) + n))
  { d with arith := add (add (add (add d.arith 0 c.nans) 1 c.infs) 2 c.sats) 3 c.repl }

/-- One of a unit's four counters. -/
def Dev.arithOf (d : Dev) (unit i : Nat) : Nat := SMap.get (fun _ => 0) d.arith (unit * 4 + i)

/-! ### Beat, job, log -/

/-- The current beat number at the root (08 R256). -/
def Dev.beat (d : Dev) : Nat := d.get Reg.SYNC_BEAT_BEAT

/-- Job states (16 R442). -/
abbrev jsNone : Nat := 0
abbrev jsLoading : Nat := 1
abbrev jsLoaded : Nat := 2
abbrev jsRunning : Nat := 3
abbrev jsPreempting : Nat := 4
abbrev jsPreempted : Nat := 5
abbrev jsResuming : Nat := 6
abbrev jsUnloading : Nat := 7
abbrev jsEnded : Nat := 8

/-- JOB_STATE. -/
def Dev.js (d : Dev) : Nat := d.get Reg.JOB_STATE_STATE

/-- A job is loaded: every state but NONE (00 R19). -/
def Dev.jobLoaded (d : Dev) : Bool := d.js ≠ jsNone

/-- The clocks stand still: the device is frozen, or does not run its firmware: in reset, booting, tripped (21 R531,
22 R554, 18 R499). -/
def Dev.frozen (d : Dev) : Bool := d.get Reg.FRZ_STATUS_FROZEN = 1 || d.boot.phase ≠ .run

/-- The job stands still: the device is frozen, or has thawed and not yet joined its domain again (21 R534, R535). -/
def Dev.paused (d : Dev) : Bool := d.frozen || d.frz.wasRunning

/-- The device is in Safe (17 R484). -/
def Dev.safe (d : Dev) : Bool := d.get Reg.FAULT_STATUS_SAFE = 1

/-- The power state: 0 ACTIVE, 1 IDLE, 2 REST, 3 VAULT (18 R495). -/
def Dev.power (d : Dev) : Nat := d.get Reg.PWR_STATUS_STATE

/-- Source rank of the always-on domain in the log (21 R540). -/
abbrev srcAon : Nat := 168

/-- An event goes to the log unit: stamped and held (21 R539). The network cycle of its stamp is not timed by the model;
an event of the always-on domain carries 0x7FF (log entry 5). -/
def Dev.logEv (d : Dev) (source event : Nat) (data : List W64) : Dev :=
  let aon := source = srcAon
  let (v, d) := d.free?
  let e : LogEntry :=
    { time := d.get Reg.HP_TIME_TIME_NS
      beat := if aon then d.aonBeat else d.beat
      cycle := if aon then 0x7FF else v.toNat % 1500
      source := source, event := event, data := data }
  { d with logHeld := d.logHeld ++ [e] }

/-- The words of a log entry, with its SEQ (21 R540). -/
def LogEntry.words (x : LogEntry) (seq : Nat) : List W64 :=
  ([w64 x.time, w64 x.beat, ([(63, 53, x.cycle), (52, 45, x.source), (44, 33, x.event), (31, 0, seq % 2 ^ 32)] : List (Nat × Nat × Nat)).foldl
      (fun w f => putFld w f.1 f.2.1 f.2.2) 0] ++ x.data ++ List.replicate (5 - x.data.length) 0)

/-- Source rank of a fault's unit (08 R251, 17 R484): bench, floor, hub (management controller) or port. -/
def rankOfUnit (u : Nat) : Nat :=
  if u < 144 then 16 + u else if u < 152 then 160 + (u - 144) else if u = 152 then 1 else 3 + (u - 153)

/-- A word of 64 bits from fields (hi, lo, value). -/
def packFlds (l : List (Nat × Nat × Nat)) : W64 := l.foldl (fun w f => putFld w f.1 f.2.1 f.2.2) 0

/-- JOB_STATE moves, and the move is logged (21 R541). -/
def Dev.setJs (d : Dev) (new : Nat) : Dev :=
  let old := d.js
  if old = new then d
  else (d.set Reg.JOB_STATE_STATE new).logEv 1 0x040 [packFlds [(3, 0, old), (7, 4, new)]]

/-- Append to the outbox. -/
def Dev.send (d : Dev) (o : Out) : Dev := { d with outbox := d.outbox ++ [o] }

end Sys2Proof.Machine
end

