-- ==== Sys2Proof/Machine/Layout.lean ====
section
/-! DEFINITION. Shape records and the packing of tensors (06 R182 to R197). -/

namespace Sys2Proof.Machine

/-- Result codes that checks give (15 R403). -/
abbrev eParameter : Nat := 0x11
abbrev eFormat : Nat := 0x13
abbrev eAlignment : Nat := 0x14
abbrev eOverlap : Nat := 0x15

/-- A list of checks: the first that fails decides. -/
def firstFail (l : List (Bool × Nat)) : Option Nat := (l.find? (fun p => !p.1)).map Prod.snd

/-- A shape record's fields (06 R182). -/
structure Shape where
  tag : Nat
  fmt : Nat
  mx : Bool
  rank : Nat
  blockAxis : Nat
  loc : Bool
  indexFill : Bool
  tally : Bool
  fill : Nat
  table : Nat
  base : Nat
  scaleBase : Nat
  ext : List Nat
  str : List Nat
  tallyBase : Nat
  deriving DecidableEq, Repr

/-- The fields of sixteen words. -/
def Shape.ofWords (w : List W64) : Shape :=
  { tag := fld (wd w 0) 63 56, fmt := fld (wd w 0) 55 52, mx := bit (wd w 0) 51, rank := fld (wd w 0) 50 48
    blockAxis := fld (wd w 0) 47 45, loc := bit (wd w 0) 44, indexFill := bit (wd w 0) 43, tally := bit (wd w 0) 42
    fill := fld (wd w 1) 63 32, table := fld (wd w 1) 31 9
    base := fld (wd w 2) 47 0, scaleBase := fld (wd w 3) 47 0
    ext := (List.range 6).map (fun i => fld (wd w (4 + i)) 63 40)
    str := (List.range 6).map (fun i => fld (wd w (4 + i)) 39 0)
    tallyBase := fld (wd w 10) 63 32 }

/-- Extent of dimension d. -/
def Shape.e (s : Shape) (d : Nat) : Nat := s.ext.getD d 0
/-- Stride of dimension d. -/
def Shape.st (s : Shape) (d : Nat) : Nat := s.str.getD d 0
/-- Element width in bits. -/
def Shape.w (s : Shape) : Nat := fmtBits s.fmt
/-- The extents below RANK. -/
def Shape.exts (s : Shape) : List Nat := s.ext.take s.rank
/-- The number of elements. -/
def Shape.count (s : Shape) : Nat := s.exts.foldl (· * ·) 1
/-- Bytes of one row. -/
def Shape.rowBytes (s : Shape) : Nat := ceilDiv (s.e 0 * s.w) 8
/-- The number of rows. -/
def Shape.rows (s : Shape) : Nat := (s.exts.drop 1).foldl (· * ·) 1

/-- The coordinates of number i in mixed radix, first extent fastest. -/
def coordsOf : List Nat → Nat → List Nat
  | [], _ => []
  | e :: t, i => i % e :: coordsOf t (i / e)

/-- The number of coordinates in mixed radix, first extent fastest. -/
def indexOf : List Nat → List Nat → Nat
  | e :: t, x :: xs => x + e * indexOf t xs
  | _, _ => 0

/-- Byte address of a row, by its coordinates from dimension 1 up (06 R183). -/
def Shape.rowAddr (s : Shape) (outer : List Nat) : Nat :=
  s.base + (List.zipWith (· * ·) outer (s.str.drop 1)).foldl (· + ·) 0

/-- The coordinates of row r in row-major order. -/
def Shape.rowCoords (s : Shape) (r : Nat) : List Nat := coordsOf (s.exts.drop 1) r

/-- Take `n` elements of `w` bits from a little-endian number (06 R187). -/
def unpackBits (w : Nat) : Nat → Nat → List Nat
  | 0, _ => []
  | n + 1, v => v % 2 ^ w :: unpackBits w n (v / 2 ^ w)

/-- Pack elements of `w` bits into a little-endian number. -/
def packBits (w : Nat) : List Nat → Nat
  | [] => 0
  | x :: t => x % 2 ^ w + 2 ^ w * packBits w t

/-- Elements to bytes (06 R187). -/
def packElems (w : Nat) (l : List Nat) : List Byte := toLe (ceilDiv (l.length * w) 8) (packBits w l)

/-- Bytes to elements. -/
def unpackElems (w n : Nat) (l : List Byte) : List Nat := unpackBits w n (ofLe l)

/-- Number of scale bytes of an MX tensor (06 R189). -/
def Shape.scaleCount (s : Shape) : Nat := s.count / 32

/-- Index of an element's scale in the scale array: the block index fastest, then the other dimensions (06 R189). -/
def Shape.scaleIndex (s : Shape) (x : List Nat) : Nat :=
  let a := s.blockAxis
  let es := (s.e a / 32) :: (s.exts.eraseIdx a)
  let xs := (x.getD a 0 / 32) :: (x.eraseIdx a)
  indexOf es xs

/-- The byte ranges of a shape's footprint (06 R206). -/
def Shape.footprint (s : Shape) : List (Nat × Nat) :=
  let span := ((List.range (s.rank - 1)).map (fun i => (s.e (i + 1) - 1) * s.st (i + 1))).foldl (· + ·) 0
  (s.base, span + s.rowBytes) :: (if s.mx then [(s.scaleBase, s.scaleCount)] else [])

/-- Coordinates lie inside extents, as many as both lists have. -/
def coordsIn (x es : List Nat) : Bool := (List.zipWith (fun (v e : Nat) => decide (v < e)) x es).all id

/-- The bytes that hold the first `n` elements of the row at coordinates `outer`, and their scales: none where the
coordinates lie outside the tensor. -/
def Shape.rowPart (s : Shape) (n : Nat) (outer : List Nat) : List (Nat × Nat) :=
  let n := min n (s.e 0)
  if !coordsIn outer (s.exts.drop 1) || n = 0 then [] else
  (s.rowAddr outer, ceilDiv (n * s.w) 8) ::
    (if !s.mx then []
     else if s.blockAxis = 0 then [(s.scaleBase + s.scaleIndex (0 :: outer), ceilDiv n 32)]
     else (List.range n).map (fun x => (s.scaleBase + s.scaleIndex (x :: outer), 1)))

/-- The bytes of every element of a tensor, row by row, and their scales: strides may leave gaps between the rows. -/
def Shape.ranges (s : Shape) : List (Nat × Nat) :=
  (List.range s.rows).flatMap (fun r => s.rowPart (s.e 0) (s.rowCoords r))

/-- The bytes of the first `n` elements in row-major order. -/
def Shape.firstRanges (s : Shape) (n : Nat) : List (Nat × Nat) :=
  (List.range (ceilDiv n (s.e 0))).flatMap (fun r => s.rowPart (n - r * s.e 0) (s.rowCoords r))

/-- The bytes of the slice at outermost coordinate `i` (06 R190): none outside the tensor. A rank-1 tensor's slice is one
element. -/
def Shape.sliceRanges (s : Shape) (i : Nat) : List (Nat × Nat) :=
  if s.rank = 1 then
    if s.e 0 ≤ i then []
    else (s.base + i * s.w / 8, ceilDiv (i * s.w % 8 + s.w) 8) ::
      (if s.mx then [(s.scaleBase + i / 32, 1)] else [])
  else
    let mid := (s.exts.dropLast).drop 1
    (List.range (mid.foldl (· * ·) 1)).flatMap (fun r => s.rowPart (s.e 0) (coordsOf mid r ++ [i]))

/-- Two lists of byte ranges share a byte. -/
def rangesMeet (a b : List (Nat × Nat)) : Bool :=
  a.any (fun p => b.any (fun q => decide (p.1 < q.1 + q.2) && decide (q.1 < p.1 + p.2)))

/-- Every range lies in an 8 MiB scratchpad. -/
def rangesInSp (l : List (Nat × Nat)) : Bool := l.all (fun p => decide (p.1 + p.2 ≤ spSize))

/-- The checks of 06 R184, R188 and R189 that hold for every engine; `mxOk` says which formats may be block-scaled. -/
def Shape.check (s : Shape) (mxOk : Nat → Bool) : Option Nat :=
  firstFail [
    (s.tag = 0x53, eParameter), (1 ≤ s.rank && s.rank ≤ 6, eParameter), (s.fmt ≤ 14, eParameter),
    (s.exts.all (· ≠ 0), eParameter), ((s.ext.drop s.rank).all (· = 0), eParameter),
    (s.st 0 = 0 && (s.str.drop s.rank).all (· = 0), eParameter),
    (!s.mx || mxOk s.fmt, eParameter), (!s.mx || s.blockAxis < s.rank, eParameter),
    (!((s.fmt = fmtE3M2 || s.fmt = fmtE2M3) && s.e 0 % 4 ≠ 0), eParameter),
    (!((s.fmt = fmtE2M1 || s.fmt = fmtINT4) && s.e 0 % 2 ≠ 0), eParameter),
    (!s.mx || s.e s.blockAxis % 32 = 0, eParameter)]

/-- The further checks of a bench engine: LOCAL, within the scratchpad, aligned (06 R185, R192). -/
def Shape.checkLocal (s : Shape) (align : Nat) : Option Nat :=
  firstFail [
    (s.loc && s.base < spSize && (!s.mx || s.scaleBase < spSize), eParameter),
    (s.base % align = 0 && (s.str.drop 1).all (· % align = 0) && (!s.mx || s.scaleBase % 8 = 0), eAlignment),
    (rangesInSp s.footprint, eParameter)]

/-- Remove repeats, keeping the last of each. -/
def uniq (l : List Nat) : List Nat := l.foldr (fun x a => if a.contains x then a else x :: a) []

/-- The slots of ranges of bench b's scratchpad. -/
def rangeSlots (b : Nat) (l : List (Nat × Nat)) : List Nat := uniq (l.flatMap (fun p => slotRun b p.1 p.2))

/-- Each run begins and ends on a slot boundary (07 R222). -/
def rangesSlotted (l : List (Nat × Nat)) : Bool := l.all (fun p => p.1 % 512 = 0 && (p.1 + p.2) % 512 = 0)

/-- Read the element codes of a row of a LOCAL shape. -/
def Dev.rdRow (d : Dev) (b : Nat) (s : Shape) (outer : List Nat) : List Nat :=
  unpackElems s.w (s.e 0) (d.sp b (s.rowAddr outer) s.rowBytes)

/-- Write the element codes of a row of a LOCAL shape. -/
def Dev.wrRow (d : Dev) (b : Nat) (s : Shape) (outer : List Nat) (l : List Nat) : Dev :=
  d.spWr b (s.rowAddr outer) (packElems s.w l)

/-- Read one element code of a LOCAL shape. -/
def Dev.rdElem (d : Dev) (b : Nat) (s : Shape) (x : List Nat) : Nat :=
  let bitOff := x.getD 0 0 * s.w
  let a := s.rowAddr (x.drop 1) + bitOff / 8
  ofLe (d.sp b a 5) / 2 ^ (bitOff % 8) % 2 ^ s.w

/-- Write one element code of a LOCAL shape, keeping the other bits of its bytes. -/
def Dev.wrElem (d : Dev) (b : Nat) (s : Shape) (x : List Nat) (v : Nat) : Dev :=
  let bitOff := x.getD 0 0 * s.w
  let a := s.rowAddr (x.drop 1) + bitOff / 8
  let n := ceilDiv (bitOff % 8 + s.w) 8
  let old := ofLe (d.sp b a n)
  let k := bitOff % 8
  d.spWr b a (toLe n (old - old / 2 ^ k % 2 ^ s.w * 2 ^ k + v % 2 ^ s.w * 2 ^ k))

/-- The scale codes of the elements of a row of an MX tensor; 127 for any other. -/
def Dev.rdRowScales (d : Dev) (b : Nat) (s : Shape) (outer : List Nat) : List Nat :=
  if s.mx then
    (List.range (s.e 0)).map (fun x0 => ((d.sp b (s.scaleBase + s.scaleIndex (x0 :: outer)) 1).headD 0).toNat)
  else List.replicate (s.e 0) 127

/-- The values of a row: MX elements under 02 R48, others as they stand. -/
def Dev.rowVals (d : Dev) (b : Nat) (s : Shape) (outer : List Nat) : List Val :=
  if s.mx then List.zipWith (decodeMx s.fmt) (d.rdRowScales b s outer) (d.rdRow b s outer)
  else (d.rdRow b s outer).map (decodeElem s.fmt false)

/-- The shape record at an offset of bench b's scratchpad. -/
def Dev.shapeAt (d : Dev) (b off : Nat) : Shape := Shape.ofWords (d.spWords b off 16)

/-- The bytes of the ranges hold no uncorrectable word of bench b's scratchpad. -/
def Dev.badRanges (d : Dev) (b : Nat) (l : List (Nat × Nat)) : Option Nat :=
  l.findSome? (fun p => d.badRead (spBase b + p.1) p.2)

/-- A word that a write of the ranges would cover only in part is uncorrectable (07 R219). -/
def Dev.badWriteRanges (d : Dev) (b : Nat) (l : List (Nat × Nat)) : Option Nat :=
  l.findSome? (fun p => d.badWrite (spBase b + p.1) p.2)

/-- Reads of the ranges correct their single-bit errors: each is counted and waits for its write-back (07 R218). -/
def Dev.correctReads (d : Dev) (b : Nat) (l : List (Nat × Nat)) : Dev :=
  let found := uniq (((l.flatMap (fun p => d.errIn (spBase b + p.1) p.2)).filter (fun e => e.2 = 1)).map (fun e => e.1 - spBase b))
  let fresh := found.filter (fun o => !(d.bn b).writeBacks.contains o)
  if fresh.isEmpty then d else
  (d.onBn b (fun x => { x with writeBacks := x.writeBacks ++ fresh })).addTo (Reg.SP_ECC_CORRECTED b) fresh.length

/-- Words with a single-bit error that a write of the ranges covers only in part are read and corrected: each is counted
(07 R218, R219). -/
def Dev.correctParts (d : Dev) (b : Nat) (l : List (Nat × Nat)) : Dev :=
  let part (p : Nat × Nat) : List Nat := ((d.errIn (spBase b + p.1) p.2).filter (fun e =>
    decide (e.2 = 1) && !(decide (spBase b + p.1 ≤ e.1) && decide (e.1 + 8 ≤ spBase b + p.1 + p.2)))).map Prod.fst
  d.addTo (Reg.SP_ECC_CORRECTED b) (uniq (l.flatMap part)).length

/-! ### Indices (06 R190, R194) -/

/-- Formats of an index operand. -/
def indexFormat (f : Nat) : Bool := f = fmtINT32 || f = fmtINT16 || f = fmtUINT32

/-- What an index becomes against an outermost extent, and its counts (negative, high): CLAMP bounds it, FILL passes it
down (06 R194). -/
def indexRule (fill : Bool) (extent : Nat) (v : Int) : Int × Nat × Nat :=
  if v < 0 then (if fill then v else 0, 1, 0)
  else if (extent : Int) ≤ v then (if fill then v else (extent : Int) - 1, 0, 1)
  else (v, 0, 0)

end Sys2Proof.Machine
end

