-- ==== Sys2Proof/Machine/Space.lean ====
section
/-! DEFINITION. Access to channels, floors, fences and ports; the job address space (16 R437 to R441); the status page and
long operations (15 R415 to R422); the serial flash (19 R509); floods this device begins (13 R370). -/

namespace Sys2Proof.Machine

/-! ### Units of State -/

/-- Channel `ch` of location `loc`. -/
def Dev.chan (d : Dev) (loc ch : Nat) : Chan := SMap.get (fun _ => {}) d.chans (loc * 32 + ch)

/-- Replace a channel. -/
def Dev.setChan (d : Dev) (loc ch : Nat) (c : Chan) : Dev :=
  { d with chans := SMap.set (fun _ => {}) d.chans (loc * 32 + ch) c }

/-- Change a channel. -/
def Dev.onChan (d : Dev) (loc ch : Nat) (f : Chan → Chan) : Dev := d.setChan loc ch (f (d.chan loc ch))

/-- Change the descriptor a channel holds. -/
def Dev.onRun (d : Dev) (loc ch : Nat) (f : ChanRun → ChanRun) : Dev :=
  d.onChan loc ch (fun c => { c with cur := c.cur.map f })

/-- Floor k. -/
def Dev.floor (d : Dev) (k : Nat) : FloorSt := SMap.get (fun _ => {}) d.floors k

/-- Change floor k. -/
def Dev.onFloor (d : Dev) (k : Nat) (f : FloorSt → FloorSt) : Dev :=
  { d with floors := SMap.set (fun _ => {}) d.floors k (f (d.floor k)) }

/-- Fence f. -/
def Dev.fence (d : Dev) (f : Nat) : FenceSt := SMap.get (fun _ => {}) d.fences f

/-- Change fence f. -/
def Dev.onFence (d : Dev) (f : Nat) (g : FenceSt → FenceSt) : Dev :=
  { d with fences := SMap.set (fun _ => {}) d.fences f (g (d.fence f)) }

/-- Wiltus port p. -/
def Dev.port (d : Dev) (p : Nat) : PortSt := SMap.get (fun _ => {}) d.lat.ports p

/-- Change port p. -/
def Dev.onPort (d : Dev) (p : Nat) (f : PortSt → PortSt) : Dev :=
  { d with lat := { d.lat with ports := SMap.set (fun _ => {}) d.lat.ports p (f (d.port p)) } }

/-- A leaf sends ARRIVE of a fence (08 R253). -/
def Dev.arrive (d : Dev) (rank fence : Nat) : Dev := { d with upq := d.upq ++ [.arrive rank fence d.net.nextId] }

/-- The source rank of a location (08 R251). -/
def rankOfLoc (loc : Nat) : Nat := if loc < 144 then 16 + loc else if loc < 152 then 160 + (loc - 144) else 15

/-! ### The job address space (16 R437 to R440) -/

/-- Where a job address lies: its physical address, and 0 for an unpaired segment or the aperture, 1 for a committed view,
2 for a pending view. -/
structure Xl where
  phys : Nat
  view : Nat
  deriving DecidableEq, Repr

/-- The valid entries of the segment table. -/
def Dev.segTable (d : Dev) : List W64 :=
  ((d.regs.filter (fun e => decide (0xFF00010000 ≤ e.1) && decide (e.1 < 0xFF00010000 + 8 * 576))).map Prod.snd).filter
    (fun w => bit w 63)

abbrev segPaired (w : W64) : Bool := bit w 62
abbrev segJob (w : W64) : Nat := fld w 61 44
abbrev segB (w : W64) : Nat := fld w 19 10
abbrev segA (w : W64) : Nat := fld w 9 0

/-- Translate a job address (16 R437, R440). -/
def Dev.xlate (d : Dev) (a : Nat) : Option Xl :=
  let s := a / 2 ^ 30
  let off := a % 2 ^ 30
  if 0x40000 ≤ s then none
  else if 0x3FC00 ≤ s then
    let p := a - 0xFF0000000000
    if p < 0x48000000 then some ⟨0xF000000000 + p, 0⟩ else none
  else
    let delta := d.get Reg.COMMIT_CTRL_PENDING_DELTA
    let flip := d.get Reg.COMMIT_STATUS_COMMIT_PARITY = 1
    let hit (w : W64) : Option Xl :=
      if segJob w = s then
        (if segPaired w then some ⟨2 ^ 30 * (if flip then segB w else segA w) + off, 1⟩
         else some ⟨2 ^ 30 * segA w + off, 0⟩)
      else if segPaired w && decide (segJob w + delta = s) then
        some ⟨2 ^ 30 * (if flip then segA w else segB w) + off, 2⟩
      else none
    d.segTable.findSome? hit

/-- The runs of a job range, one for each segment it touches; none when a byte has no segment. -/
def Dev.xlateRange (d : Dev) : Nat → Nat → Nat → Option (List (Xl × Nat))
  | 0, _, n => if n = 0 then some [] else none
  | f + 1, a, n =>
    if n = 0 then some []
    else
      let m := min n (2 ^ 30 - a % 2 ^ 30)
      match d.xlate a, d.xlateRange f (a + m) (n - m) with
      | some x, some l => some ((x, m) :: l)
      | _, _ => none

/-- The physical runs of a job range. -/
def Dev.jobRuns (d : Dev) (a n : Nat) : Option (List (Xl × Nat)) := d.xlateRange (n / 2 ^ 30 + 2) a n

/-- The bytes of a job range, when all of it is mapped. -/
def Dev.jobBytes (d : Dev) (a n : Nat) : Option (List Byte) :=
  (d.jobRuns a n).map (fun l => l.flatMap (fun r => d.bytes r.1.phys r.2))

/-- Write bytes to physical runs, in order. -/
def Dev.wrRuns (d : Dev) : List (Xl × Nat) → List Byte → Dev
  | [], _ => d
  | r :: t, l => Dev.wrRuns (d.wr r.1.phys (l.take r.2)) t (l.drop r.2)

/-- A translation stop: recorded if JOB_XLATE is clear, counted and logged (16 R441, R565). -/
def Dev.xlateStop (d : Dev) (loc ch a : Nat) : Dev :=
  let d := (d.inc Reg.JOB_COUNT_XLATE_STOPS).logEv (rankOfLoc loc) 0x022 [packFlds [(7, 0, loc), (12, 8, ch)], w64 a]
  if d.get Reg.JOB_XLATE_PENDING = 1 then d
  else d.setReg Reg.JOB_XLATE (packFlds [(63, 63, 1), (62, 55, loc), (54, 50, ch), (47, 0, a)])

/-- A reader's view of eight words at a job address. -/
inductive Fetch where
  | words (w : List W64)
  | translation
  | uncorrectable (phys : Nat)
  deriving DecidableEq, Repr

/-- Read `n` words at a job address. -/
def Dev.fetch (d : Dev) (a n : Nat) : Fetch :=
  match d.jobRuns a (8 * n) with
  | none => .translation
  | some l =>
    match l.findSome? (fun r => d.badPhys r.1.phys r.2) with
    | some p => .uncorrectable p
    | none => .words (bytesWords n (l.flatMap (fun r => d.bytes r.1.phys r.2)))

/-! ### The status page (15 R415 to R419) -/

/-- Status word i (10 R299). -/
abbrev statusAddr (i : Nat) : Nat := 0x8FC0000000 + 8 * i

/-- Read a status word. -/
def Dev.status (d : Dev) (i : Nat) : W64 := d.word (statusAddr i)

/-- Write one word of a codeword that holds more: an uncorrectable codeword keeps its contents and is counted, and a corrected
one counts (10 R294). -/
def Dev.wrWord (d : Dev) (a : Nat) (w : W64) : Dev :=
  let k := cellarOf a
  match d.badWrite a 8 with
  | some _ => d.inc (Reg.CELLAR_ECC_UNCORRECTABLE k)
  | none =>
    let d := (d.errIn a 8).foldl (fun d e =>
      if e.2 = 1 ∧ d.get (Reg.CELLAR_DIE_MARK_VALID k) ≠ 1 then d.inc (Reg.CELLAR_ECC_CORRECTED k)
      else
        let die := e.2 - 16
        (d.inc (Reg.CELLAR_ECC_DIE_CORRECTIONS k)).onFloor k (fun f =>
          if e.2 < 16 || d.get (Reg.CELLAR_DIE_MARK_VALID k) = 1 then f
          else { f with dieCounts := SMap.set (fun _ => 0) f.dieCounts die (SMap.get (fun _ => 0) f.dieCounts die + 1) })) d
    d.wrLe a 8 w.toNat

/-- Write a status word. -/
def Dev.setStatus (d : Dev) (i : Nat) (w : W64) : Dev := d.wrWord (statusAddr i) w

/-- Change a field of a status word. -/
def Dev.setStatusFld (d : Dev) (i hi lo v : Nat) : Dev := d.setStatus i (putFld (d.status i) hi lo v)

/-- Raise PROGRESS; it never decreases (15 R416). -/
def Dev.progress (d : Dev) (i v : Nat) : Dev := d.setStatusFld i 59 50 (max v (fld (d.status i) 59 50))

/-- Append a result record and raise PARTIAL (15 R419). -/
def Dev.addResult (d : Dev) (i : Nat) (r : List W64) : Dev :=
  let l := SMap.get (fun _ => []) d.results i ++ [r ++ List.replicate (8 - r.length) 0]
  let d := { d with results := SMap.set (fun _ => []) d.results i l }
  d.setStatusFld i 49 34 l.length

/-- The end states of 15 R417. -/
abbrev stDone : Nat := 3
abbrev stFailed : Nat := 4
abbrev stAborted : Nat := 5

/-- The operation of a slot ends (15 R417); the last BIST operation that ended is remembered (19 R515). -/
def Dev.opEnd (d : Dev) (slot state err : Nat) : Dev :=
  let w := putFld (putFld (d.status slot) 63 60 state) 33 26 err
  let w := if state = stDone then putFld w 59 50 1000 else w
  let d := { d.setStatus slot w with ops := d.ops.filter (fun o => o.slot ≠ slot) }
  if fld w 17 2 % 128 = 0x03 ∧ fld w 17 2 / 256 = 5 then
    { d with lastBist := w, lastBistDigest := shake256 64 (wordsBytes (SMap.get (fun _ => []) d.results slot).flatten) }
  else d

/-- End every live operation that a test picks. -/
def Dev.endOps (d : Dev) (p : LongOp → Bool) (state err : Nat) : Dev :=
  (d.ops.filter p).foldl (fun d o => d.opEnd o.slot state err) d

/-- The live operation of a slot. -/
def Dev.opOf (d : Dev) (slot : Nat) : Option LongOp := d.ops.find? (fun o => o.slot = slot)

/-- The basic form of an opcode (15 R410). -/
def basicOp (c : Nat) : Nat := c / 256 * 256 + c % 128

/-- A running operation with the given basic opcode. -/
def Dev.runningOp (d : Dev) (c : Nat) : Option LongOp := d.ops.find? (fun o => o.running && decide (basicOp o.opcode = c))

/-- Change a live operation. -/
def Dev.onOp (d : Dev) (slot : Nat) (f : LongOp → LongOp) : Dev :=
  { d with ops := d.ops.map (fun o => if o.slot = slot then f o else o) }

/-! ### The serial flash (19 R509) -/

/-- Read a run of flash bytes. -/
def Dev.flashRead (d : Dev) (a n : Nat) : List Byte :=
  let part : List Host.Cell := d.flash.filter (fun c => a ≤ c.1 && c.1 < a + n)
  (List.range n).map (fun i => SMap.get (fun _ => (0xFF : Byte)) part (a + i))

/-- The cells of a run of flash bytes: erased bytes are not listed. -/
def flashCells : Nat → List Byte → List Host.Cell
  | _, [] => []
  | a, b :: t => if b = 0xFF then flashCells (a + 1) t else (a, b) :: flashCells (a + 1) t

/-- Write a run of flash bytes. -/
def Dev.flashWrite (d : Dev) (a : Nat) (l : List Byte) : Dev :=
  { d with flash := d.flash.filter (fun c => c.1 < a) ++ flashCells a l ++ d.flash.filter (fun c => a + l.length ≤ c.1) }

/-- The field repair record: SEQUENCE, bypass maps, die marks, and the byte of causes with FAILED in bit 7 (20 R527). -/
structure Repair where
  seq : Nat := 0
  maps : List Nat := List.replicate 144 0
  dies : List Nat := List.replicate 8 0
  causes : Nat := 0
  deriving DecidableEq, Repr

/-- Read one copy of the record; none when its tag or CRC fails. -/
def Dev.repairCopy (d : Dev) (i : Nat) : Option Repair :=
  let l := d.flashRead (0x2120000 + 0x8000 * i) 0x8000
  if ofLe (l.take 4) = 0x52504152 ∧ ofLe (l.drop 32764) = crc32c 0xFFFFFFFF (l.take 32764) then
    some { seq := ofLe ((l.drop 8).take 8)
           maps := (List.range 144).map (fun b => ofLe ((l.drop (16 + 32 * b)).take 32))
           dies := (List.range 8).map (fun k => ((l.drop (4624 + k)).headD 0).toNat)
           causes := ((l.drop 4632).headD 0).toNat }
  else none

/-- The record in force, and the copy to be overwritten next (20 R527). -/
def Dev.repair (d : Dev) : Repair × Nat :=
  match d.repairCopy 0, d.repairCopy 1 with
  | some a, some b => if a.seq ≤ b.seq then (b, 0) else (a, 1)
  | some a, none => (a, 1)
  | none, some b => (b, 0)
  | none, none => ({}, 0)

/-- The bytes of a record. TAG lies in the low half of the first word and VERSION in the high half (log entry 24). -/
def Repair.bytes (r : Repair) : List Byte :=
  let body := toLe 4 0x52504152 ++ toLe 4 1 ++ toLe 8 r.seq ++ r.maps.flatMap (toLe 32) ++ r.dies.map byteOf ++
    [byteOf r.causes] ++ List.replicate (32764 - 4633) 0
  body ++ toLe 4 (crc32c 0xFFFFFFFF body)

/-- Change the record: the other copy takes SEQUENCE + 1 (20 R527). -/
def Dev.setRepair (d : Dev) (f : Repair → Repair) : Dev :=
  let (r, i) := d.repair
  d.flashWrite (0x2120000 + 0x8000 * i) (({ f r with seq := r.seq + 1 }).bytes)

/-! ### Floods this device begins (13 R370) -/

/-- Ports that can carry flits: UP or DEGRADED (13 R382). -/
def Dev.portUp (d : Dev) (p : Nat) : Bool :=
  let s := d.get (Reg.PORT_W0_STATE p)
  s = 3 || s = 4

/-- Put a service message into a port's queue, by priority (13 R357). -/
def Dev.postMsg (d : Dev) (p prio : Nat) (w : List W64) : Dev := d.onPort p (fun s => { s with msgs := s.msgs ++ [(prio, w)] })

/-- Post a message on every usable port but one. -/
def Dev.postAll (d : Dev) (except_ : Option Nat) (prio : Nat) (w : List W64) : Dev :=
  (List.range 12).foldl (fun d p => if d.portUp p && except_ ≠ some p then d.postMsg p prio w else d) d

/-- Word 0 of a service message: TYPE, ORIGIN, TARGET, and low bits. -/
def msgHead (type origin target low : Nat) : W64 := packFlds [(63, 56, type), (55, 46, origin), (45, 36, target), (35, 0, low)]

/-- This device's domain index. -/
def Dev.index (d : Dev) : Nat := d.get Reg.LAT_DOMAIN_DOMAIN_INDEX

/-- The words of a FLOOD message. -/
def floodMsg (origin kind : Nat) (key : W64) (event target : Nat) : List W64 :=
  [msgHead 0x09 origin 0 0, packFlds [(63, 60, kind), (59, 0, event)], key, w64 target]

/-- A flood heard or begun: recorded once by KIND and key, with the smallest event beat; a flood not yet seen is relayed. -/
def Dev.noteFlood (d : Dev) (from_ : Option Nat) (origin kind : Nat) (key : W64) (event target : Nat) : Dev :=
  match d.lat.floods.find? (fun f => f.kind = kind && f.key = key) with
  | some _ =>
    { d with lat := { d.lat with floods := d.lat.floods.map (fun f =>
        if f.kind = kind && f.key = key then { f with event := min f.event event } else f) } }
  | none =>
    let d := { d with lat := { d.lat with floods := d.lat.floods ++ [Flood.mk kind key event target false] } }
    d.postAll from_ 1 (floodMsg origin kind key event target)

/-- The effect beat of a flood. -/
def Dev.effectBeat (d : Dev) (f : Flood) : Nat := f.event + d.get Reg.LAT_DOMAIN_FLOOD_BEATS

/-- Begin an ABORT flood (13 R370, 17 R474). -/
def Dev.floodAbort (d : Dev) : Dev :=
  let n := d.lat.aborts + 1
  let d := { d with lat := { d.lat with aborts := n } }
  let d := (d.inc Reg.FAULT_COUNT_ABORTS).set Reg.FAULT_STATUS_ABORT_SENT 1
  d.noteFlood none d.index 1 (packFlds [(63, 54, d.index), (31, 0, n)]) d.beat 0

/-- Begin a PREEMPT flood. -/
def Dev.floodPreempt (d : Dev) : Dev :=
  let n := d.lat.preempts + 1
  let d := { d with lat := { d.lat with preempts := n } }
  d.noteFlood none d.index 2 (packFlds [(63, 54, d.index), (31, 0, n)]) d.beat 0

/-- Begin a FREEZE flood. -/
def Dev.floodFreeze (d : Dev) (target : Nat) : Dev :=
  let n := d.lat.freezes + 1
  let d := { d with lat := { d.lat with freezes := n } }
  d.noteFlood none d.index 3 (packFlds [(63, 54, d.index), (31, 0, n)]) d.beat target

/-- Begin a DEGRADE flood for port p: its key names the link by its lower end (13 R370). -/
def Dev.floodDegrade (d : Dev) (p : Nat) : Dev :=
  let n := SMap.get (fun _ => 0) d.lat.degrades p + 1
  let d := { d with lat := { d.lat with degrades := SMap.set (fun _ => 0) d.lat.degrades p n } }
  let q := d.get (Reg.PORT_W0_PARTNER p)
  let (dev, port) := if d.index ≤ q then (d.index, p) else (q, d.get (Reg.PORT_W0_PARTNER_PORT p))
  d.noteFlood none d.index 0 (packFlds [(63, 54, dev), (53, 50, port), (31, 0, n)]) d.beat 0

/-! ### The end of a job (16 R442, 15 R430, R432) -/

/-- Every descriptor held by a channel stops with HALT, once its bursts have ended (09 R285); one that is stopping already
keeps its cause. No phase sends on. -/
def Dev.haltChans (d : Dev) : Dev :=
  { d with
    chans := d.chans.map (fun e =>
      (e.1, { e.2 with queue := [],
                       cur := e.2.cur.map (fun r =>
                         if r.stop.isSome && d.get (Reg.CH_STATE_STATE (e.1 / 32) (e.1 % 32)) ≠ 3 then r else { r with stop := some 11 }) }))
    lat := { d.lat with ports := d.lat.ports.map (fun (e : Nat × PortSt) =>
      (e.1, { e.2 with phase := none, lastBeat := none, reader := .idle })) } }

/-- The job ends: no record starts, channels stop with HALT, JOB_RUN and STEP operations end, the state becomes ENDED. A
step cut short leaves PHASE at NO_STEP (11 R308). -/
def Dev.endJob (d : Dev) (runState runErr stepState stepErr : Nat) : Dev :=
  let d := d.endOps (fun o => basicOp o.opcode = 0x302) runState runErr
  let d := d.endOps (fun o => basicOp o.opcode = 0x401) stepState stepErr
  let d := d.endOps (fun o => basicOp o.opcode = 0x303) stAborted 0
  let d := { d.haltChans with job := { d.job with preempt := false, preemptFence := none, joinPoll := none } }
  (d.set Reg.STEP_STATE_PHASE 0).setJs jsEnded

end Sys2Proof.Machine
end

