-- ==== Sys2Proof/Machine/Faults.lean ====
section
/-! DEFINITION. Faults: detection, disposition, Safe (17 R460 to R484). -/

namespace Sys2Proof.Machine

/-! ### The leave pool (18 R485 to R489) -/

/-- The sum of all STANDING grants. -/
def Dev.standing (d : Dev) : Nat := (List.range 144).foldl (fun n b => n + d.get (Reg.BENCH_LEAVE_STANDING b)) 0

/-- The pool's capacity. -/
def Dev.poolCapacity (d : Dev) : Nat := d.get Reg.PWR_CTRL_POWER_LIMIT - d.get Reg.PWR_STATUS_BASE_RESERVE

/-- HELD of a bench and FREE of the pool follow the grants (18 R487, R500). -/
def Dev.refreshLeave (d : Dev) : Dev :=
  let granted := d.granted.foldl (fun n e => n + e.2) 0
  let d := (List.range 144).foldl (fun d b =>
    d.set (Reg.BENCH_LEAVE_HELD b) (d.get (Reg.BENCH_LEAVE_STANDING b) + SMap.get (fun _ => 0) d.granted b)) d
  d.set Reg.PWR_STATUS_FREE (d.poolCapacity - d.standing - granted - d.hubGrant)

/-- Fault kinds (17 R463). -/
abbrev fkResidue : Nat := 1
abbrev fkParity : Nat := 2
abbrev fkUncorrectable : Nat := 3
abbrev fkTagUncorrectable : Nat := 4
abbrev fkLatent : Nat := 5
abbrev fkTally : Nat := 6
abbrev fkLinkFailed : Nat := 7
abbrev fkPortDegraded : Nat := 8
abbrev fkPortFailed : Nat := 9
abbrev fkBeatSkew : Nat := 10
abbrev fkSlotTimeout : Nat := 11
abbrev fkLimitTimeout : Nat := 12
abbrev fkSyncTimeout : Nat := 13
abbrev fkReduce : Nat := 14
abbrev fkSchedule : Nat := 15
abbrev fkFpMinority : Nat := 16
abbrev fkDieMark : Nat := 17
abbrev fkClearFailed : Nat := 18

/-- Dispositions (17 R461). -/
abbrev dLocal : Nat := 0
abbrev dAbort : Nat := 1
abbrev dHalt : Nat := 2
abbrev dLatent : Nat := 3
abbrev dSafe : Nat := 4

/-- A fault as it is reported. `site` tells sites of one unit apart where R471 does: a lane, an address, or a unit of a
bench (256 vector engine, 257 awl, 258 last, 259 router, 260 channels, 261 tally former). -/
structure FaultRec where
  kind : Nat
  unit : Nat
  recordId : Nat := 0
  lane : Nat := 0
  addr : Nat := 0
  site : Nat := 0
  /-- The local recovery failed: the site becomes suspect (17 R471). -/
  suspect : Bool := false
  deriving DecidableEq, Repr

/-- Safe causes (17 R481). -/
abbrev scLane : Nat := 0
abbrev scBench : Nat := 1
abbrev scFloor : Nat := 2
abbrev scBulk : Nat := 3
abbrev scHub : Nat := 4

/-- The physical lane of a logical lane of a bench: the (j + 1)-th that is not bypassed (03 R106). -/
def Dev.bypassMap (d : Dev) (b : Nat) : Nat :=
  (List.range 4).foldl (fun n i => n + (d.reg (Reg.LR_BYPASS b i)).toNat * 2 ^ (64 * i)) 0

/-- A bench would bypass lane `lane` as well: its new map and whether that is within 16 lanes (17 R471, 03 R106). -/
def Dev.bypassWith (d : Dev) (b lane : Nat) : Nat × Bool :=
  let old := d.bypassMap b ||| (d.repair.1.maps.getD b 0)
  let m := if old.testBit lane then old else old + 2 ^ lane
  (m, decide (popcount 256 m ≤ 16))

/-- The Safe cause of a fault (17 R471, R481). -/
def Dev.persistentCause (d : Dev) (f : FaultRec) : Nat :=
  if f.kind = fkLinkFailed then scBulk
  else if f.kind = fkDieMark then scFloor
  else if f.kind = fkClearFailed then scBench
  else if f.kind = fkUncorrectable then (if f.addr < cellarEnd then scFloor else scBench)
  else if f.unit < 144 then
    if f.kind = fkResidue ∧ f.site < 256 then (if (d.bypassWith f.unit f.lane).2 then scLane else scBench)
    else if f.site = 259 then scBulk else scBench
  else if f.unit < 152 then scFloor else scHub

/-- Enter Safe for a cause: abort, end of the job, field repair record, log (17 R481 to R483). -/
def Dev.enterSafe (d : Dev) (cause : Nat) : Dev :=
  let mask := d.get Reg.FAULT_STATUS_SAFE_CAUSE ||| 2 ^ cause
  let d := (d.set Reg.FAULT_STATUS_SAFE 1).set Reg.FAULT_STATUS_SAFE_CAUSE mask
  let d := d.setRepair (fun r => { r with causes := r.causes ||| 2 ^ cause ||| (if cause = scLane then 0 else 128) })
  let d := d.logEv 1 0x002 [w64 mask]
  if !d.jobLoaded then d
  else if d.js ≠ jsEnded && d.js ≠ jsUnloading then (d.floodAbort).endJob stFailed 0x24 stFailed 0x24
  else d.floodAbort

/-- A fault is logged, written to FAULT_LAST and counted (17 R464, R484). -/
def Dev.recordFault (d : Dev) (f : FaultRec) (disp : Nat) (persistent : Bool) : Dev :=
  let w0 := packFlds [(63, 59, f.kind), (58, 56, disp), (55, 48, f.unit), (47, 47, b2n persistent), (31, 0, d.beat)]
  let w1 := packFlds [(63, 48, f.recordId), (47, 40, f.lane), (39, 0, f.addr)]
  let d := ((d.setReg Reg.FAULT_LAST0 w0).setReg Reg.FAULT_LAST1 w1).logEv (rankOfUnit f.unit) 0x001 [w0, w1]
  let d := if disp = dLocal then d.inc Reg.FAULT_COUNT_LOCAL else d
  if f.unit < 152 then
    if f.kind = fkResidue then d.inc (Reg.INTEG_COUNT_RESIDUE f.unit)
    else if f.kind = fkParity then d.inc (Reg.INTEG_COUNT_PARITY f.unit) else d
  else d

/-- The site of a fault: its unit and the part of it, or, for an uncorrectable word, the word, whoever met it (17 R471). -/
def FaultRec.siteKey (f : FaultRec) : Nat × Nat × Nat :=
  if f.kind = fkUncorrectable then (f.kind, 0, f.addr) else (f.kind, f.unit, f.site)

/-- The disposition after R471, R472 and R474, and whether the fault is persistent or a double fault. A re-formation that
fails is persistent and leaves its site suspect, unless the fault is a double one, whose recovery is abandoned (17 R469,
R471, R472; log entry 54). -/
def Dev.dispose (d : Dev) (f : FaultRec) (disp : Nat) : Nat × Bool × Bool :=
  if d.faults.suspects.contains f.siteKey then (dSafe, true, false)
  else
    let recent : Bool := d.faults.last.any (fun e => e.1 == f.unit && decide (d.ageBeats ≤ e.2 + 750))
    let phase := d.get Reg.STEP_STATE_PHASE
    let base := if recent = true then dAbort else disp
    let base := if base = dAbort && f.kind = fkSchedule && phase ≠ 1 && d.jobLoaded then dHalt else base
    let saving := decide (d.js = jsPreempting) && decide (base ≠ dLocal)
    (if saving = true ∧ base ≠ dSafe then dHalt else base, f.suspect && !recent, recent)

/-- The result code of a fault for the operation it ends (17 R479, 15 R403, R428). -/
def faultCode (kind : Nat) : Nat :=
  if kind = fkUncorrectable then 0x20 else if kind = fkTally then 0x22
  else if kind = fkSlotTimeout ∨ kind = fkLimitTimeout then 0x26 else 0x24

/-- A pre-emption that a fault meets ends FAILED with the fault's code, and no save record is valid (17 R479). -/
def Dev.failPreempt (d : Dev) (f : FaultRec) : Dev :=
  let d := match if d.js = jsPreempting then d.xlate (d.get Reg.JOB_SAVE_SAVE_ADDR) else none with
    | some x => d.wrWord x.phys 0
    | none => d
  d.endOps (fun o => o.running && decide (basicOp o.opcode = 0x303)) stFailed (faultCode f.kind)

/-- What a disposition does (17 R461, R474, R477, R479). -/
def Dev.actOn (d : Dev) (f : FaultRec) (disp : Nat) : Dev :=
  if disp = dAbort then
    let phase := d.get Reg.STEP_STATE_PHASE
    if phase = 1 && !d.step.faulted then { d.floodAbort with step := { d.step with faulted := true } }
    else if phase = 2 then { d with step := { d.step with faulted := true } } else d
  else if disp = dHalt then
    if d.jobLoaded && d.js ≠ jsEnded then
      ((d.failPreempt f).floodAbort).endJob stFailed 0x24 stFailed 0x24
    else d
  else if disp = dLatent then d.set Reg.FAULT_STATUS_LATENT 1
  else if disp = dSafe then
    let cause := d.persistentCause f
    let d := if cause = scLane then
        d.setRepair (fun r => { r with maps := r.maps.set f.unit ((r.maps.getD f.unit 0) ||| 2 ^ f.lane) }) else d
    (d.failPreempt f).enterSafe cause
  else d

/-- A detected fault: its disposition decides everything that follows (17 R461, R464). -/
def Dev.fault (d : Dev) (f : FaultRec) (disp : Nat) : Dev :=
  let (disp, persistent, double) := d.dispose f disp
  let d := d.recordFault f disp persistent
  let d := if persistent then d.inc Reg.FAULT_COUNT_PERSISTENT else d
  let d := if double then d.inc Reg.FAULT_COUNT_DOUBLE_FAULTS else d
  let add := (f.suspect && !double) || f.kind = fkUncorrectable
  let d := { d with faults :=
    { suspects := if add && !d.faults.suspects.contains f.siteKey then d.faults.suspects ++ [f.siteKey] else d.faults.suspects
      last := SMap.insert d.faults.last f.unit d.ageBeats } }
  d.actOn f disp

/-- A schedule fault of a unit (17 R463, R465, R474). -/
def Dev.schedFault (d : Dev) (unit recordId addr : Nat) : Dev :=
  d.fault { kind := fkSchedule, unit := unit, recordId := recordId, addr := addr } dAbort

/-- The scratchpad's own record of a fault (07 R235). -/
def Dev.spLastFault (d : Dev) (b kind port off : Nat) : Dev :=
  (((d.set (Reg.SP_LAST_FAULT_KIND b) kind).set (Reg.SP_LAST_FAULT_PORT b) port).set
    (Reg.SP_LAST_FAULT_OFFSET b) off).set (Reg.SP_LAST_FAULT_BEAT b) d.beat

/-- An uncorrectable scratchpad word met by a port (07 R218, R219; 17 R465). -/
def Dev.spUncorrectable (d : Dev) (b port recordId addr : Nat) : Dev :=
  ((d.spLastFault b 3 port (addr - spBase b)).inc (Reg.SP_ECC_UNCORRECTABLE b)).fault
    { kind := fkUncorrectable, unit := b, recordId := recordId, addr := addr } dAbort

/-- An uncorrectable tag word met by a tagged access (07 R221; 17 R465). -/
def Dev.tagUncorrectable (d : Dev) (b port recordId slot : Nat) : Dev :=
  ((d.spLastFault b 4 port (slot % 16384 * 512)).inc (Reg.SP_ECC_UNCORRECTABLE b)).fault
    { kind := fkTagUncorrectable, unit := b, recordId := recordId, addr := slot % 16384 * 512 } dHalt

/-- A tag wait timed out: recorded with the first slot whose tag is still wrong (07 R225). -/
def Dev.slotTimeout (d : Dev) (b unit port recordId : Nat) (w : Wait) : Dev :=
  let slot := ((w.slots.find? (fun k => d.tag k != w.full)).getD 0) % 16384
  ((d.spLastFault b 2 port (slot * 512)).inc (Reg.SP_TAG_TIMEOUTS b)).fault
    { kind := fkSlotTimeout, unit := unit, recordId := recordId, addr := slot * 512 } dAbort

/-- An overrun notice on its way up (04 R142, 08 R258), and its log entry (21 R541). -/
def Dev.overrun (d : Dev) (b beats recordId : Nat) : Dev :=
  ({ d with upq := d.upq ++ [UpEvent.slipReq (16 + b) beats recordId d.net.nextId] }).logEv (16 + b) 0x020
    [packFlds [(15, 0, beats), (31, 16, recordId)]]

end Sys2Proof.Machine
end

