-- ==== Sys2Proof/Machine/Cellar.lean ====
section
/-! DEFINITION. Reading and correcting memory: the scratchpad's code and scrubbers (07 R218 to R221, R232), the cellars'
die-loss code, die marks, scrubbers and segment clear (10 R292 to R298). -/

namespace Sys2Proof.Machine

/-- The channel within the cellar (10 R292). -/
def cellarChannel (a : Nat) : Nat := (a / 2 ^ 15 % 32) ^^^ (a / 2 ^ 26 % 32)

/-- The byte offset within the channel (10 R292). -/
def channelOffset (a : Nat) : Nat := a / 2 ^ 20 * 4096 + a % 4096

/-- The physical address of an offset within channel `ch` of cellar `k`: the inverse of R292. -/
def channelAddr (k ch off : Nat) : Nat :=
  let hi := off / 4096 * 2 ^ 20
  hi + (ch ^^^ (hi / 2 ^ 26 % 32)) * 2 ^ 15 + (k ^^^ (hi / 2 ^ 23 % 8)) * 2 ^ 12 + off % 4096

/-- Codewords of one channel (10 R296). -/
abbrev channelWords : Nat := 37748736

/-- The endpoint that holds a physical address (08 R242). -/
def endpointOf (a : Nat) : Nat := if a < cellarEnd then 144 + cellarOf a else (a - 0xF000000000) / 0x800000

/-- Mark a die of cellar k: a second one makes the cellar failed (10 R295, 17 R465). -/
def Dev.markDie (d : Dev) (k die : Nat) : Dev :=
  if d.get (Reg.CELLAR_DIE_MARK_VALID k) = 1 then
    if d.get (Reg.CELLAR_DIE_MARKED_DIE k) = die then d
    else d.fault { kind := fkDieMark, unit := 144 + k } dSafe
  else
    let d := (d.set (Reg.CELLAR_DIE_MARK_VALID k) 1).set (Reg.CELLAR_DIE_MARKED_DIE k) die
    let d := d.setRepair (fun r => { r with dies := r.dies.set k (16 + die) })
    d.fault { kind := fkDieMark, unit := 144 + k } dLatent

/-- A correction against a die is counted; sixteen in one scrub pass mark it (10 R294, R295). -/
def Dev.dieCorrection (d : Dev) (k die : Nat) : Dev :=
  let n := SMap.get (fun _ => 0) (d.floor k).dieCounts die + 1
  let d := (d.inc (Reg.CELLAR_ECC_DIE_CORRECTIONS k)).onFloor k
    (fun f => { f with dieCounts := SMap.set (fun _ => 0) f.dieCounts die n })
  if 16 ≤ n then d.markDie k die else d

/-- A codeword is read and what its error comes to is `c`: counted, as a correction by die erasure where a die is marked, and a
corrected one waits for its write-back (10 R294, R307; log entry 53). -/
def Dev.codewordRead (d : Dev) (a c : Nat) : Dev :=
  let k := cellarOf a
  let queue (d : Dev) : Dev := d.onFloor k (fun f =>
    if f.writeBacks.contains a then f else { f with writeBacks := f.writeBacks ++ [a] })
  if c = 1 then
    queue (d.inc (if d.get (Reg.CELLAR_DIE_MARK_VALID k) = 1 then Reg.CELLAR_ECC_DIE_CORRECTIONS k else Reg.CELLAR_ECC_CORRECTED k))
  else if 16 ≤ c then queue (d.dieCorrection k (c - 16)) else d.inc (Reg.CELLAR_ECC_UNCORRECTABLE k)

/-- A codeword with a stored error is met by a read. -/
def Dev.codewordMet (d : Dev) (a e : Nat) : Dev := d.codewordRead a (d.codeError a e)

/-- Read a physical range: the bytes, or the uncorrectable word; corrections are counted and wait for their write-back. -/
def Dev.rdPhys (d : Dev) (a n : Nat) : Dev × Except Nat (List Byte) :=
  match d.badPhys a n with
  | some w => (if w < cellarEnd then d.inc (Reg.CELLAR_ECC_UNCORRECTABLE (cellarOf w)) else d, .error w)
  | none =>
    let l := d.bytes a n
    let d := if a < cellarEnd then (d.errIn a n).foldl (fun d e => d.codewordMet e.1 e.2) d
      else
        let b := (a - 0xF000000000) / 0x800000
        d.correctReads b [((a - 0xF000000000) % 0x800000, n)]
    (d, .ok l)

/-- Cellar codewords that a write of the range covers only in part are read, corrected and counted (10 R294). -/
def Dev.metPartly (d : Dev) (a n : Nat) : Dev :=
  ((d.errIn a n).filter (fun e => decide (e.1 < cellarEnd) && !(decide (a ≤ e.1) && decide (e.1 + 64 ≤ a + n)))).foldl
    (fun d e => d.codewordMet e.1 e.2) d

/-- Write a physical range, unless a word that it covers in part is uncorrectable (07 R219, 10 R294). -/
def Dev.wrPhys (d : Dev) (a : Nat) (l : List Byte) : Dev × Option Nat :=
  match d.badWrite a l.length with
  | some w => (if w < cellarEnd then d.inc (Reg.CELLAR_ECC_UNCORRECTABLE (cellarOf w)) else d, some w)
  | none => ((d.metPartly a l.length).wr a l, none)

/-- An uncorrectable word met by a transfer of a location: reported with its address (17 R465). -/
def Dev.memFault (d : Dev) (loc recordId a : Nat) : Dev :=
  if cellarEnd ≤ a then
    let b := (a - 0xF000000000) / 0x800000
    ((d.spLastFault b 3 3 ((a - 0xF000000000) % 0x800000)).inc (Reg.SP_ECC_UNCORRECTABLE b)).fault
      { kind := fkUncorrectable, unit := loc, recordId := recordId, addr := a } dAbort
  else d.fault { kind := fkUncorrectable, unit := loc, recordId := recordId, addr := a } dAbort

/-- Count an uncorrectable word that a memory command met (07 R218, 10 R294). -/
def Dev.countBad (d : Dev) (w : Nat) : Dev :=
  if w < cellarEnd then d.inc (Reg.CELLAR_ECC_UNCORRECTABLE (cellarOf w))
  else
    let b := (w - 0xF000000000) / spSize
    (d.spLastFault b 3 3 (w % spSize)).inc (Reg.SP_ECC_UNCORRECTABLE b)

/-- An uncorrectable word met by a reader of lists, descriptors or maps: counted, and reported with its address (16 R565). -/
def Dev.readFault (d : Dev) (loc recordId p : Nat) : Dev :=
  (if p < cellarEnd then d.inc (Reg.CELLAR_ECC_UNCORRECTABLE (cellarOf p)) else d).memFault loc recordId p

/-- Physical runs are read: what is found correctable is counted and waits for its write-back (07 R218, 10 R294). -/
def Dev.readPhys (d : Dev) (l : List (Nat × Nat)) : Dev := l.foldl (fun d r => (d.rdPhys r.1 r.2).1) d

/-- Job memory is read, where it is mapped (16 R440). -/
def Dev.readJob (d : Dev) (a n : Nat) : Dev :=
  match d.jobRuns a n with
  | some l => d.readPhys (l.map (fun r => (r.1.phys, r.2)))
  | none => d

/-! ### Scrubbing -/

/-- The error code of an observation. -/
def eccCode : Ecc → Nat
  | .clean => 0
  | .corrected => 1
  | .die n => 16 + n % 12
  | .uncorrectable => 3

/-- An observed error is one of the stored word from then on. -/
def Dev.noteErr (d : Dev) (a e : Nat) : Dev := { d with errs := SMap.set (fun _ => 0) d.errs a e }

/-- Clocks of cellars and scratchpads run, and nothing is asleep (07 R233, 10 R298, 21 R532). -/
def Dev.awake (d : Dev) (unit : Nat) : Bool := !d.frozen && d.power ≤ 1 && !d.resting.contains unit && !d.unlocked.contains unit

/-- What a scrub read of a codeword comes to: its stored error, or the new one that it finds, a new error of up to four symbols
being one that it could correct (10 R294, R296). -/
def Dev.scrubbed (d : Dev) (a : Nat) (seen : Ecc) : Nat :=
  let old := d.codeError a (SMap.get (fun _ => 0) d.errs a)
  if old = 3 then 3
  else match seen with
    | .clean => old
    | .corrected => 1
    | _ => d.codeError a (eccCode seen)

/-- The physical segments of a scrub. -/
def scrubSegs (o : LongOp) : List Nat :=
  if o.opcode = 0x582 then (List.range 576).filter (fun s => bit (wd o.params (1 + s / 64)) (s % 64)) else List.range 576

/-- Physical segments being cleared: those of an unload or a clearing scrub whose leave has been granted (10 R297). -/
def Dev.clearing (d : Dev) : List Nat :=
  (d.ops.filter (fun o => o.running && o.ready)).flatMap (fun o =>
    if basicOp o.opcode = 0x305 then o.note
    else if o.opcode = 0x582 && bit (wd o.params 0) 0 then scrubSegs o else [])

/-- A cellar channel's scrubber reads its next codeword; it skips a segment that is being cleared (10 R296, R297). -/
def cellarScrub (d : Dev) (k ch : Nat) (seen : Ecc) : Dev :=
  if !(k < 8 && ch < 32 && d.awake (4 + k) && d.get (Reg.CELLAR_CTRL_SCRUB_EN k) = 1) then d else
  let pos := SMap.get (fun _ => 0) (d.floor k).scrubPos ch
  let a := channelAddr k ch (64 * pos)
  let e := d.scrubbed a seen
  let d := if d.clearing.contains (a / 2 ^ 30) || e = 0 then d
    else if e = 3 then
      ((d.noteErr a 3).inc (Reg.CELLAR_ECC_UNCORRECTABLE k)).fault
        { kind := fkLatent, unit := 144 + k, addr := a } dLatent
    else (d.noteErr a e).codewordRead a e
  let next := if pos + 1 = channelWords then 0 else pos + 1
  let d := d.onFloor k (fun f =>
    { f with scrubPos := SMap.set (fun _ => 0) f.scrubPos ch next
             dieCounts := if ch = 0 && next = 0 then [] else f.dieCounts })
  if ch = 0 && next = 0 then d.inc (Reg.CELLAR_DIE_PASSES k) else d

/-- A corrected codeword is written back, unless a write to it came first (10 R294). -/
def cellarWriteback (d : Dev) (k addr : Nat) : Dev :=
  if (d.floor k).writeBacks.contains addr && d.awake (4 + k) then
    let d := d.onFloor k (fun f => { f with writeBacks := f.writeBacks.filter (· ≠ addr) })
    if SMap.get (fun _ => 0) d.errs addr = 3 then d else { d with errs := d.errs.filter (fun e => e.1 ≠ addr) }
  else d

/-- A scratchpad bank's scrubber reads its next line; `seen` lists the words of the line found in error: word 0 to 15 and
1 correctable or 3 uncorrectable (07 R210, R220). -/
def scratchScrub (d : Dev) (b bank : Nat) (seen : List (Nat × Nat)) : Dev :=
  if !(b < 144 && bank < 64 && d.awake (b / 36) && d.get (Reg.SP_CTRL_SCRUB_EN b) = 1) then d else
  let pos := SMap.get (fun _ => 0) (d.bn b).scrubPtr bank
  let base := bank * 131072 + pos * 128
  let word (d : Dev) (p : Nat × Nat) : Dev :=
    let off := base + 8 * (p.1 % 16)
    let a := spBase b + off
    if p.2 = 3 || SMap.get (fun _ => 0) d.errs a = 3 then
      ((((d.noteErr a 3).spLastFault b 3 6 off).inc (Reg.SP_ECC_UNCORRECTABLE b))).fault
        { kind := fkLatent, unit := b, addr := a } dLatent
    else if p.2 = 1 then
      ((d.noteErr a 1).inc (Reg.SP_ECC_CORRECTED b)).onBn b (fun x =>
        if x.writeBacks.contains off then x else { x with writeBacks := x.writeBacks ++ [off] })
    else d
  let stored := ((d.errIn (spBase b + base) 128).filter (fun e => e.2 = 3)).map (fun e => ((e.1 - spBase b - base) / 8, 3))
  let d := ((seen.filter (fun p => !stored.any (fun q => q.1 = p.1 % 16))) ++ stored).foldl word d
  let d := d.onBn b (fun x => { x with scrubPtr := SMap.set (fun _ => 0) x.scrubPtr bank ((pos + 1) % 1024) })
  if bank = 0 && pos = 1023 then d.inc (Reg.SP_SCRUB_PASSES b) else d

/-- A corrected scratchpad word is written back, unless a port has written it (07 R218). -/
def scratchWriteback (d : Dev) (b off : Nat) : Dev :=
  if (d.bn b).writeBacks.contains off && d.awake (b / 36) then
    let d := d.onBn b (fun x => { x with writeBacks := x.writeBacks.filter (· ≠ off) })
    let a := spBase b + off
    let e := SMap.get (fun _ => 0) d.errs a
    if e = 0 || e = 3 then d else
      ({ d with errs := d.errs.filter (fun e => e.1 ≠ a) } : Dev).inc (Reg.SP_SCRUB_WRITEBACKS b)
  else d

/-- A bench whose scratchpad does not read back as zeros without errors (07 R232). -/
def Dev.unclear (d : Dev) : Option Nat :=
  match d.mem.find? (fun c => decide (spBase 0 ≤ c.1) && decide (c.1 < spBase 144)),
      d.errs.find? (fun e => decide (spBase 0 ≤ e.1) && decide (e.1 < spBase 144)) with
  | some c, _ => some ((c.1 - spBase 0) / spSize)
  | none, some e => some ((e.1 - spBase 0) / spSize)
  | none, none => none

/-- The scratchpad clear on every bench: zero words and empty tags, then every line is read back and checked; a line in error
puts the device into Safe (07 R232). -/
def Dev.clearScratchpads (d : Dev) : Dev :=
  let d : Dev := { d.zeroRange 0xF000000000 0x48000000 with tags := [], tagErrs := [] }
  match d.unclear with
  | some b => d.fault { kind := fkClearFailed, unit := b } dSafe
  | none => d

/-- Copy a run of cells. -/
def Memory.copy (m : List Host.Cell) (src dst n : Nat) : List Host.Cell :=
  let part := (m.filter (fun c => src ≤ c.1 && c.1 < src + n)).map (fun (c : Host.Cell) => ((c.1 - src + dst, c.2) : Host.Cell))
  m.filter (fun c => c.1 < dst) ++ part ++ m.filter (fun c => dst + n ≤ c.1)

/-- Copy a physical range onto another, with fresh check symbols. -/
def Dev.copyRange (d : Dev) (src dst n : Nat) : Dev :=
  { d with mem := Memory.copy d.mem src dst n, errs := d.errs.filter (fun e => e.1 + 8 ≤ dst || dst + n ≤ e.1) }

/-- The segment clear of one physical segment (10 R297). -/
def Dev.clearSegment (d : Dev) (s : Nat) : Dev := d.zeroRange (2 ^ 30 * s) (2 ^ 30)

end Sys2Proof.Machine
end

