-- ==== Sys2Proof/Machine/Routes.lean ====
section
/-! DEFINITION. The bulk network: routes, links, packets, router tables (08 R236 to R248). -/

namespace Sys2Proof.Machine

/-- The router at row r and global column g (0 to 23, six for each die). -/
def routerAt (r g : Nat) : Nat := g / 6 * 36 + r * 6 + g % 6

/-- Row and global column of a bench (08 R236). -/
def rowOf (b : Nat) : Nat := b % 36 / 6
def colOf (b : Nat) : Nat := b / 36 * 6 + b % 6

/-- The code of the port that leads one column east or west (08 R236). -/
def eastPort (g : Nat) : Nat := if g % 6 = 5 then 7 else 4
def westPort (g : Nat) : Nat := if g % 6 = 0 then 7 else 3

/-- Hops along row r from column g to column h: each router and the port left by. -/
def rowHops (r g h : Nat) : List (Nat × Nat) :=
  if g ≤ h then (List.range (h - g)).map (fun i => (routerAt r (g + i), eastPort (g + i)))
  else (List.range (g - h)).map (fun i => (routerAt r (g - i), westPort (g - i)))

/-- Hops along column g from row r to row q. -/
def colHops (g r q : Nat) : List (Nat × Nat) :=
  if r ≤ q then (List.range (q - r)).map (fun i => (routerAt (r + i) g, 2))
  else (List.range (r - q)).map (fun i => (routerAt (r - i) g, 1))

/-- Columns of a cellar's half, clamped to the nearest of `g` (08 R238). -/
def halfCol (k g : Nat) : Nat :=
  let lo := k / 2 * 6 + k % 2 * 3
  max lo (min (lo + 2) g)

/-- The route between two endpoints, as routers with the port left by (08 R238). -/
def route (src dst : Nat) : List (Nat × Nat) :=
  let toDst (r g : Nat) : List (Nat × Nat) :=
    if dst < 144 then rowHops r g (colOf dst) ++ colHops (colOf dst) r (rowOf dst) ++ [(dst, 0)]
    else if dst < 152 then let h := halfCol (dst - 144) g; rowHops r g h ++ [(routerAt r h, 5)]
    else colHops g r 0 ++ [(routerAt 0 g, 6)]
  if src < 144 then toDst (rowOf src) (colOf src)
  else if src < 152 then
    if dst < 144 then toDst (rowOf dst) (halfCol (src - 144) (colOf dst))
    else if dst < 152 then
      let a := halfCol (src - 144) ((dst - 144) / 2 * 6 + (dst - 144) % 2 * 3 + 1)
      toDst 0 a
    else [(routerAt 0 ((src - 144) / 2 * 6 + (src - 144) % 2 * 5), 6)]
  else
    if dst < 144 then colHops (colOf dst) 0 (rowOf dst) ++ [(dst, 0)]
    else if dst < 152 then [(routerAt 0 ((dst - 144) / 2 * 6 + (dst - 144) % 2 * 5), 5)] else []

/-- The port by which a packet from a source endpoint enters its first router. -/
def entryPort (src : Nat) : Nat := if src < 144 then 0 else if src < 152 then 5 else 6

/-- A router has a port (08 R236). -/
def hasPort (b p : Nat) : Bool :=
  let r := rowOf b
  let c := b % 6
  let die := b / 36
  match p with
  | 0 => true
  | 1 => decide (1 ≤ r)
  | 2 => decide (r ≤ 4)
  | 3 => decide (1 ≤ c)
  | 4 => decide (c ≤ 4)
  | 5 => true
  | 6 => r == 0
  | 7 => (c == 5 && decide (die ≤ 2)) || (c == 0 && decide (1 ≤ die))
  | _ => false

/-- The router and port at the other end of a router's link. -/
def facing (b p : Nat) : Option (Nat × Nat) :=
  if !hasPort b p then none
  else
    let r := rowOf b
    let g := colOf b
    match p with
    | 1 => some (routerAt (r - 1) g, 2)
    | 2 => some (routerAt (r + 1) g, 1)
    | 3 => some (routerAt r (g - 1), 4)
    | 4 => some (routerAt r (g + 1), 3)
    | 7 => if g % 6 = 5 then some (routerAt r (g + 1), 7) else some (routerAt r (g - 1), 7)
    | _ => none

/-- The links a route uses. -/
def routeLinks (src dst : Nat) : List (Nat × Nat) :=
  let l := route src dst
  match l with
  | h :: _ => (h.1, entryPort src) :: l
  | [] => l

/-- A link that a packet would use has failed (08 R244). -/
def Dev.routeBad (d : Dev) (src dst : Nat) : Bool :=
  !d.net.badLinks.isEmpty &&
  (routeLinks src dst).any (fun l => d.net.badLinks.contains l ||
    (match facing l.1 l.2 with | some m => d.net.badLinks.contains m | none => false))

/-- Put a packet into the network, with the next number. -/
def Dev.inject (d : Dev) (p : Pkt) : Dev :=
  { d with net := { d.net with pkts := d.net.pkts ++ [{ p with id := d.net.nextId }], nextId := d.net.nextId + 1 } }

/-- Change the packet of a number. -/
def Dev.onPkt (d : Dev) (id : Nat) (f : Pkt → Pkt) : Dev :=
  { d with net := { d.net with pkts := d.net.pkts.map (fun p => if p.id = id then f p else p) } }

/-- Take a packet out of the network. -/
def Dev.dropPkt (d : Dev) (id : Nat) : Dev :=
  { d with net := { d.net with pkts := d.net.pkts.filter (fun p => p.id ≠ id) } }

/-- CLASS of a KIND (08 R241): requests 0, responses 1, reductions 2. -/
def classOf (kind : Nat) : Nat := if kind = 4 then 2 else if kind = 2 ∨ kind = 3 ∨ kind = 5 ∨ kind = 6 then 1 else 0

/-- The endpoints a packet goes to: those of its mask, for a MULTICAST. -/
def Pkt.reaches (p : Pkt) : List Nat := if p.kind = 5 then p.targets.map Prod.fst else [p.dst]

/-- The two words of a packet's header, for the requester of the given number: an answer carries its request's XTAG, and the
tag that a request is given is open (08 R241). -/
def Pkt.header (p : Pkt) (request : Nat) : List W64 :=
  [packFlds [(63, 60, p.kind), (59, 58, classOf p.kind), (57, 56, ceilDiv (max 1 p.len) 128 - 1), (55, 48, p.src),
     (47, 40, p.dst), (39, 0, p.addr % 2 ^ 40)],
   packFlds [(63, 28, if p.kind = 5 then (uniq (p.targets.map (fun t => t.1 % 36))).foldl (fun m b => m + 2 ^ b) 0 else 0),
     (27, 20, if p.kind = 4 then p.redId else 0), (19, 8, (Config.packetTag request).toNat)]]

/-- The packet of a number and kind, if no earlier packet of its class, source and destination is still under way and no
link of its route has failed (08 R240, R244). -/
def Dev.arriving (d : Dev) (id kind : Nat) : Option Pkt :=
  match d.net.pkts.find? (fun p => p.id = id && p.kind = kind) with
  | some p =>
    let before := d.net.pkts.takeWhile (fun q => q.id ≠ id)
    if before.any (fun q => classOf q.kind = classOf kind && q.src = p.src && q.reaches.any p.reaches.contains && q.router = p.router &&
        q.port = p.port && q.wait.isNone && q.window.isNone) then none
    else some p
  | none => none

/-- Turn a request into its answer, back to its source, behind the answers already under way (08 R243). -/
def Dev.answer (d : Dev) (p : Pkt) (kind : Nat) (data : List Byte) (cause : Nat) : Dev :=
  let q := { p with kind := kind, src := p.dst, dst := p.src, data := data, cause := cause, wait := none, window := none, closed := false }
  { d with net := { d.net with pkts := d.net.pkts.filter (fun x => x.id ≠ p.id) ++ [q] } }

/-! ### Reduce tables (08 R246, R247) -/

/-- The valid entry of a router for a reduction. -/
def Dev.redEntry (d : Dev) (b id : Nat) : Option W64 :=
  ((List.range 16).map (fun i => d.reg (Reg.REDUCE b i))).find? (fun w => bit w 20 && fld w 63 56 = id)

/-- The ports of an entry in the order of addition. -/
def redOrder (w : W64) : List Nat := (List.range (popcount 8 (fld w 55 48))).map (fun j => fld w (26 + 3 * j) (24 + 3 * j))

/-- Add contributions as FP32, in order, each addition rounded to nearest even (08 R247). -/
def redSum (l : List (List Byte)) : List Byte :=
  match l with
  | [] => []
  | h :: t =>
    t.foldl (fun a c =>
      (List.zipWith fadd (unpackElems 32 (a.length / 4) a) (unpackElems 32 (c.length / 4) c)).flatMap (toLe 4)) h

/-- The NaNs and infinities that those additions make. A router stands in its bench's recovery domain (17 R462), so the bench
counts them (02 R71; log entry 81). -/
def redCnt (l : List (List Byte)) : Cnt :=
  match l with
  | [] => {}
  | h :: t =>
    (t.foldl (fun (p : List Nat × Cnt) c =>
      let v := unpackElems 32 (c.length / 4) c
      let s := List.zipWith fadd p.1 v
      (s, p.2.add (Cnt.sum (List.zipWith (fun x z => cntOf [dec32 x.1, dec32 x.2] z) (p.1.zip v) s))))
      (unpackElems 32 (h.length / 4) h, {})).2

/-- The first valid entries of a reduce table that break R246. -/
def redTableOk (b : Nat) (l : List W64) : Bool :=
  let v := l.filter (fun w => bit w 20)
  let ids := v.map (fun w => fld w 63 56)
  ids.length = (uniq ids).length &&
  v.all (fun w =>
    let mask := fld w 55 48
    (onesOf 8 mask).all (hasPort b) && hasPort b (fld w 23 21) &&
    (redOrder w).all (fun p => mask.testBit p) && (uniq (redOrder w)).length = popcount 8 mask)

end Sys2Proof.Machine
end

