-- ==== Sys2Proof/Machine/LaneRow.lean ====
section
/-! DEFINITION. The lane row's records: fields, checks, stationary loads, accumulation, drained bytes (03 R77 to R112,
04 R115 to R133). -/

namespace Sys2Proof.Machine

/-! ### The record (03 R89) -/

abbrev lrPass (w : List W64) : Nat := fld (wd w 0) 55 53
abbrev lrSFmt (w : List W64) : Nat := fld (wd w 0) 52 49
abbrev lrTFmt (w : List W64) : Nat := fld (wd w 0) 48 45
abbrev lrSMx (w : List W64) : Bool := bit (wd w 0) 44
abbrev lrTMx (w : List W64) : Bool := bit (wd w 0) 43
abbrev lrSparse (w : List W64) : Nat := fld (wd w 0) 42 41
abbrev lrAccClear (w : List W64) : Bool := bit (wd w 0) 40
abbrev lrReuse (w : List W64) : Bool := bit (wd w 0) 39
abbrev lrDrainFmt (w : List W64) : Nat := fld (wd w 0) 38 36
abbrev lrRound (w : List W64) : Nat := fld (wd w 0) 35 34
abbrev lrSat (w : List W64) : Bool := bit (wd w 0) 33
abbrev lrBatch (w : List W64) : Bool := bit (wd w 0) 32
abbrev lrRows (w : List W64) : Nat := fld (wd w 0) 31 24
abbrev lrStreamFe (w : List W64) : Nat := fld (wd w 0) 23 22
abbrev lrDrainFe (w : List W64) : Nat := fld (wd w 0) 21 20
abbrev lrChunks (w : List W64) : Nat := fld (wd w 0) 15 0
abbrev lrKLast (w : List W64) : Nat := fld (wd w 1) 63 52
abbrev lrWidth (w : List W64) : Nat := fld (wd w 1) 51 43
abbrev lrSBase (w : List W64) : Nat := fld (wd w 1) 22 0
abbrev lrSRow (w : List W64) : Nat := fld (wd w 2) 50 34
abbrev lrSChunk (w : List W64) : Nat := fld (wd w 2) 33 17
abbrev lrSPlane (w : List W64) : Nat := fld (wd w 2) 16 0
abbrev lrTBase (w : List W64) : Nat := fld (wd w 3) 56 34
abbrev lrTLane (w : List W64) : Nat := fld (wd w 3) 33 17
abbrev lrTChunk (w : List W64) : Nat := fld (wd w 3) 16 0
abbrev lrDBase (w : List W64) : Nat := fld (wd w 4) 63 41
abbrev lrDRow (w : List W64) : Nat := fld (wd w 4) 40 24
abbrev lrSRing (w : List W64) : Nat := fld (wd w 4) 23 20
abbrev lrDRing (w : List W64) : Nat := fld (wd w 4) 19 16
abbrev lrTimeout (w : List W64) : Nat := fld (wd w 4) 15 0
abbrev lrSScale (w : List W64) : Nat := fld (wd w 5) 63 41
abbrev lrTScale (w : List W64) : Nat := fld (wd w 5) 40 18
abbrev recId (w : List W64) : Nat := fld (wd w 6) 63 48
abbrev recElemOff (w : List W64) : Nat := fld (wd w 6) 47 0
abbrev recTensor (w : List W64) : Nat := fld (wd w 7) 63 32
abbrev lrCode (w : List W64) : Nat := fld (wd w 7) 31 9

/-- The destination row length (03 R90). A length of 0 is none of the refusals of R91, so such a record runs, and row i draws
with the element indices of row 0 (DEDUCED, log entry 91). -/
def lrDestRow (w : List W64) : Nat := fld (wd w 1) 28 23 * 2 ^ 18 + fld (wd w 5) 17 0

/-- The record's product is of the integer class (02 R52). -/
def lrInt (w : List W64) : Bool := intClass (lrSFmt w) (lrSMx w)

/-- A complex pass mode (03 R105). -/
def lrComplex (w : List W64) : Bool := decide (2 ≤ lrPass w)

/-- Sections per stationary file (03 R80). -/
def lrSections (w : List W64) : Nat :=
  match lrPass w with | 0 => 1 | 1 => 2 | 2 => 2 | 3 => 3 | 4 => 4 | _ => 6

/-- K_c: elements of a section (03 R80). -/
def lrKc (w : List W64) : Nat :=
  match lrPass w with
  | 0 => match fmtBits (lrTFmt w) with | 16 => 512 | 8 => 1024 | 6 => 1024 | _ => 2048
  | 1 => 256 | 2 => 256 | 3 => 128 | 4 => 128 | _ => 64

/-- Bytes of one chunk of one lane (03 R80). -/
def lrChunkBytes (w : List W64) : Nat := lrSections w * lrKc w * fmtBits (lrTFmt w) / 8

/-- e: element pairs per lane per cycle, by the wider operand (03 R77). -/
def lrE (w : List W64) : Nat :=
  let x := max (fmtBits (lrSFmt w)) (fmtBits (lrTFmt w))
  if 16 ≤ x then 32 else if 8 ≤ x then 64 else 128

/-- The pattern of structured-weight mode: N, M, b (04 R116). -/
def patNMB (p : Nat) : Nat × Nat × Nat :=
  match p with | 0 => (2, 4, 2) | 1 => (1, 4, 2) | 2 => (4, 8, 3) | _ => (2, 8, 3)

/-- The operand number under which an item keeps the header of its code block. -/
abbrev headKey : Nat := 50

/-- Word 0 of the code block header of a record: as read when the record was taken, or as it stands (04 R118). -/
def codeHead (d : Dev) (b : Nat) (it : Item) : W64 :=
  match it.shapes.find? (fun p => p.1 = headKey) with
  | some p => wd p.2 0
  | none => (d.spWords b (lrCode it.words) 1).headD 0

/-- The pattern of a code block header (04 R118). -/
def lrPattern (h : W64) : Nat := fld h 63 62

/-- The elements of each section computed in chunk c (03 R89 K_LAST). -/
def lrKOf (w : List W64) (c : Nat) : Nat :=
  if c + 1 = lrChunks w && lrKLast w ≠ 0 then lrKLast w else lrKc w

/-- One pass: stream plane, stationary section, negated product, into real and into imaginary rows (02 R73 to R75,
03 R103, R104). -/
structure Pass where
  plane : Nat
  sect : Nat
  neg : Bool
  re : Bool
  im : Bool
  deriving DecidableEq, Repr

/-- The three passes of SPLIT3, smaller terms first (02 R73). -/
def split3 (p : Pass) : List Pass :=
  [{ p with plane := 2 * p.plane, sect := 2 * p.sect + 1 }, { p with plane := 2 * p.plane + 1, sect := 2 * p.sect },
   { p with plane := 2 * p.plane, sect := 2 * p.sect }]

/-- The passes of COMPLEX4 and of COMPLEX3 (02 R75). -/
def complex4 : List Pass :=
  [⟨0, 0, false, true, false⟩, ⟨1, 1, true, true, false⟩, ⟨0, 1, false, false, true⟩, ⟨1, 0, false, false, true⟩]
def complex3 : List Pass := [⟨0, 0, false, true, true⟩, ⟨1, 1, false, false, true⟩, ⟨2, 2, false, true, false⟩]

/-- The passes of a record, in order. -/
def lrPasses (w : List W64) : List Pass :=
  match lrPass w with
  | 0 => [⟨0, 0, false, true, false⟩]
  | 1 => split3 ⟨0, 0, false, true, false⟩
  | 2 => complex4
  | 3 => complex3
  | 4 => complex4.flatMap split3
  | _ => complex3.flatMap split3

/-- Stream planes of a record (03 R103). -/
def lrPlanes (w : List W64) : Nat := match lrPass w with | 0 => 1 | 1 => 2 | 2 => 2 | 3 => 3 | 4 => 4 | _ => 6

/-- The dense elements one stream row supplies in a chunk (04 R117). -/
def lrSpan (pat : Nat) (w : List W64) (k : Nat) : Nat :=
  if lrSparse w = 1 then k * (patNMB pat).2.1 / (patNMB pat).1 else k

/-- Effective width of bench b (03 R110). -/
def effWidth (d : Dev) (b : Nat) : Nat :=
  if d.get (Reg.LR_WIDTH_UNIFORM_EN b) = 1 then d.get (Reg.LR_WIDTH_UNIFORM_WIDTH b)
  else d.get (Reg.LR_WIDTH_PRESENTED_WIDTH b)

/-- Bytes of a stream row's part in chunk c of a plane: those of the K_LAST elements in the last chunk, which alone are read
(03 R89, R93; DESIGN CHOICE, log entry 90). -/
def lrStreamBytes (pat : Nat) (w : List W64) (c : Nat) : Nat :=
  ceilDiv (lrSpan pat w (lrKOf w c) * fmtBits (lrSFmt w)) 8

/-- Start of chunk c of stream row i (or ring position i) in plane p (03 R90). -/
def lrStreamAddr (w : List W64) (i c p : Nat) : Nat :=
  lrSBase w + 64 * (i * lrSRow w + c * lrSChunk w + p * lrSPlane w)

/-- The byte ranges of a stream row in every chunk and plane. -/
def lrStreamRanges (pat : Nat) (w : List W64) (i : Nat) : List (Nat × Nat) :=
  (List.range (lrChunks w)).flatMap (fun c =>
    (List.range (lrPlanes w)).map (fun p => (lrStreamAddr w i c p, lrStreamBytes pat w c)))

/-- Bytes per drained value (03 R85). -/
def lrDrainWidth (w : List W64) : Nat := if lrDrainFmt w = 2 || lrDrainFmt w = 3 then 2 else 4

/-- Start of a drained row by its accumulator row or drain-ring position (03 R90, R105). -/
def lrDrainAddr (w : List W64) (i : Nat) : Nat := lrDBase w + 64 * i * lrDRow w

/-- The byte range of a drained row. -/
def lrDrainRange (w : List W64) (i : Nat) : Nat × Nat := (lrDrainAddr w i, lrWidth w * lrDrainWidth w)

/-- Stream rows, as far as they are known before the record runs: tile rows, or every position of the ring. -/
def lrStreamRows (w : List W64) : Nat := if lrBatch w then 2 ^ lrSRing w else lrRows w

/-- Drained rows: accumulator rows of the tile, or every position of the ring. -/
def lrDrainRowsOf (w : List W64) : List Nat :=
  if lrBatch w then List.range (2 ^ lrDRing w)
  else List.range (lrRows w) ++ (if lrComplex w then (List.range (lrRows w)).map (64 + ·) else [])

/-- The scales of chunk c of stream row i (03 R90, 04 R122). -/
def lrStreamScales (pat : Nat) (w : List W64) (i c : Nat) : List (Nat × Nat) :=
  if lrSMx w then
    [(lrSScale w + (i * lrChunks w + c) * (lrSpan pat w (lrKc w) / 32), ceilDiv (lrSpan pat w (lrKOf w c)) 32)]
  else []

/-- The codes of chunk c of lane j (04 R119). -/
def lrCodeRange (h : W64) (w : List W64) (c j : Nat) : Nat × Nat :=
  (lrCode w + 64 + 64 * (j * fld h 57 41 + c * fld h 40 24), lrKc w * (patNMB (lrPattern h)).2.2 / 8)

/-- The codes that a load of chunk c reads: the awl delivers them (04 R115, R121). -/
def lrCodeRanges (h : W64) (w : List W64) (c : Nat) : List (Nat × Nat) :=
  if lrSparse w = 1 then (List.range (lrWidth w)).map (lrCodeRange h w c) else []

/-- Every window of a chunk. -/
def lrAll (w : List W64) : Nat := 2 ^ (lrKc w / 128) - 1

/-- What a load of the windows `mask` of chunk c reads of lane j: values and scales (03 R90, 04 R131). -/
def lrLaneRanges (w : List W64) (c mask j : Nat) : List (Nat × Nat) :=
  let a := lrTBase w + 64 * (j * lrTLane w + c * lrTChunk w)
  let s := lrTScale w + (j * lrChunks w + c) * lrKc w / 32
  if mask = lrAll w then (a, lrChunkBytes w) :: (if lrTMx w then [(s, lrKc w / 32)] else [])
  else (onesOf (lrKc w / 128) mask).flatMap (fun v =>
    let n := 128 * fmtBits (lrTFmt w) / 8
    (a + v * n, n) :: (if lrTMx w then [(s + 4 * v, 4)] else []))

/-- The byte ranges that a load of the windows `mask` of chunk c reads through the stationary port. -/
def lrLoadRanges (w : List W64) (c mask : Nat) : List (Nat × Nat) :=
  (List.range (lrWidth w)).flatMap (lrLaneRanges w c mask)

/-- The windows that a record with STAT_REUSE finds in its predecessor's file (04 R132). -/
def laneHeld (l : LaneSt) (file : Nat) : Nat := if file = 0 then l.maskA else l.maskB

/-- Addresses the record touches beyond the scratchpad fail its check (03 R91). Strides are not negative, so the last rows and
lanes of the last two chunks reach furthest. A COMPACTED record addresses no stream (04 R130); one with STAT_REUSE loads no
chunk, or the windows that are missing (03 R92, 04 R132). -/
def lrInSp (d : Dev) (b : Nat) (h : W64) (w : List W64) : Bool :=
  let pat := lrPattern h
  let l := (d.bn b).lane
  let ends := [lrChunks w - 2, lrChunks w - 1]
  let row := lrStreamRows w - 1
  let lane := lrWidth w - 1
  let loads := !lrReuse w || (lrSparse w = 2 && laneHeld l l.lastFile &&& lrAll w ≠ lrAll w)
  (lrSparse w = 2 || ends.all (fun c =>
    rangesInSp ((List.range (lrPlanes w)).map (fun p => (lrStreamAddr w row c p, lrStreamBytes pat w c)) ++
      lrStreamScales pat w row c))) &&
  (!loads || ends.all (fun c => rangesInSp (lrLaneRanges w c (lrAll w) lane))) &&
  (lrDrainFmt w = 0 || rangesInSp ((lrDrainRowsOf w).map (lrDrainRange w))) &&
  (lrSparse w ≠ 1 || lrReuse w || ends.all (fun c => rangesInSp [lrCodeRange h w c lane]))

/-- The checks of a lane-row record (03 R83, R85, R87, R91 to R94; 04 R117, R120; 02 R53). Those against the predecessor
are made when the record starts, since its predecessor is known only then (log entry 17). A COMPACTED record ignores its own
stream geometry (04 R130). `h` is the header of its code block. -/
def lrCheck (d : Dev) (b : Nat) (start : Bool) (h : W64) (w : List W64) : Option Nat :=
  let pat := lrPattern h
  let s := lrSFmt w
  let t := lrTFmt w
  let pred := (d.bn b).lane.pred
  firstFail [
    (laneOperand s && laneOperand t, eFormat),
    ((!lrSMx w || mxType s) && (!lrTMx w || mxType t), eFormat),
    (lrInt w == intClass t (lrTMx w), eFormat),
    (lrDrainFmt w = 0 || (if lrInt w then lrDrainFmt w = 4 else lrDrainFmt w ≤ 3), eFormat),
    (!(lrSparse w = 1 && fmtBits s = 6), eFormat),
    ((lrSparse w = 2 || lrSBase w % 64 = 0) && lrTBase w % 64 = 0 && lrDBase w % 64 = 0 && lrCode w % 64 = 0, eAlignment),
    ((lrSparse w = 2 || lrSScale w % 8 = 0) && lrTScale w % 8 = 0, eAlignment),
    (lrPass w ≤ 5 && lrSparse w ≤ 2 && lrDrainFmt w ≤ 4 && lrRound w ≤ 2 && lrStreamFe w ≤ 2 && lrDrainFe w ≤ 1,
      eParameter),
    (1 ≤ lrRows w && lrRows w ≤ (if lrComplex w then 64 else 128), eParameter),
    (1 ≤ lrChunks w, eParameter), (1 ≤ lrWidth w && lrWidth w ≤ 256, eParameter), (lrKLast w ≤ lrKc w, eParameter),
    (lrWidth w ≤ effWidth d b, eParameter),
    (lrSparse w = 0 || lrPass w = 0, eParameter),
    (lrPass w = 0 || (s = t && (s = fmtBF16 || (s = fmtFP16 && (lrPass w = 2 || lrPass w = 3)))), eParameter),
    (!(lrBatch w && lrRound w = 2), eParameter),
    (!(lrSparse w = 1 && lrKLast w % (patNMB pat).1 ≠ 0), eParameter),
    (!lrBatch w || (lrStreamFe w = 2 && lrDrainFe w = 1 && 7 ≤ lrSRing w && lrSRing w ≤ 14 &&
      7 ≤ lrDRing w && lrDRing w ≤ 14), eParameter),
    (!start || lrAccClear w || (match pred with
      | some p => lrInt p == lrInt w && lrRows p = lrRows w && lrWidth p = lrWidth w
      | none => false), eParameter),
    (!start || !lrReuse w || (match pred with
      | some p => lrChunks p = 1 && lrChunks w = 1 && lrTFmt p = t && lrTMx p == lrTMx w && lrPass p = lrPass w
      | none => false), eParameter),
    (lrInSp d b h w, eParameter),
    (lrStreamFe w = 0 || lrSparse w = 2 || (List.range (lrStreamRows w)).all (fun i => rangesSlotted (lrStreamRanges pat w i)),
      eAlignment),
    (lrDrainFe w = 0 || lrDrainFmt w = 0 || rangesSlotted ((lrDrainRowsOf w).map (lrDrainRange w)), eAlignment)]

/-! ### Stationary loads (03 R80, R82; 04 R121, R131) -/

/-- One lane's chunk, scales and codes, read from the scratchpad. -/
def lrLoadLane (d : Dev) (b : Nat) (h : W64) (w : List W64) (c j : Nat) : List Byte × List Byte × List Byte :=
  let codes := lrCodeRange h w c j
  (d.sp b (lrTBase w + 64 * (j * lrTLane w + c * lrTChunk w)) (lrChunkBytes w),
   if lrTMx w then d.sp b (lrTScale w + (j * lrChunks w + c) * lrKc w / 32) (lrKc w / 32) else [],
   if lrSparse w = 1 then d.sp b codes.1 codes.2 else [])

/-- Replace, in a lane's old bytes, the windows of a mask by those of the new bytes (04 R131). -/
def mergeWindows (winBytes n mask : Nat) (old new : List Byte) : List Byte :=
  (List.range n).flatMap (fun v =>
    let part := if mask.testBit v then new else old
    let p := (part.drop (v * winBytes)).take winBytes
    p ++ List.replicate (winBytes - p.length) 0)

/-- Load chunk c into a file, the windows of `mask` only; the lanes in use beyond WIDTH receive zeros, and those beyond the
effective width are left as they are (03 R82, R110; 04 R131, R132). A record with STAT_REUSE adds windows to the chunk that
the file holds; any other load begins the file's mask afresh. -/
def lrLoad (d : Dev) (b : Nat) (h : W64) (w : List W64) (c file mask : Nat) : Dev :=
  let nw := lrKc w / 128
  let full := mask = lrAll w
  let wb := 128 * fmtBits (lrTFmt w) / 8
  let width := lrWidth w
  let step (l : LaneSt) (j : Nat) : LaneSt :=
    let key := file * 256 + j
    if j < width then
      let (v, s, k) := lrLoadLane d b h w c j
      let v := if full then v else mergeWindows wb nw mask (SMap.get (fun _ => []) l.files key) v
      let s := if full then s else mergeWindows 4 nw mask (SMap.get (fun _ => []) l.scales key) s
      { l with files := SMap.set (fun _ => []) l.files key v, scales := SMap.set (fun _ => []) l.scales key s
               codes := SMap.set (fun _ => []) l.codes key k }
    else { l with files := l.files.erase key, scales := l.scales.erase key, codes := l.codes.erase key }
  let lane := (List.range (effWidth d b)).foldl step (d.bn b).lane
  let m := if lrReuse w then laneHeld lane file ||| mask else mask
  let lane := if file = 0 then { lane with maskA := m } else { lane with maskB := m }
  let codeCycles := if lrSparse w = 1 then 2 * (lrCodeRange h w c 0).2 else 0
  (d.onBn b (fun x => { x with lane := lane })).addTo (Reg.AWL_COUNT0_CODE_CYCLES b) codeCycles

/-! ### One row of one chunk (02 R54 to R56) -/

/-- A lane's stationary section as element codes with scale codes: code, scale (127 when not block-scaled). -/
def laneSection (l : LaneSt) (w : List W64) (file j sect : Nat) : List (Nat × Nat) :=
  let kc := lrKc w
  let bw := fmtBits (lrTFmt w)
  let bytes := SMap.get (fun _ => []) l.files (file * 256 + j)
  let codes := unpackElems bw kc ((bytes.drop (sect * kc * bw / 8)).take (kc * bw / 8))
  let sc := SMap.get (fun _ => []) l.scales (file * 256 + j)
  codes.mapIdx (fun k c => (c, if lrTMx w then (sc.getD (k / 32) 0).toNat else 127))

/-- The value of an operand element: with its scale when block-scaled (02 R48, R49). -/
def operand (fmt : Nat) (mx : Bool) (p : Nat × Nat) : Val :=
  if mx then decodeMx fmt p.2 p.1 else decodeElem fmt false p.1

/-- A product, and whether one of its factors is NaN. -/
abbrev Prod32 := Val × Bool

/-- The product of two operand elements. -/
def product (x y : Val) : Prod32 := (x.mul y, x.isNan || y.isNan)

/-- Accumulate one cycle: the exact sum of the products and the accumulator, rounded once (02 R54, R55), or saturated to
INT32 (R56). `acc` is the accumulator's code. A NaN counts when no factor and no accumulator was one (02 R71). -/
def accCycle (int : Bool) (acc : Nat) (prods : List Prod32) : Nat × Cnt :=
  if int then
    let t := prods.foldl (fun a v => a + v.1.scaled 0) (signed 32 acc)
    encInt fmtINT32 t
  else
    let ops := dec32 acc :: prods.map Prod.fst
    let r := enc32 (Val.sum ops)
    let made : Bool := (dec32 r).isNan && !(dec32 acc).isNan && !prods.any Prod.snd
    (r, if made then { nans := 1 } else cntOf ops r)

/-- Accumulate the cycles of a row in order. -/
def accCycles (int : Bool) (acc : Nat) (cycles : List (List Prod32)) : Nat × Cnt :=
  cycles.foldl (fun (p : Nat × Cnt) c => let (r, n) := accCycle int p.1 c; (r, p.2.add n)) (acc, {})

/-- Cut a list into groups of `n`. -/
def groups {α : Type} (n : Nat) (l : List α) : List (List α) := chunk n (l.length + 1) l

/-- The stream elements (code, scale) of a row in chunk c and plane p. `pos` is the row, or its ring position. -/
def streamElems (d : Dev) (b : Nat) (h : W64) (w : List W64) (pos c p : Nat) : List (Nat × Nat) :=
  let pat := lrPattern h
  let n := lrSpan pat w (lrKOf w c)
  let codes := unpackElems (fmtBits (lrSFmt w)) n (d.sp b (lrStreamAddr w pos c p) (lrStreamBytes pat w c))
  let sc := (lrStreamScales pat w pos c).flatMap (fun r => d.sp b r.1 r.2)
  codes.mapIdx (fun k x => (x, if lrSMx w then (sc.getD (k / 32) 0).toNat else 127))

/-- The products of a lane for a dense row: groups of e (03 R77). -/
def denseCycles (w : List W64) (p : Pass) (a : List Val) (bs : List (Nat × Nat)) : List (List Prod32) :=
  groups (lrE w) (List.zipWith (fun x y =>
    let v := product x (operand (lrTFmt w) (lrTMx w) y)
    if p.neg then (v.1.negate, v.2) else v) a bs)

/-- p of structured-weight mode: kept elements per cycle (04 R120). -/
def structP (w : List W64) (pat : Nat) : Nat :=
  min (lrE w) (1024 * (patNMB pat).1 / (fmtBits (lrSFmt w) * (patNMB pat).2.1))

/-- The products of a lane for a structured row: each kept element with the stream element its code selects (04 R120). -/
def structCycles (w : List W64) (pat k : Nat) (a : List Val) (bs : List (Nat × Nat)) (codes : List Byte) :
    List (List Prod32) :=
  let (n, m, cb) := patNMB pat
  let cs := unpackBits cb k (ofLe codes)
  groups (structP w pat) ((List.range k).map (fun i =>
    product (a.getD (i / n * m + cs.getD i 0) (.fin false 0 0)) (operand (lrTFmt w) (lrTMx w) (bs.getD i (0, 127)))))

/-- q of compacted-stream mode: packets per cycle (04 R126). -/
def packQ (w : List W64) : Nat :=
  let bytes := match fmtBits (lrSFmt w) with | 16 => 96 | 8 => 64 | 6 => 56 | _ => 48
  min (128 / bytes) (lrE w / 32)

/-- The products of a lane for the packets of a row: groups of q packets (04 R126). -/
def packetCycles (w : List W64) (ps : List Packet) (bs : List (Nat × Nat)) : List (List Prod32) :=
  (groups (packQ w) ps).map (fun g => g.flatMap (fun p => p.elems.map (fun e =>
    product (operand (lrSFmt w) (lrSMx w) (e.2.1, e.2.2))
      (operand (lrTFmt w) (lrTMx w) (bs.getD (128 * p.window + e.1) (0, 127))))))

/-- One lane's cycles for one pass of one row. -/
def laneCycles (l : LaneSt) (w : List W64) (pat file j k : Nat) (p : Pass) (a : List Val) (ps : List Packet) :
    List (List Prod32) :=
  let bs := laneSection l w file j p.sect
  match lrSparse w with
  | 0 => denseCycles w p a bs
  | 1 => structCycles w pat k a bs (SMap.get (fun _ => []) l.codes (file * 256 + j))
  | _ => packetCycles w ps bs

/-- Add a row's contribution from one pass into the accumulators of every lane in use. -/
def rowPass (l : LaneSt) (w : List W64) (pat file i k : Nat) (p : Pass) (a : List Val) (ps : List Packet) :
    LaneSt × Cnt :=
  let int := lrInt w
  (List.range (lrWidth w)).foldl (fun (q : LaneSt × Cnt) j =>
    let cyc := laneCycles l w pat file j k p a ps
    let upd (q : LaneSt × Cnt) (row : Nat) : LaneSt × Cnt :=
      let key := row * 256 + j
      let (r, n) := accCycles int (SMap.get (fun _ => 0) q.1.acc key) cyc
      ({ q.1 with acc := SMap.set (fun _ => 0) q.1.acc key r }, q.2.add n)
    let q := if p.re then upd q i else q
    if p.im then upd q (64 + i) else q) (l, {})

/-- Clear accumulator row `i` (03 R83). -/
def clearRow (l : LaneSt) (i : Nat) : LaneSt := { l with acc := SMap.eraseRange l.acc (i * 256) (i * 256 + 256) }

/-- One row of one chunk in every pass: clear before the first contribution, then accumulate (03 R83, 02 R74). -/
def rowChunk (d : Dev) (b : Nat) (h : W64) (w : List W64) (file pos i c : Nat) (ps : List Packet) : Dev :=
  let pat := lrPattern h
  let l := (d.bn b).lane
  let l := if lrAccClear w && c = 0 then (if lrComplex w then clearRow (clearRow l i) (64 + i) else clearRow l i) else l
  let (l, n) := (lrPasses w).foldl (fun (q : LaneSt × Cnt) p =>
    let a := if lrSparse w = 2 then [] else (streamElems d b h w pos c p.plane).map (operand (lrSFmt w) (lrSMx w))
    let (l', m) := rowPass q.1 w pat file i (lrKOf w c) p a ps
    (l', q.2.add m)) (l, {})
  (d.onBn b (fun x => { x with lane := l })).count b n

/-! ### Drain (03 R85 to R87) -/

/-- The bytes of a drained row and its counts. -/
def drainBytes (d : Dev) (b : Nat) (r : DrainRow) : List Byte × Cnt :=
  let w := r.words
  let mode := rndOf (lrRound w)
  let seed := (d.reg Reg.JOB_SEED).toNat
  let t := if d.get Reg.STEP_STATE_PHASE = 0 then 0 else d.get Reg.STEP_STATE_STEP
  let vals := (List.range (lrWidth w)).map (fun j =>
    let a := SMap.get (fun _ => 0) (d.bn b).lane.acc (r.acc * 256 + j)
    match lrDrainFmt w with
    | 2 | 3 =>
      let x := if mode = .sr then draw seed r.tensor (r.index + j) t else 0
      let f : FpFmt := if lrDrainFmt w = 2 then ⟨8, 7, 127, 0x7F7F, true, some 0x7FC0⟩ else ⟨5, 10, 15, 0x7BFF, true, some 0x7E00⟩
      f.encode mode (lrSat w) x (dec32 a)
    | _ => (if lrInt w then a else enc32 (dec32 a), {}))
  (vals.flatMap (fun v => toLe (lrDrainWidth w) v.1), Cnt.sum (vals.map Prod.snd))

end Sys2Proof.Machine
end

