-- ==== Sys2Proof/Machine/Plan.lean ====
section
/-! DEFINITION. What the checks of a record of the awl, the last or the vector engine come to: the bytes it reads and writes,
its tagged ends and its work (04 R150; 07 R212, R222, R564). -/

namespace Sys2Proof.Machine

/-- Why a running record stops: a schedule fault, or an uncorrectable word at an address. -/
inductive Stop where
  | schedule
  | uncorrectable (addr : Nat)
  deriving DecidableEq, Repr

/-- A checked record: the runs its two tagged accesses cover, the bytes it reads and writes, and its work. `tableReads` and
`tableWrites` are the accesses of ROUTE that go through the awl's port (07 R212). `own` says that the work itself meets the
errors of its words, as its tiles come to them (06 R209). -/
structure Plan where
  src : List (Nat × Nat) := []
  dst : List (Nat × Nat) := []
  srcFe : Nat := 0
  dstFe : Nat := 0
  reads : List (Nat × Nat) := []
  writes : List (Nat × Nat) := []
  tableReads : List (Nat × Nat) := []
  tableWrites : List (Nat × Nat) := []
  own : Bool := false
  run : Dev → Dev × Option Stop

/-- Engine 0 is the awl, 1 the last, 2 the vector engine. -/
def Bench.eng (x : Bench) (e : Nat) : EngSt := if e = 0 then x.awl else if e = 1 then x.last else x.vec

/-- Replace an engine's state. -/
def Bench.setEng (x : Bench) (e : Nat) (s : EngSt) : Bench :=
  if e = 0 then { x with awl := s } else if e = 1 then { x with last := s } else { x with vec := s }

/-- Change an engine's state. -/
def Dev.onEng (d : Dev) (b e : Nat) (f : EngSt → EngSt) : Dev := d.onBn b (fun x => x.setEng e (f (x.eng e)))

/-- The RECORD_TYPE of a record. -/
def recType (w : List W64) : Nat := fld (wd w 0) 63 56

/-- The record an engine has in progress, or the one at the head of its queue. -/
def engHead (d : Dev) (b e : Nat) : Option Item :=
  let s := (d.bn b).eng e
  match s.cur with
  | some r => some r.item
  | none => s.queue.head?

/-- The type of the record an engine has at hand, 0 when none. -/
def engType (d : Dev) (b e : Nat) : Nat := match engHead d b e with | some i => recType i.words | none => 0

/-- The scratchpad port of a record of an engine: the vector engine runs ROUTE's shapes through its own port (05 R153,
07 R212). -/
def engPort (e : Nat) (w : List W64) : Nat := if e = 0 && recType w ≠ 0x38 then 4 else 5

/-- Operand k of a record, as read when the record was taken (06 R182), or as it stands. -/
def itemWords (d : Dev) (b : Nat) (it : Item) (k off n : Nat) : List W64 :=
  match it.shapes.find? (fun p => p.1 = k) with
  | some p => p.2
  | none => d.spWords b off n

/-- The shape that operand k of a record names. An issue of a ragged loop carries its own copy (05 R171). -/
def itemShape (d : Dev) (b : Nat) (it : Item) (k off : Nat) : Shape := Shape.ofWords (itemWords d b it k off 16)

/-- The checks of the place of a shape record (06 R182). -/
def shapePlace (off : Nat) : Option Nat := firstFail [(off % 64 = 0, eAlignment), (off + 128 ≤ spSize, eParameter)]

/-- The checks every record of these engines shares: tag codes, tag runs on slot boundaries, ends that share a slot
(07 R222, R564). -/
def tagChecks (src dst : List (Nat × Nat)) (srcFe dstFe : Nat) : List (Bool × Nat) :=
  [(srcFe ≤ 2 && dstFe ≤ 1, eParameter),
   (srcFe = 0 || rangesSlotted src, eAlignment), (dstFe = 0 || rangesSlotted dst, eAlignment),
   (srcFe = 0 || dstFe = 0 ||
     !(rangeSlots 0 src).any (fun k => (rangeSlots 0 dst).contains k), eParameter)]

/-- Turn a list of checks and the plan behind them into the plan or the first error. -/
def planOf (checks : List (Option Nat)) (p : Plan) : Except Nat Plan :=
  match checks.findSome? id with
  | some e => .error e
  | none => .ok p

/-- An overrun notice, counted and sent (04 R142, R143, R152). -/
def awlOverrun (d : Dev) (b cycles : Nat) (w : List W64) : Dev :=
  let beats := ceilDiv cycles 3000
  (((d.inc (Reg.AWL_COUNT1_OVERRUNS b)).set (Reg.AWL_LAST_OVERRUN_RECORD_ID b) (recId w)).set
    (Reg.AWL_LAST_OVERRUN_SLIP_REQUESTED b) (min beats 0xFFFF)).overrun b beats (recId w)

/-- Records go on only while the job runs and the device is not frozen; no record runs while a vote is open (11 R308,
16 R442, 21 R532). -/
def Dev.runs (d : Dev) : Bool := d.js = jsRunning && !d.paused && d.get Reg.STEP_STATE_PHASE ≠ 2

/-- A record in progress goes on while the job runs, and at a quiesce point until it has ended (03 R95). -/
def Dev.finishes (d : Dev) : Bool := d.runs || (d.js = jsPreempting && !d.frozen)

/-- The list of a bench is stopped by a schedule fault (17 R470). -/
def seqFault (d : Dev) (b recordId addr : Nat) : Dev :=
  (d.onBn b (fun x => { x with seq := .faulted, raggedSt := none })).schedFault b recordId addr

end Sys2Proof.Machine
end

