-- ==== Sys2Proof/Machine/Awl.lean ====
section
/-! DEFINITION. The awl: compaction, tiles, gather, scatter-add, sort and weighted sums (04 R113 to R152, 06 R190 to R198). -/

namespace Sys2Proof.Machine

/-! ### The record (04 R144) -/

abbrev awType (w : List W64) : Nat := fld (wd w 0) 63 56
abbrev awKind (w : List W64) : Nat := fld (wd w 0) 55 54
abbrev awValidEn (w : List W64) : Bool := bit (wd w 0) 53
abbrev awRound (w : List W64) : Nat := fld (wd w 0) 52 51
abbrev awSat (w : List W64) : Bool := bit (wd w 0) 50
/-- WINDOWS, 1 to 16 in four bits: 0 stands for 16 (log entry 16). -/
def awWindows (w : List W64) : Nat := let v := fld (wd w 0) 49 46; if v = 0 then 16 else v
abbrev awRows (w : List W64) : Nat := fld (wd w 0) 31 24
abbrev awSrcFe (w : List W64) : Nat := fld (wd w 0) 23 22
abbrev awDstFe (w : List W64) : Nat := fld (wd w 0) 21 20
abbrev awChunks (w : List W64) : Nat := fld (wd w 0) 15 0
abbrev awSrc (w : List W64) : Nat := fld (wd w 1) 63 41
abbrev awAux (w : List W64) : Nat := fld (wd w 1) 40 18
abbrev awDst (w : List W64) : Nat := fld (wd w 2) 63 41
abbrev awAux2 (w : List W64) : Nat := fld (wd w 2) 40 18
abbrev awValid (w : List W64) : Nat := fld (wd w 3) 63 41
abbrev awCountAddr (w : List W64) : Nat := fld (wd w 3) 40 18
abbrev awCountEn (w : List W64) : Bool := bit (wd w 3) 17
abbrev awPad (w : List W64) : Nat := fld (wd w 4) 63 56
abbrev awK (w : List W64) : Nat := fld (wd w 4) 55 52
abbrev awNegSkip (w : List W64) : Bool := bit (wd w 4) 51
abbrev awDesc (w : List W64) : Bool := bit (wd w 4) 50
abbrev awBudget (w : List W64) : Nat := fld (wd w 5) 63 40
abbrev awWinBudget (w : List W64) : Nat := fld (wd w 5) 39 16

/-- Fields outside a type's use: (word, high, low) that must be zero. Of the dashed operands R145 says 'ignored' and R150 a
parameter error; the model takes R150 (DESIGN CHOICE, log entry 93). -/
def awZero (t : Nat) : List (Nat × Nat × Nat) :=
  let geom := [(0, 49, 46), (0, 31, 24), (0, 15, 0)]
  let sums := [(0, 52, 50)]
  let counts := [(3, 40, 17)]
  let w4 := [(4, 63, 56)]
  let wk := [(4, 55, 51)]
  let ds := [(4, 50, 50)]
  let aux2 := [(2, 40, 18)]
  let valid := [(3, 63, 41)]
  let wb := [(5, 39, 16)]
  let kind := [(0, 55, 53)]
  match t with
  | 0x20 => sums ++ [(2, 63, 41)] ++ aux2 ++ counts ++ w4 ++ wk ++ ds
  | 0x21 => [(0, 53, 53)] ++ sums ++ aux2 ++ valid ++ counts ++ w4 ++ wk ++ ds ++ wb
  | 0x22 => kind ++ sums ++ [(1, 40, 18)] ++ aux2 ++ valid ++ counts ++ w4 ++ wk ++ ds ++ wb
  | 0x23 => kind ++ geom ++ sums ++ aux2 ++ wk ++ ds ++ wb
  | 0x24 => kind ++ geom ++ aux2 ++ valid ++ w4 ++ wk ++ ds ++ wb
  | 0x25 => kind ++ geom ++ sums ++ valid ++ w4 ++ wk ++ wb
  | _ => kind ++ geom ++ valid ++ w4 ++ ds ++ wb

/-- The checks of one operand's shape for the awl (06 R184, R185, R192). -/
def awShape (off : Nat) (s : Shape) : List (Option Nat) :=
  [shapePlace off, s.check mxType, s.checkLocal 8]

/-! ### Elements under 06 R193 -/

/-- The coordinate lies inside the extents. -/
def Shape.inside (s : Shape) (x : List Int) : Bool :=
  (List.zipWith (fun (v : Int) (e : Nat) => decide (0 ≤ v) && decide (v < (e : Int))) x s.exts).all id

/-- Read an element: FILL, counted, when out of bounds. -/
def awGet (d : Dev) (b : Nat) (s : Shape) (x : List Int) : Nat × Dev :=
  if s.inside x then (d.rdElem b s (x.map Int.toNat), d)
  else (s.fill % 2 ^ s.w, d.inc (Reg.LAYOUT_COUNT0_OOB_READS b))

/-- Write an element: dropped and counted when out of bounds. -/
def awPut (d : Dev) (b : Nat) (s : Shape) (x : List Int) (v : Nat) : Dev :=
  if s.inside x then d.wrElem b s (x.map Int.toNat) v else d.inc (Reg.LAYOUT_COUNT0_OOB_WRITES b)

/-- Every coordinate below the outermost dimension, in row-major order. -/
def Shape.lower (s : Shape) : List (List Nat) :=
  let es := s.exts.dropLast
  (List.range (es.foldl (· * ·) 1)).map (coordsOf es)

/-- The lower coordinates of a pair of row tensors: those of either (04 R563). -/
def lowerPairs (a c : Shape) : List (List Nat) :=
  let la := a.lower
  la ++ (c.lower.filter (fun x => !la.contains x))

/-- A row's element: lower coordinates and the outermost coordinate. -/
def atRow (x : List Nat) (i : Int) : List Int := x.map Int.ofNat ++ [i]

/-- Entry number n of an index operand. -/
def indexAt (d : Dev) (b : Nat) (s : Shape) (n : Nat) : Int := decInt s.fmt (d.rdElem b s (coordsOf s.exts n))

/-- Count an index event at the index level (06 R194). -/
def indexCount (d : Dev) (b : Nat) (r : Int × Nat × Nat) : Dev :=
  (d.addTo (Reg.LAYOUT_COUNT1_INDEX_NEGATIVE b) r.2.1).addTo (Reg.LAYOUT_COUNT1_INDEX_HIGH b) r.2.2

/-- The number of valid entries: the operand's, the count word's, or the group's (04 R144, 05 R171, 06 R195). -/
def awCount (d : Dev) (b : Nat) (it : Item) (total : Nat) : Nat × Dev :=
  let c := match it.count with
    | some c => some c
    | none => if awCountEn it.words then some (ofLe (d.sp b (awCountAddr it.words) 4)) else none
  match c with
  | none => (total, d)
  | some c => if total < c then (total, d.inc (Reg.LAYOUT_COUNT1_INDEX_HIGH b)) else (c, d)

/-- Bytes of one slice of the outermost dimension (06 R190). -/
def sliceBytes (s : Shape) : Nat :=
  ceilDiv ((if s.rank = 1 then 1 else s.e 0) * s.w) 8 * ((s.exts.dropLast.drop 1).foldl (· * ·) 1)

/-- Enter the tail pass when the work exceeds the budget (04 R141, R142). -/
def tailPass (d : Dev) (b : Nat) (w : List W64) (n per : Nat) : Dev :=
  if awBudget w ≠ 0 && awBudget w < n then awlOverrun d b ((n - awBudget w) * per) w else d

/-! ### GATHER (04 R146) -/

/-- A row's element codes and block scales (06 R197), with its out-of-bounds reads counted. -/
def gatherRead (d : Dev) (b : Nat) (t : Shape) (low : List (List Nat)) (i : Int) : (List Nat × List Nat) × Dev :=
  let (vs, d) := low.foldl (fun (p : List Nat × Dev) x =>
    let (v, d) := awGet p.2 b t (atRow x i)
    (v :: p.1, d)) ([], d)
  let sc := if t.mx then low.map (fun x =>
      if t.inside (atRow x i) then
        ((d.sp b (t.scaleBase + t.scaleIndex (x ++ [i.toNat])) 1).headD 0).toNat
      else 0x7F) else []
  ((vs.reverse, sc), d)

/-- Write an output row, with its block scales. -/
def gatherWrite (d : Dev) (b : Nat) (t : Shape) (low : List (List Nat)) (i : Nat) (r : List Nat × List Nat) : Dev :=
  let d := (low.zip r.1).foldl (fun d p => awPut d b t (atRow p.1 i) p.2) d
  if t.mx then
    (low.zip r.2).foldl (fun d p =>
      if p.1.headD 0 % 32 = 0 && t.inside (atRow p.1 i) then
        d.spWr b (t.scaleBase + t.scaleIndex (p.1 ++ [i])) [byteOf p.2]
      else d) d
  else d

/-- GATHER's entries from `i`: each distinct row of a merge window is read once. -/
def gatherLoop (b : Nat) (t idx out : Shape) (low : List (List Nat)) :
    Nat → Nat → List (Int × (List Nat × List Nat)) → Dev → Dev
  | 0, _, _, d => d
  | n + 1, i, cache, d =>
    let cache := if i % 1024 = 0 then [] else cache
    let r := indexRule idx.indexFill (t.exts.getLastD 1) (indexAt d b idx i)
    let d := indexCount d b r
    let (row, cache, d) := match cache.find? (fun c => c.1 = r.1) with
      | some c => (c.2, cache, d)
      | none =>
        let (row, d) := gatherRead d b t low r.1
        (row, (r.1, row) :: cache, d)
    gatherLoop b t idx out low n (i + 1) cache (gatherWrite d b out low i row)

/-- The padding rows and the bitmap. -/
def gatherPad (d : Dev) (b : Nat) (w : List W64) (out : Shape) (n : Nat) : Dev :=
  if awPad w = 0 then d else
  let m := roundUp n (awPad w)
  let low := out.lower
  let fill := (low.map (fun _ => out.fill % 2 ^ out.w), low.map (fun _ => 0x7F))
  let d := (List.range (m - n)).foldl (fun d k => gatherWrite d b out low (n + k) fill) d
  d.spWr b (awValid w) (toLe (ceilDiv m 128 * 16) (2 ^ n - 1))

/-- GATHER. -/
def gather (d : Dev) (b : Nat) (it : Item) (t idx out : Shape) : Dev :=
  let (n, d) := awCount d b it idx.count
  let d := tailPass d b it.words n (ceilDiv (sliceBytes t) 128)
  gatherPad (gatherLoop b t idx out (lowerPairs t out) n 0 [] d) b it.words out n

/-! ### SCATTER_ADD (04 R147) -/

/-- Round and write one element under ROUND and SAT (02 R62 to R67). -/
def awStore (d : Dev) (b : Nat) (w : List W64) (s : Shape) (x : List Nat) (v : Nat) : Dev :=
  let mode := rndOf (awRound w)
  let t := if d.get Reg.STEP_STATE_PHASE = 0 then 0 else d.get Reg.STEP_STATE_STEP
  let r := if mode = .sr then draw (d.reg Reg.JOB_SEED).toNat (recTensor w) (recElemOff w + indexOf s.exts x) t else 0
  match fpFmt s.fmt with
  | some f =>
    let (c, n) := f.encode mode (awSat w) r (dec32 v)
    (d.wrElem b s x c).count b n
  | none => d

/-- The running sums of table elements, by element number. -/
def scatterLoop (b : Nat) (src idx t : Shape) (low : List (List Nat)) : Nat → Nat → SMap (Option Nat) → Dev →
    SMap (Option Nat) × Dev
  | 0, _, m, d => (m, d)
  | n + 1, i, m, d =>
    let r := indexRule idx.indexFill (t.exts.getLastD 1) (indexAt d b idx i)
    let d := indexCount d b r
    let inTable := decide (0 ≤ r.1) && decide (r.1 < (t.exts.getLastD 1 : Nat))
    let (m, d) := low.foldl (fun (p : SMap (Option Nat) × Dev) x =>
      if !inTable || !t.inside (atRow x r.1) then (p.1, p.2.inc (Reg.LAYOUT_COUNT0_OOB_WRITES b))
      else
        let (c, d) := awGet p.2 b src (atRow x i)
        let xs := x ++ [r.1.toNat]
        let k := indexOf t.exts xs
        let old := match SMap.get (fun _ => none) p.1 k with
          | some v => v
          | none => enc32 (decodeElem t.fmt false (d.rdElem b t xs))
        let a := dec32 old
        let v := decodeElem src.fmt false c
        let s := enc32 (Val.sum [a, v])
        (SMap.insert p.1 k (some s), d.count b (cntOf [a, v] s))) (m, d)
    scatterLoop b src idx t low n (i + 1) m d

/-- SCATTER_ADD. -/
def scatterAdd (d : Dev) (b : Nat) (it : Item) (src idx t : Shape) : Dev :=
  let w := it.words
  let (n, d) := awCount d b it idx.count
  let d := tailPass d b w n (2 * ceilDiv (sliceBytes src) 128)
  let (m, d) := scatterLoop b src idx t (lowerPairs src t) n 0 [] d
  m.foldl (fun d e => match e.2 with
    | some v => awStore d b w t (coordsOf t.exts e.1) v
    | none => d) d

/-! ### SORT (04 R148) -/

/-- A key's place in the order: NaN above all, −0 equal to +0. -/
def keyLt (f a c : Nat) : Bool :=
  if fmtIsInt f then decide (decInt f a < decInt f c)
  else
    let x := decodeElem f false a
    let y := decodeElem f false c
    if x.isNan then false else if y.isNan then true else x.lt y

/-- Insert after every element that does not come after it: a stable sort. -/
def stableInsert {α : Type} (before : α → α → Bool) (x : α) : List α → List α
  | [] => [x]
  | y :: t => if before x y then x :: y :: t else y :: stableInsert before x t

/-- Sort stably by a strict order. -/
def stableSort {α : Type} (before : α → α → Bool) (l : List α) : List α :=
  l.foldl (fun acc x => stableInsert before x acc) []

/-- The smallest k with n ≤ 2^k. -/
def clog2 (n : Nat) : Nat := if n ≤ 1 then 0 else (n - 1).log2 + 1

/-- Cycles of a whole sort (04 R140). -/
def sortCycles (n : Nat) : Nat := max 1 (ceilDiv n 32 * ceilDiv (clog2 n) 5)

/-- SORT. -/
def awSort (d : Dev) (b : Nat) (it : Item) (keys pay out outPay : Shape) : Dev :=
  let w := it.words
  let (n, d) := awCount d b it keys.count
  let d := if awBudget w ≠ 0 && awBudget w < n then awlOverrun d b (sortCycles n - sortCycles (awBudget w)) w else d
  let rd (s : Shape) (i : Nat) : Nat := d.rdElem b s (coordsOf s.exts i)
  let l := (List.range n).map (fun i => (rd keys i, rd pay i))
  let before (x y : Nat × Nat) : Bool := if awDesc w then keyLt keys.fmt y.1 x.1 else keyLt keys.fmt x.1 y.1
  let sorted := stableSort before l
  (sorted.zipIdx).foldl (fun d p =>
    let d := d.wrElem b out (coordsOf out.exts p.2) p.1.1
    d.wrElem b outPay (coordsOf outPay.exts p.2) p.1.2) d

/-! ### WSUM (04 R149) -/

/-- The contributions of output row r: table row and weight, in order. -/
def wsumTerms (d : Dev) (b : Nat) (w : List W64) (src idx wt : Shape) (r : Nat) : List (Int × Nat) × Dev :=
  (List.range (awK w)).foldl (fun (p : List (Int × Nat) × Dev) j =>
    let d := p.2
    let v := indexAt d b idx (r * awK w + j)
    if awNegSkip w && decide (v < 0) then (p.1, d.inc (Reg.LAYOUT_COUNT1_INDEX_NEGATIVE b))
    else
      let q := indexRule idx.indexFill (src.exts.getLastD 1) v
      let wv := enc32 (decodeElem wt.fmt false (d.rdElem b wt (coordsOf wt.exts (r * awK w + j))))
      (p.1 ++ [(q.1, wv)], indexCount d b q)) ([], d)

/-- WSUM. -/
def wsum (d : Dev) (b : Nat) (it : Item) (src idx out wt : Shape) : Dev :=
  let w := it.words
  let (n, d) := awCount d b it (idx.count / awK w)
  let rowElems := src.lower.length
  let d := tailPass d b w n (max (awK w * ceilDiv (sliceBytes src) 128) (ceilDiv (awK w * rowElems) 64))
  let low := lowerPairs src out
  (List.range n).foldl (fun d r =>
    let (ts, d) := wsumTerms d b w src idx wt r
    low.foldl (fun d x =>
      let (acc, d) := ts.foldl (fun (p : Nat × Dev) t =>
        let (c, d) := awGet p.2 b src (atRow x t.1)
        let e := enc32 (decodeElem src.fmt false c)
        let s := ffma t.2 e p.1
        (s, d.count b (cntOf [dec32 t.2, dec32 e, dec32 p.1] s))) (0, d)
      if out.inside (atRow x r) then awStore d b w out (x ++ [r]) acc
      else d.inc (Reg.LAYOUT_COUNT0_OOB_WRITES b)) d) d

/-! ### Dense rows and tiles (04 R125 to R139) -/

/-- The outer coordinates of tensor row r: the last one is not reduced, so that a row too many is out of bounds. -/
def outerOf : List Nat → Nat → List Nat
  | [], _ => []
  | [_], i => [i]
  | e :: t, i => i % e :: outerOf t (i / e)

/-- An element (code, scale) of a dense source row: position p of chunk c (windows of 128) in row r. -/
def denseElem (d : Dev) (b : Nat) (s : Shape) (r x0 : Nat) : (Nat × Nat) × Dev :=
  let x := x0 :: outerOf (s.exts.drop 1) r
  let (v, d) := awGet d b s (x.map Int.ofNat)
  let sc := if !s.mx then 127
    else if s.inside (x.map Int.ofNat) then ((d.sp b (s.scaleBase + s.scaleIndex x) 1).headD 0).toNat else 0x7F
  ((v, sc), d)

/-- A code is zero: +0 or −0. -/
def zeroCode (f v : Nat) : Bool := if fmtIsInt f then v % 2 ^ fmtBits f = 0 else v % 2 ^ (fmtBits f - 1) = 0

/-- The mask bit of an element (04 R127): mask rows are UINT8, bit i of byte i / 8 (log entry 16). -/
def maskBit (d : Dev) (b : Nat) (m : Shape) (r x0 : Nat) : Bool × Dev :=
  let (v, d) := awGet d b m ((x0 / 8 :: outerOf (m.exts.drop 1) r).map Int.ofNat)
  (v / 2 ^ (x0 % 8) % 2 == 1, d)

/-- The kept elements of one window of a dense row: (place, code, scale), those at or past `limit` never kept. -/
def keptDense (d : Dev) (b : Nat) (kind : Nat) (s m : Shape) (r chunkBase v limit : Nat) : List (Nat × Nat × Nat) × Dev :=
  (List.range 128).foldl (fun (p : List (Nat × Nat × Nat) × Dev) i =>
    let pos := 128 * v + i
    if limit ≤ pos then p
    else
      let x0 := chunkBase + pos
      let ((c, sc), d) := denseElem p.2 b s r x0
      let (keep, d) := match kind with
        | 0 => (!zeroCode s.fmt c || (s.mx && sc = 0xFF), d)
        | 1 => maskBit d b m r x0
        | _ => (true, d)
      (if keep then p.1 ++ [(i, c, sc)] else p.1, d)) ([], d)

/-- A tile read from the scratchpad: WIN_MASK and, by row and window, its elements (place, code). -/
structure Tile where
  winMask : Nat
  rows : List (List (List (Nat × Nat)))
  drops : Nat
  deriving Repr

/-- The bytes of one window of a tile body, its elements and the bytes that follow. A LIST's place is its byte modulo 128
(04 R135 gives places 0 to 127; DESIGN CHOICE, log entry 75). -/
def tileWindow (enc wbits : Nat) (l : List Byte) : List (Nat × Nat) × List Byte :=
  match enc with
  | 0 => ((unpackElems wbits 128 (l.take (16 * wbits))).mapIdx (fun i c => (i, c)), l.drop (16 * wbits))
  | 1 =>
    let places := onesOf 128 (ofLe (l.take 16))
    let n := places.length
    let l := l.drop 16
    let nb := ceilDiv (n * wbits) 8
    (places.zip (unpackElems wbits n (l.take nb)), l.drop nb)
  | _ =>
    let n := ((l.headD 0).toNat)
    let codes := ((l.drop 1).take n).map (fun c => c.toNat % 128)
    let l := l.drop (1 + n)
    let nb := ceilDiv (n * wbits) 8
    (codes.zip (unpackElems wbits n (l.take nb)), l.drop nb)

/-- The elements of a window in the order of the compaction loop: places 0 to 127 in turn, each once (04 R128). A LIST that
names a place twice keeps the element it lists first (log entry 75). -/
def windowOrder (l : List (Nat × Nat)) : List (Nat × Nat) :=
  (List.range 128).filterMap (fun i => l.find? (fun e => e.1 = i))

/-- The windows of one row of a tile body. -/
def tileRow (enc wbits : Nat) : Nat → List Byte → List (List (Nat × Nat)) × List Byte
  | 0, l => ([], l)
  | n + 1, l =>
    let (w, l) := tileWindow enc wbits l
    let (ws, l) := tileRow enc wbits n l
    (w :: ws, l)

/-- The rows of a tile body. -/
def tileRows (enc wbits windows : Nat) : Nat → List Byte → List (List (List (Nat × Nat))) × List Byte
  | 0, l => ([], l)
  | n + 1, l =>
    let (r, l) := tileRow enc wbits windows l
    let (rs, l) := tileRows enc wbits windows n l
    (r :: rs, l)

/-- Bytes of the dense body of a tile (04 R135). -/
def denseBody (s : Shape) (rows windows : Nat) : Nat := 16 * s.w * windows * rows

/-- Address of the tile of chunk c (04 R137). -/
def tileAddr (s : Shape) (c : Nat) : Nat := s.base + c * s.st (s.rank - 1)

/-- Read and check the tile of chunk c (04 R134 to R139); none is a tile error. NNZ is not among the counts that BODY_BYTES
must agree with: the rows and windows of a DENSE body, the bitmaps, the LIST counts. -/
def readTile (d : Dev) (b : Nat) (s : Shape) (rows windows c : Nat) : Option Tile :=
  let a := tileAddr s c
  let h := d.spWords b a 2
  let w0 := wd h 0
  let enc := fld w0 59 58
  let bytes := fld w0 39 20
  if fld w0 63 60 ≠ 0xA || enc = 3 || fld w0 57 54 ≠ s.fmt || bit w0 53 != s.mx || fld w0 52 45 ≠ rows ||
      fld w0 44 40 ≠ windows || bytes % 16 ≠ 0 || spSize < a + 16 + bytes then none
  else
    let body := d.sp b (a + 16) bytes
    let pad := List.replicate (denseBody s rows windows + 256 * rows * windows) 0
    let (rs, rest) := tileRows enc s.w windows rows (body ++ pad)
    let used := body.length + pad.length - rest.length
    let listed := rs.all (fun r => r.all (fun w => decide (w.length ≤ 128)))
    if roundUp used 16 ≠ bytes || !listed then none
    else
      let mask := fld (wd h 1) 31 16
      let all := rs.map (fun r => r.map (fun win =>
        if enc = 0 then win.filter (fun p => !zeroCode s.fmt p.2) else windowOrder win))
      let kept := all.map (fun r => r.mapIdx (fun v win => if mask.testBit v then win else []))
      let cnt (x : List (List (List (Nat × Nat)))) : Nat := ((x.map (fun r => (r.map List.length).foldl (· + ·) 0)).foldl (· + ·) 0)
      some { winMask := mask, rows := kept, drops := cnt all - cnt kept }

/-- The scale of a tile element: the dense scale array of a tensor CHUNKS × K_c long (log entry 16). -/
def tileScale (d : Dev) (b : Nat) (s : Shape) (chunks kc c r pos : Nat) : Nat :=
  if s.mx then ((d.sp b (s.scaleBase + (r * chunks * kc + c * kc + pos) / 32) 1).headD 0).toNat else 127

/-- Cut a row's kept windows into packets and mark the last (the compaction algorithm of chapter 04). -/
def rowToPackets (r : Nat) (wins : List (List (Nat × Nat × Nat))) : List Packet :=
  let ps := (wins.mapIdx (fun v es => (chunk 32 5 es).map (fun g => ({ rowValid := true, rowEnd := false, row := r, window := v, elems := g } : Packet)))).flatMap id
  match ps.reverse with
  | [] => [{ rowValid := true, rowEnd := true, row := r, window := 0, elems := [] }]
  | p :: t => ({ p with rowEnd := true } :: t).reverse

/-- What COMPACT has emitted so far: packets, window masks, state, and whether a tile error stopped it. -/
structure CompactSt where
  packets : List Packet := []
  masks : List Nat := []
  windows : Nat := 0
  noticed : Bool := false
  bad : Bool := false
  dev : Dev

/-- A packet's row is invalid (04 R129). -/
def rowInvalid (d : Dev) (b : Nat) (w : List W64) (r : Nat) : Bool :=
  awValidEn w && !(ofLe (d.sp b (awValid w) 16)).testBit r

/-- One overrun notice of COMPACT (04 R142): U row-chunks left, V windows whose load has not begun. -/
def compactNotice (lw w : List W64) (b u v : Nat) (st : CompactSt) : CompactSt :=
  if st.noticed then st else
  let wins := awWindows w
  let load := ceilDiv (2 * lrChunkBytes lw) wins
  { st with noticed := true, dev := awlOverrun st.dev b (ceilDiv (u * 4 * wins) (packQ lw) + v * load) w }

/-- One row of one chunk. -/
def compactRow (lw w : List W64) (b : Nat) (s m : Shape) (tile : Option Tile) (c : Nat) (st : CompactSt) (r : Nat) :
    CompactSt :=
  let d := st.dev
  let wins := awWindows w
  let kc := 128 * wins
  let limit := if c + 1 = awChunks w && lrKLast lw ≠ 0 then lrKLast lw else kc
  let (ps, d) :=
    if rowInvalid d b w r then ([({ rowValid := false, rowEnd := true, row := r, window := 0, elems := [] } : Packet)], d)
    else match tile with
    | some t =>
      let row := (t.rows.getD r []).mapIdx (fun v es =>
        (es.filter (fun p => decide (128 * v + p.1 < limit))).map (fun p =>
          (p.1, p.2, tileScale d b s (awChunks w) kc c r (128 * v + p.1))))
      (rowToPackets r row, d)
    | none =>
      let (ws, d) := (List.range wins).foldl (fun (p : List (List (Nat × Nat × Nat)) × Dev) v =>
        let (k, d) := keptDense p.2 b (awKind w) s m r (c * kc) v limit
        (p.1 ++ [k], d)) ([], d)
      (rowToPackets r ws, d)
  let before := st.packets.length
  let st := { st with packets := st.packets ++ ps, dev := d }
  if awBudget w ≠ 0 && before ≤ awBudget w && awBudget w < st.packets.length then
    compactNotice lw w b ((awChunks w - c) * awRows w - r) ((awChunks w - (c + 2)) * wins) st
  else st

/-- One chunk. The first chunk of a TILE record is loaded with every window, preloaded or not (DESIGN CHOICE, log entry 75: 04 R131
says so of a preload). -/
def compactChunk (lw w : List W64) (b : Nat) (s m : Shape) (st : CompactSt) (c : Nat) : CompactSt :=
  if st.bad then st else
  let wins := awWindows w
  let all := 2 ^ wins - 1
  let step (tile : Option Tile) (mask : Nat) (st : CompactSt) : CompactSt :=
    (List.range (awRows w)).foldl (compactRow lw w b s m tile c) { st with masks := st.masks ++ [mask] }
  if awKind w = 3 then
    match readTile st.dev b s (awRows w) wins c with
    | none => { st with bad := true, dev := st.dev.inc (Reg.AWL_COUNT1_TILE_ERRORS b) }
    | some t =>
      let mask := t.winMask &&& all
      -- the windows that the lane row loads for this chunk (04 R131, R132; log entry 75)
      let l := (st.dev.bn b).lane
      let loaded := if lrReuse lw then popcount wins (mask &&& (laneHeld l l.lastFile ^^^ (2 ^ 16 - 1)))
        else if c = 0 then wins else popcount wins mask
      let st := { st with windows := st.windows + loaded, dev := st.dev.addTo (Reg.AWL_COUNT1_MASK_DROPS b) t.drops }
      let st := if awWinBudget w ≠ 0 && awWinBudget w < st.windows then
          compactNotice lw w b ((awChunks w - (c - 1)) * awRows w) ((awChunks w - max c 1) * wins) st else st
      step (some t) mask st
  else step none all st

/-- COMPACT against its paired lane-row record: the packets and window masks go to the lane row (04 R130, R131). -/
def compactRun (lw : List W64) (b : Nat) (w : List W64) (s m : Shape) (d : Dev) : Dev × Option Stop :=
  let st := (List.range (awChunks w)).foldl (compactChunk lw w b s m) { dev := d }
  let d := st.dev.addTo (Reg.AWL_COUNT0_PACKETS b) st.packets.length
  let d := d.onBn b (fun x => { x with lane := { x.lane with
    packets := x.lane.packets ++ st.packets, chunkMasks := x.lane.chunkMasks ++ st.masks } })
  (d, if st.bad then some .schedule else none)

/-- The bytes of a compressed window. -/
def bitmapWindow (wbits : Nat) (es : List (Nat × Nat × Nat)) : List Byte :=
  toLe 16 ((es.map (fun e => 2 ^ e.1)).foldl (· + ·) 0) ++ packElems wbits (es.map (fun e => e.2.1))
def listWindow (wbits : Nat) (es : List (Nat × Nat × Nat)) : List Byte :=
  byteOf es.length :: es.map (fun e => byteOf e.1) ++ packElems wbits (es.map (fun e => e.2.1))

/-- A DENSE window: an element that is not kept is stored as +0 (04 R135: 'all 128 elements'; DESIGN CHOICE, log entry 92). -/
def denseWindow (wbits : Nat) (es : List (Nat × Nat × Nat)) : List Byte :=
  packElems wbits ((List.range 128).map (fun i => match es.find? (fun e => e.1 = i) with | some e => e.2.1 | none => 0))

/-- Fill up with zeros to a multiple of 16 B. -/
def pad16 (l : List Byte) : List Byte := l ++ List.replicate (roundUp l.length 16 - l.length) 0

/-- COMPRESS one chunk (04 R134 to R137). -/
def compressChunk (b : Nat) (w : List W64) (s m out : Shape) (d : Dev) (c : Nat) : Dev :=
  let wins := awWindows w
  let kc := 128 * wins
  let (rows, d) := (List.range (awRows w)).foldl (fun (p : List (List (List (Nat × Nat × Nat))) × Dev) r =>
    let (ws, d) := (List.range wins).foldl (fun (q : List (List (Nat × Nat × Nat)) × Dev) v =>
      let (k, d) := keptDense q.2 b (awKind w) s m r (c * kc) v kc
      (q.1 ++ [k], d)) ([], p.2)
    (p.1 ++ [ws], d)) ([], d)
  let flat := rows.flatMap id
  let bm := pad16 (flat.flatMap (bitmapWindow s.w))
  let ls := pad16 (flat.flatMap (listWindow s.w))
  let dense := flat.flatMap (denseWindow s.w)
  let (enc, body) := if ls.length < bm.length then (2, ls) else (1, bm)
  let (enc, body) := if body.length < dense.length then (enc, body) else (0, dense)
  let kept := flat.flatMap id
  let nnz := if enc = 0 then (kept.filter (fun e => !zeroCode s.fmt e.2.1)).length else kept.length
  let mask := ((List.range wins).map (fun v =>
    if rows.any (fun r => !(r.getD v []).isEmpty) then 2 ^ v else 0)).foldl (· + ·) 0
  let w0 := packFlds [(63, 60, 0xA), (59, 58, enc), (57, 54, s.fmt), (53, 53, b2n s.mx), (52, 45, awRows w),
    (44, 40, wins), (39, 20, body.length), (19, 0, nnz)]
  let w1 := packFlds [(63, 32, 0), (31, 16, mask), (15, 0, c)]
  d.spWr b (tileAddr out c) (wordsBytes [w0, w1] ++ body)

/-- EXPAND one chunk: +0 for every element the tile does not keep (04 R138, R139). -/
def expandChunk (b : Nat) (w : List W64) (s out : Shape) (p : Dev × Bool) (c : Nat) : Dev × Bool :=
  if p.2 then p else
  let wins := awWindows w
  match readTile p.1 b s (awRows w) wins c with
  | none => (p.1.inc (Reg.AWL_COUNT1_TILE_ERRORS b), true)
  | some t =>
    let d := p.1.addTo (Reg.AWL_COUNT1_MASK_DROPS b) t.drops
    ((List.range (awRows w)).foldl (fun d r =>
      (List.range (128 * wins)).foldl (fun d pos =>
        let v := match ((t.rows.getD r []).getD (pos / 128) []).find? (fun e => e.1 = pos % 128) with
          | some e => e.2
          | none => 0
        awPut d b out (((c * 128 * wins + pos) :: outerOf (out.exts.drop 1) r).map Int.ofNat) v) d) d, false)

/-! ### Checks and plans (04 R150; 06 R184, R190, R197) -/

/-- A tile FORMAT that 04 R134 forbids. -/
def tileFormat (f : Nat) : Bool := f ≠ fmtFP32 && f ≠ fmtINT32 && f ≠ fmtUINT32 && f ≠ fmtE8M0 && f ≤ 14

/-- Formats SORT takes as keys (04 R148). -/
def keyFormat (f : Nat) : Bool := f ≤ 2 || (9 ≤ f && f ≤ 11) || f = fmtUINT32 || f = fmtUINT8

/-- The bytes a run of tiles may touch. -/
def tileRanges (s : Shape) (rows windows chunks : Nat) : List (Nat × Nat) :=
  (List.range chunks).map (fun c => (tileAddr s c, 16 + denseBody s rows windows))

/-- The bytes that reading a run of tiles reads: headers and bodies, and of a block-scaled tile's dense scale array the bytes
of its elements where `scales` says so. -/
def tileReads (d : Dev) (b : Nat) (s : Shape) (rows windows chunks : Nat) (scales : Bool) : List (Nat × Nat) :=
  (List.range chunks).map (fun c =>
    (tileAddr s c, 16 + min (denseBody s rows windows) (fld (wd (d.spWords b (tileAddr s c) 1) 0) 39 20))) ++
  (if scales && s.mx then [(s.scaleBase, rows * chunks * 128 * windows / 32)] else [])

/-- The first `n` elements of tensor rows, by number. -/
def rowsRanges (s : Shape) (n : Nat) (rows : List Nat) : List (Nat × Nat) :=
  rows.flatMap (fun r => s.rowPart n (outerOf (s.exts.drop 1) r))

/-- The table slices that the first `n` entries of an index operand name, each once, by outermost coordinate. -/
def indexedRows (d : Dev) (b : Nat) (idx table : Shape) (n : Nat) (skipNeg : Bool) : List Nat :=
  uniq ((List.range n).filterMap (fun i =>
    let v := indexAt d b idx i
    let r := (indexRule idx.indexFill (table.exts.getLastD 1) v).1
    if (skipNeg && decide (v < 0)) || decide (r < 0) || decide ((table.exts.getLastD 1 : Int) ≤ r) then none
    else some r.toNat))

/-- The bytes an awl record reads and the bytes it writes; what its data leave out is neither (04 R129, R146 to R149). -/
def awlBytes (d : Dev) (b : Nat) (it : Item) (src aux dst aux2 : Shape) : List (Nat × Nat) × List (Nat × Nat) :=
  let w := it.words
  let wins := awWindows w
  let kc := 128 * wins
  let mask (n : Nat) (rows : List Nat) : List (Nat × Nat) :=
    if awKind w = 1 then rowsRanges aux (ceilDiv n 8) rows else []
  let all := List.range (awRows w)
  let len := awChunks w * kc
  let counted := if it.count.isNone && awCountEn w then [(awCountAddr w, 4)] else []
  match awType w with
  | 0x20 =>
    let len := match (d.bn b).lane.cur with
      | some r => if lrKLast r.item.words = 0 then len else len - kc + lrKLast r.item.words
      | none => len
    let rows := all.filter (fun r => !rowInvalid d b w r)
    ((if awKind w = 3 then tileReads d b src (awRows w) wins (awChunks w) true
      else rowsRanges src len rows ++ mask len rows) ++ (if awValidEn w then [(awValid w, 16)] else []), [])
  | 0x21 => (rowsRanges src len all ++ mask len all, tileRanges dst (awRows w) wins (awChunks w))
  | 0x22 => (tileReads d b src (awRows w) wins (awChunks w) false, rowsRanges dst len all)
  | 0x23 =>
    let n := (awCount d b it aux.count).1
    let m := if awPad w = 0 then n else roundUp n (awPad w)
    (aux.firstRanges n ++ (indexedRows d b aux src n false).flatMap src.sliceRanges ++ counted,
     (List.range m).flatMap dst.sliceRanges ++
       (if awPad w = 0 then [] else [(awValid w, ceilDiv m 128 * 16)]))
  | 0x24 =>
    let n := (awCount d b it aux.count).1
    let rows := (indexedRows d b aux dst n false).flatMap dst.sliceRanges
    (aux.firstRanges n ++ (List.range n).flatMap src.sliceRanges ++ rows ++ counted, rows)
  | 0x25 =>
    let n := (awCount d b it src.count).1
    (src.firstRanges n ++ aux.firstRanges n ++ counted, dst.firstRanges n ++ aux2.firstRanges n)
  | _ =>
    let n := (awCount d b it (aux.count / awK w)).1
    (aux.firstRanges (n * awK w) ++ aux2.firstRanges (n * awK w) ++
      (indexedRows d b aux src (n * awK w) (awNegSkip w)).flatMap src.sliceRanges ++ counted,
     (List.range n).flatMap dst.sliceRanges)

/-- A shape of tiles: its outermost stride holds a header and a dense body (04 R137). -/
def tileShape (s : Shape) (w : List W64) : Option Nat :=
  firstFail [(tileFormat s.fmt, eFormat), (2 ≤ s.rank, eParameter),
    (decide (16 + denseBody s (awRows w) (awWindows w) ≤ s.st (s.rank - 1)), eParameter),
    (rangesInSp (tileRanges s (awRows w) (awWindows w) (awChunks w)), eParameter),
    (!(awType w = 0x20 && s.mx) || s.scaleBase + awRows w * awChunks w * awWindows w * 4 ≤ spSize, eParameter)]

/-- The plan of an awl record. A GATHER copies bytes, so a table and an output of different formats are refused with a format error
(DESIGN CHOICE, log entry 94: 04 R146 and R150 name no such check). -/
def awlPlan (d : Dev) (b : Nat) (it : Item) : Except Nat Plan :=
  let w := it.words
  let t := awType w
  let src := itemShape d b it 0 (awSrc w)
  let aux := itemShape d b it 1 (awAux w)
  let dst := itemShape d b it 2 (awDst w)
  let aux2 := itemShape d b it 3 (awAux2 w)
  let maskUsed := awKind w = 1 && t ≤ 0x21
  let useAux := maskUsed || (0x23 ≤ t)
  let useAux2 := 0x25 ≤ t
  let fields : Option Nat := firstFail [
    (0x20 ≤ t && t ≤ 0x26, eParameter),
    ((awZero t).all (fun z => fld (wd w z.1) z.2.1 z.2.2 = 0), eParameter),
    (awRound w ≤ 2 && awSrcFe w ≤ 2 && awDstFe w ≤ 1, eParameter),
    (!(t = 0x21 && 1 < awKind w), eParameter),
    (!(t ≤ 0x22 && (awRows w = 0 || 128 < awRows w || awChunks w = 0)), eParameter),
    (awPad w ≤ 128, eParameter), (!(t = 0x26 && (awK w = 0 || 8 < awK w)), eParameter),
    (!((t = 0x21 || t = 0x22) && awBudget w ≠ 0), eParameter), (!(t = 0x20 && awDstFe w ≠ 0), eParameter),
    (!(t = 0x20 && awKind w ≠ 3 && awWinBudget w ≠ 0), eParameter),
    (!(t ≤ 0x21 && !maskUsed && awAux w ≠ 0), eParameter),
    (awValid w % 8 = 0 && awCountAddr w % 8 = 0, eAlignment),
    (!awCountEn w || awCountAddr w + 4 ≤ spSize, eParameter)]
  let shapes := awShape (awSrc w) src ++ (if useAux then awShape (awAux w) aux else []) ++
    (if t ≠ 0x20 then awShape (awDst w) dst else []) ++ (if useAux2 then awShape (awAux2 w) aux2 else [])
  let n := aux.count
  let m := if awPad w = 0 then 0 else roundUp n (awPad w)
  let bitmap := if t = 0x23 && awPad w ≠ 0 then [(awValid w, ceilDiv m 128 * 16)] else []
  let special : Option Nat := match t with
    | 0x20 => (if awKind w = 3 then tileShape src w else firstFail [(!maskUsed || aux.fmt = fmtUINT8, eFormat)]).or
        (firstFail [(!awValidEn w || awValid w + 16 ≤ spSize, eParameter)])
    | 0x21 => (firstFail [(!maskUsed || aux.fmt = fmtUINT8, eFormat), (src.fmt = dst.fmt && src.mx == dst.mx, eFormat)]).or
        (tileShape dst w)
    | 0x22 => (firstFail [(src.fmt = dst.fmt && src.mx == dst.mx, eFormat)]).or (tileShape src w)
    | 0x23 => firstFail [(indexFormat aux.fmt, eFormat), (src.fmt = dst.fmt && src.mx == dst.mx, eFormat),
        (!src.mx || (src.blockAxis = 0 && dst.blockAxis = 0), eFormat), (src.rank = dst.rank, eParameter),
        (rangesInSp bitmap, eParameter)]
    | 0x24 => firstFail [(indexFormat aux.fmt, eFormat), (awlSumFormat src.fmt && awlSumFormat dst.fmt, eFormat),
        (!src.mx && !dst.mx, eFormat), (src.rank = dst.rank, eParameter)]
    | 0x25 => firstFail [(keyFormat src.fmt && !src.mx && !aux.mx && !dst.mx && !aux2.mx, eFormat),
        (src.fmt = dst.fmt && aux.fmt = aux2.fmt, eParameter),
        (src.count = aux.count && src.count = dst.count && src.count = aux2.count, eParameter)]
    | _ => firstFail [(indexFormat aux.fmt, eFormat),
        (awlSumFormat src.fmt && awlSumFormat dst.fmt && awlSumFormat aux2.fmt, eFormat),
        (!src.mx && !dst.mx && !aux2.mx, eFormat), (src.rank = dst.rank, eParameter),
        (aux.count % awK w = 0 && aux2.count = aux.count, eParameter)]
  let (reads, writes) := awlBytes d b it src aux dst aux2
  -- the slots of the tagged ends are those of the operands' footprints (07 R564)
  let tagSrc := if awSrcFe w = 0 then [] else src.footprint
  let tagDst := if awDstFe w = 0 then [] else match t with
    | 0x25 => dst.footprint ++ aux2.footprint
    | _ => dst.footprint ++ bitmap
  let run (d : Dev) : Dev × Option Stop := match t with
    | 0x20 => (match (d.bn b).lane.cur with
        | some r => compactRun r.item.words b w src aux d
        | none => (d, none))
    | 0x21 => ((List.range (awChunks w)).foldl (compressChunk b w src aux dst) d, none)
    | 0x22 =>
      let (d, bad) := (List.range (awChunks w)).foldl (expandChunk b w src dst) (d, false)
      (d, if bad then some .schedule else none)
    | 0x23 => (gather d b it src aux dst, none)
    | 0x24 => (scatterAdd d b it src aux dst, none)
    | 0x25 => (awSort d b it src aux dst aux2, none)
    | _ => (wsum d b it src aux dst aux2, none)
  planOf (fields :: shapes ++ [special, firstFail (tagChecks tagSrc tagDst (awSrcFe w) (awDstFe w))])
    { src := tagSrc, dst := tagDst, srcFe := awSrcFe w, dstFe := awDstFe w, reads := reads, writes := writes, run := run }

/-- The checks of an issue of a ragged loop, made as it is issued (05 R172): none when it passes. -/
def issueCheck (d : Dev) (b engine : Nat) (it : Item) : Option Nat :=
  if !it.fits then some eParameter
  else if engine = 0 then lrCheck d b false (codeHead d b it) it.words
  else match awlPlan d b it with | .error e => some e | .ok _ => none

end Sys2Proof.Machine
end

