-- ==== Sys2Proof/Machine/Routing.lean ====
section
/-! DEFINITION. Expert routing: the ROUTE record's two modes and the ragged loop (05 R153 to R181). -/

namespace Sys2Proof.Machine

/-! ### The ROUTE record (05 R179) -/

abbrev rtMode (w : List W64) : Nat := fld (wd w 0) 55 55
abbrev rtK (w : List W64) : Nat := fld (wd w 0) 54 51
abbrev rtRenorm (w : List W64) : Bool := bit (wd w 0) 50
abbrev rtSpill (w : List W64) : Bool := bit (wd w 0) 49
abbrev rtValidEn (w : List W64) : Bool := bit (wd w 0) 48
abbrev rtExperts (w : List W64) : Nat := fld (wd w 0) 47 37
abbrev rtLocal (w : List W64) : Nat := fld (wd w 0) 36 29
abbrev rtCapFactor (w : List W64) : Nat := fld (wd w 0) 28 13
abbrev rtDstFe (w : List W64) : Nat := fld (wd w 0) 12 11
abbrev rtSel (w : List W64) : Nat := fld (wd w 1) 63 41
abbrev rtGate (w : List W64) : Nat := fld (wd w 1) 40 18
abbrev rtTable (w : List W64) : Nat := fld (wd w 2) 63 41
abbrev rtValid (w : List W64) : Nat := fld (wd w 2) 40 18
abbrev rtAssign (w : List W64) : Nat := fld (wd w 3) 63 41
abbrev rtWeight (w : List W64) : Nat := fld (wd w 3) 40 18
abbrev rtDindex (w : List W64) : Nat := fld (wd w 4) 63 41
abbrev rtRowWeight (w : List W64) : Nat := fld (wd w 4) 40 18
abbrev rtSegTable (w : List W64) : Nat := fld (wd w 5) 63 41
abbrev rtTokens (w : List W64) : Nat := fld (wd w 5) 40 24
abbrev rtBudget (w : List W64) : Nat := fld (wd w 5) 23 8
abbrev rtGroup (w : List W64) : Nat := fld (wd w 6) 47 32
abbrev rtLayer (w : List W64) : Nat := fld (wd w 7) 63 32

/-- One entry of the expert table (05 R156). -/
structure Expert where
  pinned : Bool
  device : Nat
  loc : Nat
  pinCap : Nat
  deriving DecidableEq, Repr

/-- The expert table. -/
def expertTable (d : Dev) (b off n : Nat) : List Expert :=
  (List.range n).map (fun e =>
    let v := w64 (ofLe (d.sp b (off + 4 * e) 4))
    { pinned := bit v 31, device := fld v 29 20, loc := fld v 19 13, pinCap := fld v 12 0 })

/-- The capacity of a spill expert (05 R157). -/
def capacity (w : List W64) : Nat := ceilDiv (rtTokens w * rtK w * rtCapFactor w) (256 * rtExperts w)

/-- Expert value x ranks above y by value alone (05 R155); equal values leave index order to the stable sort. -/
def selAbove (x y : Nat) : Bool :=
  let a := dec32 x
  let c := dec32 y
  if a.isNan then false else if c.isNan then true else c.lt a

/-- The candidate list of a token (05 R155). -/
def candidates (sel : List Nat) (k : Nat) : List Nat :=
  ((stableSort (fun x y : Nat × Nat => selAbove x.1 y.1) sel.zipIdx).map Prod.snd).take (k + 2)

/-- Slots already given and expert loads, as a token's slots are assigned (05 R158). -/
structure AssignSt where
  used : List Nat
  load : SMap Nat
  out : List (Option Nat)

/-- One slot of a token (05 R158). -/
def assignSlot (ex : List Expert) (cap : Nat) (spill : Bool) (cand : List Nat) (st : AssignSt) (s : Nat) : AssignSt :=
  let isPinned (e : Nat) : Bool := ((ex[e]?).map (fun x => x.pinned)).getD false
  let capOf (e : Nat) : Nat := if isPinned e then ((ex[e]?).map (fun x => x.pinCap)).getD 0 else cap
  let room (e : Nat) : Bool := decide (SMap.get (fun _ => 0) st.load e < capOf e)
  let pick : Option Nat := match cand[s]? with
    | none => none
    | some e =>
      if !st.used.contains e && room e then some e
      else if !isPinned e && spill then
        (cand.drop (s + 1)).find? (fun f => !isPinned f && !st.used.contains f && room f)
      else none
  match pick with
  | some e => { used := e :: st.used, load := SMap.set (fun _ => 0) st.load e (SMap.get (fun _ => 0) st.load e + 1)
                out := st.out ++ [some e] }
  | none => { st with out := st.out ++ [none] }

/-- DISPATCH's assignment: for each token, the expert of each slot (05 R158). -/
def assignAll (d : Dev) (b : Nat) (w : List W64) (sel : Shape) (ex : List Expert) : List (List (Option Nat)) :=
  let n := rtExperts w
  let valid (t : Nat) : Bool := !rtValidEn w || (ofLe (d.sp b (rtValid w + t / 8) 1)).testBit (t % 8)
  (((List.range (rtTokens w)).foldl (fun (p : SMap Nat × List (List (Option Nat))) t =>
    if !valid t then (p.1, List.replicate (rtK w) none :: p.2)
    else
      let vals := (List.range n).map (fun e => d.rdElem b sel (coordsOf sel.exts (t * n + e)))
      let st := (List.range (rtK w)).foldl (assignSlot ex (capacity w) (rtSpill w) (candidates vals (rtK w)))
        { used := [], load := p.1, out := [] }
      (st.load, st.out :: p.2)) ([], [])).2).reverse

/-- The weights of a token's slots (05 R159). -/
def slotWeights (renorm : Bool) (gates : List (Option Nat)) : List Nat × Cnt :=
  let plain := gates.map (fun g => g.getD 0)
  if !renorm then (plain, {})
  else
    let (sum, c) := (gates.filterMap id).foldl (fun (p : Nat × Cnt) g =>
      let s := fadd p.1 g
      (s, p.2.add (cntOf [dec32 p.1, dec32 g] s))) (0, {})
    if (dec32 sum).isZero then (plain, c)
    else gates.foldl (fun (p : List Nat × Cnt) g => match g with
      | some v => let q := fdiv v sum; (p.1 ++ [q], p.2.add (cntOf [dec32 v, dec32 sum] q))
      | none => (p.1 ++ [0], p.2)) ([], c)

/-- Write element n of an output; beyond its extents it is dropped and counted (06 R193, log entry 17). -/
def outElem (d : Dev) (b : Nat) (s : Shape) (n v : Nat) : Dev :=
  if n < s.count then d.wrElem b s (coordsOf s.exts n) v else d.inc (Reg.LAYOUT_COUNT0_OOB_WRITES b)

/-- A group table entry (05 R161). -/
def groupEntry (first rows : Nat) : List Byte := toLe 4 rows ++ toLe 4 first

/-- The step number that segment headers carry, 0 outside a step (05 R162; log entry 82). -/
def Dev.routeStep (d : Dev) : Nat := if d.get Reg.STEP_STATE_PHASE = 0 then 0 else d.get Reg.STEP_STATE_STEP

/-- A ROUTE record completes: what its layer's phases need of it takes the place of the routing group's last (05 R162). -/
def Dev.noteRouted (d : Dev) (b : Nat) (w : List W64) (ex : List Expert) (table : List (Nat × Nat)) : Dev :=
  let r : Routed := { mode := rtMode w, layer := rtLayer w, step := d.routeStep, group := rtGroup w, budget := rtBudget w
                      experts := ex.map (fun x => (x.device, x.loc)), table := table }
  d.onBn b (fun x => { x with
    routed := x.routed.filter (fun o => !(o.mode = r.mode && o.layer = r.layer && o.group = r.group)) ++ [r] })

/-- ROUTE in DISPATCH mode (05 R155 to R160, R164). -/
def routeDispatch (d : Dev) (b : Nat) (it : Item) : Dev :=
  let w := it.words
  let sel := itemShape d b it 0 (rtSel w)
  let gate := itemShape d b it 1 (rtGate w)
  let asg := itemShape d b it 2 (rtAssign w)
  let wts := itemShape d b it 3 (rtWeight w)
  let dix := itemShape d b it 4 (rtDindex w)
  let rws := itemShape d b it 5 (rtRowWeight w)
  let n := rtExperts w
  let ex := expertTable d b (rtTable w) n
  let devOf (e : Nat) : Nat := ((ex[e]?).map (fun x => x.device)).getD 0
  let a := assignAll d b w sel ex
  let gates := a.zipIdx.map (fun p => p.1.map (fun o => o.map (fun e =>
    d.rdElem b gate (coordsOf gate.exts (p.2 * n + e)))))
  let ws := gates.map (slotWeights (rtRenorm w))
  let d := d.count b (Cnt.sum (ws.map Prod.snd))
  -- (device, expert, token, slot) of every assigned slot, in send order
  let slots := a.zipIdx.flatMap (fun p => p.1.zipIdx.filterMap (fun q => q.1.map (fun e => (devOf e, e, p.2, q.2))))
  let before (x y : Nat × Nat × Nat × Nat) : Bool :=
    decide (x.1 < y.1) || (x.1 == y.1 && (decide (x.2.1 < y.2.1) || (x.2.1 == y.2.1 && decide (x.2.2.1 < y.2.2.1))))
  let send := stableSort before slots
  let row (t s : Nat) : Option Nat := send.findIdx? (fun x => x.2.2.1 = t && x.2.2.2 = s)
  let weight (t s : Nat) : Nat := ((ws.getD t ([], {})).1).getD s 0
  let d := (List.range (rtTokens w)).foldl (fun d t => (List.range (rtK w)).foldl (fun d s =>
    let d := outElem d b asg (t * rtK w + s) (match row t s with | some r => r | none => 2 ^ 32 - 1)
    outElem d b wts (t * rtK w + s) (if (row t s).isSome then weight t s else 0)) d) d
  let d := send.zipIdx.foldl (fun d p =>
    let d := outElem d b dix p.2 p.1.2.2.1
    outElem d b rws p.2 (weight p.1.2.2.1 p.1.2.2.2)) d
  let rowsOf (e : Nat) : Nat := (send.filter (fun x => x.2.1 = e)).length
  let firstOf (e : Nat) : Nat := (send.filter (fun x =>
    decide (x.1 < devOf e) || (x.1 == devOf e && decide (x.2.1 < e)))).length
  let d := d.spWr b (rtSegTable w) ((List.range n).flatMap (fun e => groupEntry (firstOf e) (rowsOf e)))
  let d := d.spWr b (rtSegTable w + 8 * n) (toLe 4 send.length)
  let d := d.noteRouted b w ex ((List.range n).map (fun e => (firstOf e, rowsOf e)))
  let rowBytes := (itemShape d b it 6 dix.table).rowBytes
  let x := ((List.range n).map (fun e => (rowsOf e - rtBudget w) * ceilDiv rowBytes 256)).foldl (· + ·) 0
  if x = 0 then d else d.overrun b (ceilDiv x 360) (recId w)

/-- ROUTE in COLLECT mode; none is a segment error, and the outputs are not written (05 R166, R167). -/
def routeCollect (d : Dev) (b : Nat) (it : Item) : Option Dev :=
  let w := it.words
  let le := rtLocal w
  let srcs := rtTokens w
  let idx := itemShape d b it 2 (rtAssign w)
  let ex := expertTable d b (rtTable w) (rtExperts w)
  let own := d.get Reg.LAT_DOMAIN_DOMAIN_INDEX
  let t := d.routeStep
  let hdr (s e : Nat) : List W64 := d.spWords b (rtSel w + 256 * (s * le + e)) 2
  let ok (s e : Nat) : Bool :=
    let h0 := wd (hdr s e) 0
    let h1 := wd (hdr s e) 1
    fld h0 63 56 = 0x5E && fld h0 55 54 = 0 && fld h0 53 44 = s && fld h0 43 34 = own &&
    (match ex[fld h0 33 24]? with | some x => x.device = own && x.loc = e | none => false) &&
    fld h1 63 32 = rtLayer w && fld h1 31 0 = t % 2 ^ 32 && fld h0 15 0 ≤ rtBudget w
  let rows (s e : Nat) : Nat := fld (wd (hdr s e) 0) 15 0
  if !((List.range srcs).all (fun s => (List.range le).all (fun e => ok s e))) then none
  else
    let count (e : Nat) : Nat := ((List.range srcs).map (fun s => rows s e)).foldl (· + ·) 0
    let firstOf (s e : Nat) : Nat :=
      ((List.range e).map (fun f => 16 * ceilDiv (count f) 16)).foldl (· + ·) 0 + ((List.range s).map (fun s => rows s e)).foldl (· + ·) 0
    let table := (List.range srcs).flatMap (fun s => (List.range le).map (fun e => (firstOf s e, rows s e)))
    some (((List.range le).foldl (fun (p : Nat × Dev) e =>
      let (o, d) := p
      let n := count e
      let d := d.spWr b (rtWeight w + 8 * e) (groupEntry o n)
      let (_, d) := (List.range srcs).foldl (fun (q : Nat × Dev) s =>
        let area := s * le + e
        let d := q.2.spWr b (rtDindex w + 8 * area) (groupEntry q.1 (rows s e))
        let d := (List.range (rows s e)).foldl (fun d i => outElem d b idx (q.1 + i) (area * rtBudget w + i)) d
        (q.1 + rows s e, d)) (o, d)
      (o + 16 * ceilDiv n 16, d)) (0, d)).2.noteRouted b w ex table)

/-- The plan of a ROUTE record (05 R154, R156, R157, R179, R180). -/
def routePlan (d : Dev) (b : Nat) (it : Item) : Except Nat Plan :=
  let w := it.words
  let disp := rtMode w = 0
  let sel := itemShape d b it 0 (rtSel w)
  let gate := itemShape d b it 1 (rtGate w)
  let asg := itemShape d b it 2 (rtAssign w)
  let wts := itemShape d b it 3 (rtWeight w)
  let dix := itemShape d b it 4 (rtDindex w)
  let rws := itemShape d b it 5 (rtRowWeight w)
  let n := rtExperts w
  let le := rtLocal w
  let ex := expertTable d b (rtTable w) n
  let tk := rtTokens w * rtK w
  let shp (off : Nat) (s : Shape) : List (Option Nat) :=
    [shapePlace off, s.check (fun _ => false), s.checkLocal 64]
  let shapes := if disp then shp (rtSel w) sel ++ shp (rtGate w) gate ++ shp (rtAssign w) asg ++ shp (rtWeight w) wts ++
      shp (rtDindex w) dix ++ shp (rtRowWeight w) rws
    else shp (rtAssign w) asg
  let tables := if disp then [(rtSegTable w, 8 * n + 4)]
    else [(rtWeight w, 8 * le), (rtDindex w, 8 * le * rtTokens w)]
  let exR := (rtTable w, 4 * n)
  let validR := if disp && rtValidEn w then [(rtValid w, ceilDiv (rtTokens w) 128 * 16)] else []
  let hdrR := if disp then [] else [(rtSel w, 256 * le * rtTokens w)]
  let distinct := ex.zipIdx.all (fun p => (ex.drop (p.2 + 1)).all (fun q => !(q.device = p.1.device && q.loc = p.1.loc)))
  let fields := firstFail [
    (1 ≤ n && n ≤ 1024, eParameter), (rtDstFe w ≤ 1, eParameter), (rtTable w % 8 = 0, eAlignment),
    (rangesInSp (exR :: validR ++ hdrR ++ tables), eParameter),
    (distinct, eParameter),
    (ex.all (fun x => decide ((ex.filter (fun y => y.device = x.device)).length ≤ 128)), eParameter)]
  let mode := if disp then firstFail [
      (1 ≤ rtK w && rtK w ≤ 8 && rtK w ≤ n, eParameter), (1 ≤ rtCapFactor w, eParameter),
      (1 ≤ rtTokens w && rtTokens w ≤ 65536, eParameter), (le = 0, eParameter), (capacity w ≤ 65535, eParameter),
      (sel.fmt = fmtFP32 && gate.fmt = fmtFP32 && wts.fmt = fmtFP32 && rws.fmt = fmtFP32 && asg.fmt = fmtINT32 &&
        dix.fmt = fmtINT32, eFormat),
      (sel.count = rtTokens w * n && gate.count = rtTokens w * n && asg.count = tk && wts.count = tk, eParameter),
      (rtSegTable w % 8 = 0 && rtValid w % 8 = 0, eAlignment)]
    else firstFail [
      (fld (wd w 0) 54 48 = 0 && rtCapFactor w = 0 && rtGate w = 0 && rtValid w = 0 && rtRowWeight w = 0 &&
        rtSegTable w = 0 && fld (wd w 6) 47 32 = 0, eParameter),
      (1 ≤ le && le ≤ 128 && 1 ≤ rtTokens w && rtTokens w ≤ 1024, eParameter), (asg.fmt = fmtINT32, eFormat),
      (rtSel w % 64 = 0 && rtWeight w % 8 = 0 && rtDindex w % 8 = 0, eAlignment)]
  let outs := if disp then [asg, wts, dix, rws] else [asg]
  let writes := outs.flatMap Shape.footprint ++ tables
  let tagDst := if rtDstFe w = 0 then [] else writes
  planOf (fields :: mode :: shapes ++ [firstFail (tagChecks [] tagDst 0 (rtDstFe w))])
    { dst := tagDst, dstFe := rtDstFe w
      reads := if disp then sel.ranges ++ gate.ranges else [], writes := outs.flatMap Shape.ranges
      tableReads := exR :: validR ++ hdrR, tableWrites := tables
      run := fun d => if disp then (routeDispatch d b it, none) else match routeCollect d b it with
        | some d => (d, none)
        | none => (d, some .schedule) }

/-- The plan of any record in the awl's queue. -/
def awlQueuePlan (d : Dev) (b : Nat) (it : Item) : Except Nat Plan :=
  if recType it.words = 0x38 then routePlan d b it else awlPlan d b it

/-! ### The ragged loop (05 R169 to R175) -/

/-- A patch code of operand S, T or D (0, 1, 2). -/
def patchOf (p : W64) (op : Nat) : Nat := fld p (61 - 2 * op) (60 - 2 * op)
/-- The GROUP stride of operand S, T or D. -/
def gStride (p : W64) (op : Nat) : Nat := fld p (55 - 17 * op) (39 - 17 * op)

/-- The template records and their patch words. -/
def ragTemplates (d : Dev) (b : Nat) (w : List W64) : List (List W64 × W64) :=
  (List.range (fld (wd w 0) 45 43)).map (fun i =>
    (d.spWords b (fld (wd w 1) 63 41 + 64 * i) 8, wd w (4 + i)))

/-- The RECORD_ID of a ragged-loop record (05 R169). -/
def ragId (w : List W64) : Nat := fld (wd w 2) 63 48

/-- The bytes that the loop reads when it starts: the group table, its templates, and the shape records of its GATHER
templates (05 R171). -/
def ragReads (d : Dev) (b : Nat) (w : List W64) : List (Nat × Nat) :=
  (fld (wd w 1) 40 18, 8 * fld (wd w 0) 55 47) :: (fld (wd w 1) 63 41, 64 * fld (wd w 0) 45 43) ::
    (ragTemplates d b w).flatMap (fun p =>
      if recType p.1 = 0x23 then [(awSrc p.1, 128), (awAux p.1, 128), (awDst p.1, 128)] else [])

/-- The group table: (FIRST_ROW, ROWS). -/
def ragTable (d : Dev) (b : Nat) (w : List W64) : List (Nat × Nat) :=
  (d.spWords b (fld (wd w 1) 40 18) (fld (wd w 0) 55 47)).map (fun e => (fld e 63 32, fld e 31 0))

/-- The loop's own checks (05 R172). -/
def ragCheck (d : Dev) (b : Nat) (w : List W64) : Option Nat :=
  let groups := fld (wd w 0) 55 47
  let temps := fld (wd w 0) 45 43
  let fe := fld (wd w 0) 18 17
  let gt := (fld (wd w 1) 40 18, 8 * groups)
  let one (p : List W64 × W64) : Bool :=
    let t := p.1
    let lane := recType t = 0x10
    let tiling := fld p.2 63 62
    (lane || recType t = 0x23) && tiling ≤ 1 && (List.range 3).all (fun o => decide (patchOf p.2 o ≤ 2)) &&
    (!lane || (
      !(tiling = 0 && (!lrAccClear t || lrBatch t || lrSparse t = 2)) &&
      !(tiling = 1 && (lrPass t ≠ 0 || (List.range 3).any (fun o => patchOf p.2 o = 1))) &&
      patchOf p.2 1 ≠ 1 && !(lrRound t = 2 && patchOf p.2 2 = 2))) &&
    (lane || tiling = 1)
  firstFail [
    (1 ≤ groups && groups ≤ 256 && 1 ≤ temps && temps ≤ 4 && fe ≤ 2, eParameter),
    (rangesInSp [gt, (fld (wd w 1) 63 41, 64 * temps)], eParameter),
    (fe = 0 || rangesSlotted [gt], eAlignment),
    ((ragTemplates d b w).all one, eParameter)]

/-- Set a field of a record's word. -/
def setFld (w : List W64) (i hi lo v : Nat) : List W64 := setNth w i (putFld (wd w i) hi lo v)

/-- The bases of a lane-row template patched; whether all three fit their fields, and whether D_BASE does. -/
def patchLane (w : List W64) (p : W64) (g r : Nat) : List W64 × Bool × Bool :=
  let amount (op stride : Nat) : Nat := match patchOf p op with
    | 1 => 64 * r * stride
    | 2 => 64 * g * gStride p op
    | _ => 0
  let s := lrSBase w + amount 0 (lrSRow w)
  let t := lrTBase w + amount 1 0
  let o := lrDBase w + amount 2 (lrDRow w)
  let off := if patchOf p 2 = 1 then recElemOff w + r * lrDestRow w else recElemOff w
  (setFld (setFld (setFld (setFld w 1 22 0 s) 3 56 34 t) 4 63 41 o) 6 47 0 off,
   decide (s < spSize) && decide (t < spSize) && decide (o < spSize), decide (o < spSize))

/-- Issues of one template for one group (05 R171, R173). -/
def ragIssues (d : Dev) (b : Nat) (w : List W64) (g first rows : Nat) (p : List W64 × W64) : List (Nat × Item) :=
  let t := p.1
  if recType t = 0x10 then
    if fld p.2 63 62 = 0 then
      (List.range (ceilDiv rows 128)).map (fun j =>
        let (t, ok) := patchLane t p.2 g (first + 128 * j)
        (0, { words := setFld t 0 31 24 (min 128 (rows - 128 * j)), fits := ok.1 }))
    else if rows = 0 then
      if bit (wd w 0) 46 && lrDrainFmt t ≠ 0 then
        let (t, ok) := patchLane t p.2 g first
        [(2, { words := t, fits := ok.2 })]
      else []
    else
      let (t, ok) := patchLane t p.2 g first
      let kc := lrKc t
      [(0, { words := setFld (setFld t 0 15 0 (ceilDiv rows kc)) 1 63 52 (rows % kc), fits := ok.1 && decide (ceilDiv rows kc < 65536) })]
  else if rows = 0 then []
  else
    let shape (op off : Nat) : Nat × List W64 :=
      let s := d.shapeAt b off
      let add := match patchOf p.2 op with
        | 1 => if s.rank = 1 then first * s.w / 8 else first * s.st (s.rank - 1)
        | 2 => 64 * g * gStride p.2 op
        | _ => 0
      (op, setFld (d.spWords b off 16) 2 47 0 (s.base + add))
    [(1, { words := setFld t 3 17 17 0, count := some rows
           shapes := [shape 0 (awSrc t), shape 1 (awAux t), shape 2 (awDst t)] })]

/-- R88's time of a lane-row record without a preloaded first chunk (03 R82, R88; 04 R121). -/
def recordTime (h : W64) (w : List W64) : Nat :=
  let load := if lrReuse w then 0 else 2 * lrChunkBytes w
  let per (c : Nat) : Nat :=
    let k := lrKOf w c
    let cyc := if lrSparse w = 1 then ceilDiv k (structP w (lrPattern h)) else ceilDiv k (lrE w)
    (lrPasses w).length * lrRows w * cyc
  load + ((List.range (lrChunks w)).map (fun c => max (per c) (if c + 1 < lrChunks w then load else 0))).foldl (· + ·) 0

end Sys2Proof.Machine
end

