-- ==== Sys2Proof/Machine/Last.lean ====
section
/-! DEFINITION. The last: TRANSPOSE out of place, re-blocking and in place (06 R199 to R209). -/

namespace Sys2Proof.Machine

abbrev trAxis (w : List W64) : Nat := fld (wd w 0) 55 53
abbrev trRound (w : List W64) : Nat := fld (wd w 0) 52 51
abbrev trInPlace (w : List W64) : Bool := bit (wd w 0) 50
abbrev trSrcFe (w : List W64) : Nat := fld (wd w 0) 49 48
abbrev trDstFe (w : List W64) : Nat := fld (wd w 0) 47 46
abbrev trSrc (w : List W64) : Nat := fld (wd w 1) 63 41
abbrev trDst (w : List W64) : Nat := fld (wd w 1) 40 18

/-- Exchange places 0 and a of a list. -/
def swap0 {α : Type} (a : Nat) (dflt : α) (l : List α) : List α :=
  (l.set 0 (l.getD a dflt)).set a (l.getD 0 dflt)

/-- The transpose re-blocks (06 R204). -/
def trReblocks (s t : Shape) : Bool := s.mx && s.blockAxis = 0 && t.blockAxis = 0

/-- The element width in bytes inside the last (06 R199, R203, R205). -/
def trWidth (s t : Shape) : Nat := if trReblocks s t then 2 else if s.w = 32 then 4 else if s.w = 16 then 2 else 1

/-- The coordinates of a plane: every coordinate but 0 and B, in row-major order. -/
def planes (s : Shape) (a : Nat) : List (List Nat) :=
  let es := (s.exts.eraseIdx a).drop 1
  (List.range (es.foldl (· * ·) 1)).map (coordsOf es)

/-- A full coordinate from x₀, x_B and the plane. -/
def inPlane (a : Nat) (x0 xb : Nat) (p : List Nat) : List Nat := x0 :: (p.take (a - 1) ++ xb :: p.drop (a - 1))

/-- The tiles of a plane: (first x₀, count, first x_B, count), dimension 0 fastest (06 R209). -/
def trTiles (s : Shape) (a n rows : Nat) : List (Nat × Nat × Nat × Nat) :=
  (List.range (ceilDiv (s.e a) rows)).flatMap (fun j => (List.range (ceilDiv (s.e 0) n)).map (fun i =>
    (i * n, min n (s.e 0 - i * n), j * rows, min rows (s.e a - j * rows))))

/-- The bytes a tile reads, scales included. -/
def trTileRanges (s : Shape) (a : Nat) (p : List Nat) (t : Nat × Nat × Nat × Nat) : List (Nat × Nat) :=
  (List.range t.2.2.2).flatMap (fun k =>
    let x := inPlane a t.1 (t.2.2.1 + k) p
    let bit0 := t.1 * s.w
    (s.rowAddr (x.drop 1) + bit0 / 8, ceilDiv (t.2.1 * s.w) 8) ::
      (if s.mx then (List.range t.2.1).map (fun i => (s.scaleBase + s.scaleIndex ((t.1 + i) :: x.drop 1), 1)) else []))

/-- An element dequantised into BF16, with its saturation (06 R205 step 1). -/
def trBf16 (d : Dev) (b : Nat) (s : Shape) (x : List Nat) : Val × Cnt :=
  let sc := ((d.sp b (s.scaleBase + s.scaleIndex x) 1).headD 0).toNat
  let v := decodeMx s.fmt sc (d.rdElem b s x)
  match fpFmt fmtBF16 with
  | some f =>
    if v.isFin then
      let (c, n) := f.encode .rne true 0 v
      (f.decode c, n)
    else (v, {})
  | none => (v, {})

/-- The stochastic draw of destination element number i (02 R63, R64). -/
def trDraw (d : Dev) (w : List W64) (i : Nat) : Nat :=
  if trRound w = 2 then
    let t := if d.get Reg.STEP_STATE_PHASE = 0 then 0 else d.get Reg.STEP_STATE_STEP
    draw (d.reg Reg.JOB_SEED).toNat (recTensor w) (recElemOff w + i) t
  else 0

/-- Write one tile of a transpose: the elements move, or are re-blocked (06 R201, R204, R205). -/
def trTile (b : Nat) (w : List W64) (s t : Shape) (a : Nat) (p : List Nat) (d : Dev) (tl : Nat × Nat × Nat × Nat) : Dev :=
  let (x0, n0, xb, nb) := tl
  if trReblocks s t then
    (List.range n0).foldl (fun d i =>
      (List.range (ceilDiv nb 32)).foldl (fun d k =>
        let elems := (List.range 32).map (fun q =>
          let x := inPlane a (x0 + i) (xb + 32 * k + q) p
          (trBf16 d b s x, trDraw d w (indexOf t.exts (swap0 a 0 x))))
        let (sc, codes, n) := mxBlock s.fmt (rndOf (trRound w)) (elems.map (fun e => (e.1.1, e.2)))
        let first := swap0 a 0 (inPlane a (x0 + i) (xb + 32 * k) p)
        let d := codes.zipIdx.foldl (fun d c => d.wrElem b t ((first.headD 0 + c.2) :: first.drop 1) c.1) d
        let d := d.spWr b (t.scaleBase + t.scaleIndex first) [byteOf sc]
        (d.count b (n.add (Cnt.sum (elems.map (fun e => e.1.2))))).inc (Reg.LAYOUT_COUNT2_REBLOCKS b)) d) d
  else
    -- column by column: the column of x₀ is a destination row segment (R199)
    (List.range n0).foldl (fun d i =>
      (List.range nb).foldl (fun d j =>
        let x := inPlane a (x0 + i) (xb + j) p
        let y := swap0 a 0 x
        let d := d.wrElem b t y (d.rdElem b s x)
        if s.mx && x.getD s.blockAxis 0 % 32 = 0 then
          d.spWr b (t.scaleBase + t.scaleIndex y) (d.sp b (s.scaleBase + s.scaleIndex x) 1)
        else d) d) d

/-- The bytes that a tile writes: the destination row segments of its columns, and the scales that go with them. -/
def trTileWrites (s t : Shape) (a : Nat) (p : List Nat) (tl : Nat × Nat × Nat × Nat) : List (Nat × Nat) :=
  (List.range tl.2.1).flatMap (fun i =>
    let y := swap0 a 0 (inPlane a (tl.1 + i) tl.2.2.1 p)
    let bit0 := y.headD 0 * t.w
    (t.rowAddr (y.drop 1) + bit0 / 8, ceilDiv (bit0 % 8 + tl.2.2.2 * t.w) 8) ::
      (if trReblocks s t then [(t.scaleBase + t.scaleIndex y, ceilDiv tl.2.2.2 32)]
       else if s.mx then (List.range tl.2.2.2).filterMap (fun j =>
         let x := inPlane a (tl.1 + i) (tl.2.2.1 + j) p
         if x.getD s.blockAxis 0 % 32 = 0 then some (t.scaleBase + t.scaleIndex (swap0 a 0 x), 1) else none)
       else []))

/-- Tiles in order, until one meets an uncorrectable word, in what it reads or in a word that it writes only in part: no byte
of it or of a later one is written (06 R209, 07 R219; log entry 76). -/
def trTilesRun (b : Nat) (w : List W64) (s t : Shape) (a : Nat) :
    List (List Nat × (Nat × Nat × Nat × Nat)) → Dev → Dev × Option Stop
  | [], d => (d, none)
  | (p, tl) :: rest, d =>
    match d.badRanges b (trTileRanges s a p tl) with
    | some x => (d, some (.uncorrectable x))
    | none =>
      let d := d.correctReads b (trTileRanges s a p tl)
      match d.badWriteRanges b (trTileWrites s t a p tl) with
      | some x => (d, some (.uncorrectable x))
      | none => trTilesRun b w s t a rest (trTile b w s t a p (d.correctParts b (trTileWrites s t a p tl)) tl)

/-- Swap one pair of sub-tiles of a plane (06 R208): both are read before either is written. -/
def trPair (b : Nat) (s : Shape) (a n : Nat) (p : List Nat) (d : Dev) (i j : Nat) : Dev :=
  let at' (r c : Nat) : List Nat := inPlane a c r p
  let vals := (List.range n).flatMap (fun r => (List.range n).map (fun c =>
    (r, c, d.rdElem b s (at' (i * n + r) (j * n + c)), d.rdElem b s (at' (j * n + r) (i * n + c)))))
  vals.foldl (fun d v =>
    let d := d.wrElem b s (at' (j * n + v.2.1) (i * n + v.1)) v.2.2.1
    if i = j then d else d.wrElem b s (at' (i * n + v.2.1) (j * n + v.1)) v.2.2.2) d

/-- The pairs in order (06 R208, R209). -/
def trPairs (b : Nat) (s : Shape) (a n : Nat) : List (List Nat × Nat × Nat) → Dev → Dev × Option Stop
  | [], d => (d, none)
  | (p, i, j) :: rest, d =>
    let r := trTileRanges s a p (j * n, n, i * n, n) ++ (if i = j then [] else trTileRanges s a p (i * n, n, j * n, n))
    match d.badRanges b r with
    | some x => (d, some (.uncorrectable x))
    | none => trPairs b s a n rest (trPair b s a n p (d.correctReads b r) i j)

/-- The plan of a TRANSPOSE record (06 R201, R204, R206, R207). -/
def lastPlan (d : Dev) (b : Nat) (it : Item) : Except Nat Plan :=
  let w := it.words
  let s := itemShape d b it 0 (trSrc w)
  let t := itemShape d b it 1 (trDst w)
  let a := trAxis w
  let mv := if a = s.blockAxis then 0 else if s.blockAxis = 0 then a else s.blockAxis
  let shp (off : Nat) (s : Shape) : List (Option Nat) :=
    [shapePlace off, s.check mxType, s.checkLocal 64]
  let n := 64 / trWidth s t
  let inPlaceOk := s == t && !s.mx && 8 ≤ s.w && s.e 0 = s.e a && s.e 0 % n = 0
  let checks := [firstFail [(recType w = 0x40, eParameter), (1 ≤ a && a ≤ 5 && trRound w ≤ 2, eParameter)]] ++
    shp (trSrc w) s ++ shp (trDst w) t ++
    [firstFail [
      (s.fmt = t.fmt && s.mx == t.mx && s.fmt ≠ fmtE8M0, eFormat),
      (a < s.rank, eParameter), (s.rank = t.rank && t.exts == swap0 a 0 s.exts, eParameter),
      (!s.mx || trReblocks s t || t.blockAxis = mv, eParameter),
      (!trInPlace w || inPlaceOk, eParameter),
      (trInPlace w || !rangesMeet s.footprint t.footprint, eOverlap)],
     firstFail (tagChecks (if trSrcFe w = 0 then [] else s.footprint) (if trDstFe w = 0 then [] else t.footprint)
       (trSrcFe w) (trDstFe w))]
  let run (d : Dev) : Dev × Option Stop :=
    if trInPlace w then
      let k := s.e 0 / n
      trPairs b s a n ((planes s a).flatMap (fun p => (List.range k).flatMap (fun i =>
        ((List.range k).filter (fun j => i ≤ j)).map (fun j => (p, i, j))))) d
    else trTilesRun b w s t a ((planes s a).flatMap (fun p => (trTiles s a n 64).map (fun tl => (p, tl)))) d
  planOf checks
    { src := s.footprint, dst := t.footprint, srcFe := trSrcFe w, dstFe := trDstFe w
      reads := s.ranges, writes := t.ranges, own := true, run := run }

end Sys2Proof.Machine
end

