-- ==== Sys2Proof/Machine/Vector.lean ====
section
/-! DEFINITION. The vector engine: VECTOR records and their programs (02 R57, R567 to R570). -/

namespace Sys2Proof.Machine

abbrev veRound (w : List W64) : Nat := fld (wd w 0) 55 54
abbrev veSat (w : List W64) : Bool := bit (wd w 0) 53
abbrev veSrcFe (w : List W64) : Nat := fld (wd w 0) 52 51
abbrev veDstFe (w : List W64) : Nat := fld (wd w 0) 50 49
abbrev veSteps (w : List W64) : Nat := fld (wd w 0) 48 43
abbrev veIns (w : List W64) : Nat := fld (wd w 0) 42 40
abbrev veOuts (w : List W64) : Nat := fld (wd w 0) 39 38
abbrev veProg (w : List W64) : Nat := fld (wd w 0) 22 0
/-- The operand number under which a record keeps its program. -/
abbrev progKey : Nat := 100
/-- Offset of input i's shape record. -/
def veIn (w : List W64) (i : Nat) : Nat := if i % 2 = 0 then fld (wd w (1 + i / 2)) 63 41 else fld (wd w (1 + i / 2)) 40 18
/-- Offset of output i's shape record. -/
def veOut (w : List W64) (i : Nat) : Nat := if i = 0 then fld (wd w 3) 63 41 else fld (wd w 3) 40 18
/-- Immediate i. -/
def veImm (w : List W64) (i : Nat) : Nat := if i % 2 = 0 then fld (wd w (4 + i / 2)) 63 32 else fld (wd w (4 + i / 2)) 31 0

/-- The sixteen registers over a row: register r at position p is element p of list r. -/
structure VecSt where
  regs : List (List Nat)
  dev : Dev

/-- One of the row's registers. -/
def VecSt.r (v : VecSt) (i : Nat) : List Nat := v.regs.getD i []

/-- What a step reads of the row it is in: extents, row number, coordinates. -/
structure VecRow where
  width : Nat
  row : Nat
  outer : List Nat
  seed : Nat
  step : Nat

/-- One loaded element as a register value (02 R569 LOAD). A block-scaled value beyond the range of FP32 becomes an infinity,
as R67 rounds without SAT (DESIGN CHOICE, log entry 79: R569 says only that elements convert to FP32). -/
def loadElem (f : Nat) (mx : Bool) (sc code : Nat) : Nat :=
  if mx then enc32 (decodeMx f sc code)
  else if f = fmtE8M0 then enc32 (decodeScale code)
  else if fmtIsInt f then unsigned 32 (decInt f code)
  else enc32 (decodeElem f false code)

/-- What loading an element counts: a block-scaled value beyond FP32 makes an infinity of a finite operand (02 R71; log
entry 79). -/
def loadCnt (f : Nat) (mx : Bool) (sc code : Nat) : Cnt :=
  if mx ∧ (decodeMx f sc code).isFin ∧ (dec32 (loadElem f mx sc code)).isInf then { infs := 1 } else {}

/-- LOAD: a row of input s, broadcast, with its counts; a broadcast element is loaded once. -/
def vecLoad (d : Dev) (b : Nat) (s : Shape) (q : VecRow) : List Nat × Cnt :=
  let outer := List.zipWith (fun x e => if e = 1 then 0 else x) q.outer (s.exts.drop 1)
  let row := (d.rdRow b s outer).zip (d.rdRowScales b s outer)
  let one := row.map (fun p => loadElem s.fmt s.mx p.2 p.1)
  (if s.e 0 = 1 then List.replicate q.width (one.headD 0) else one, Cnt.sum (row.map (fun p => loadCnt s.fmt s.mx p.2 p.1)))

/-- The draw of position x of output or FTOI number k (02 R568). -/
def vecDraw (w : List W64) (q : VecRow) (mode : Rnd) (k x : Nat) : Nat :=
  if mode = .sr then
    let l := let v := fld (wd w 7) 23 0; if v = 0 then q.width else v
    draw q.seed ((recTensor w + k) % 2 ^ 32) (recElemOff w + q.row * l + x) q.step
  else 0

/-- STORE: a register to a row of output number k (02 R569). -/
def vecStore (d : Dev) (b : Nat) (w : List W64) (q : VecRow) (s : Shape) (k : Nat) (vals : List Nat) : Dev :=
  let mode := rndOf (veRound w)
  if s.mx then
    let pairs := vals.zipIdx.map (fun p => (dec32 p.1, vecDraw w q mode k p.2))
    let blocks := (groups 32 pairs).map (mxBlock s.fmt mode)
    let d := d.wrRow b s q.outer (blocks.flatMap (fun r => r.2.1))
    let d := blocks.zipIdx.foldl (fun d r => d.spWr b (s.scaleBase + s.scaleIndex ((32 * r.2) :: q.outer)) [byteOf r.1.1]) d
    d.count b (Cnt.sum (blocks.map (fun r => r.2.2)))
  else
    let conv (p : Nat × Nat) : Nat × Cnt :=
      if s.fmt = fmtE8M0 then toE8M0 (dec32 p.1)
      else if fmtIsInt s.fmt then
        encInt s.fmt (if s.fmt = fmtUINT32 || s.fmt = fmtUINT8 then (p.1 : Int) else signed 32 p.1)
      else match fpFmt s.fmt with
        | some f => f.encode mode (veSat w) (vecDraw w q mode k p.2) (dec32 p.1)
        | none => (0, {})
    let rs := vals.zipIdx.map conv
    (d.wrRow b s q.outer (rs.map Prod.fst)).count b (Cnt.sum (rs.map Prod.snd))

/-- An operation on one position's operands, with its counts; `x` is the coordinate, `r` the draw of FTOI. LO16 of a NaN gives
+0 and is no replacement that R71 counts (DESIGN CHOICE, log entry 81: R569 leaves it open). -/
def vecOp (mode : Rnd) (op x r a c e : Nat) : Nat × Cnt :=
  let f1 (v : Nat) : Nat × Cnt := (v, cntOf [dec32 a] v)
  let f2 (v : Nat) : Nat × Cnt := (v, cntOf [dec32 a, dec32 c] v)
  let cmp (p : Bool) : Nat × Cnt := (if p then one32 else 0, {})
  let va := dec32 a
  let vc := dec32 c
  match op with
  | 0x10 => f2 (fadd a c)
  | 0x11 => f2 (fsub a c)
  | 0x12 => f2 (fmul a c)
  | 0x13 => let v := ffma a c e; (v, cntOf [va, vc, dec32 e] v)
  | 0x14 => f2 (fdiv a c)
  | 0x15 => f1 (fsqrt a)
  | 0x16 => f1 (frcp a)
  | 0x17 => f1 (frsqrt a)
  | 0x18 => f1 (fexp2 a)
  | 0x19 => f1 (flog2 a)
  | 0x1A => (fmin a c, {})
  | 0x1B => (fmax a c, {})
  | 0x1C => (fneg a, {})
  | 0x1D => (fabs a, {})
  | 0x20 => cmp (va.lt vc)
  | 0x21 => cmp (va.lt vc || va.eqv vc)
  | 0x22 => cmp (va.eqv vc)
  | 0x23 => (if a ≠ 0 && a ≠ 0x80000000 then c else e, {})
  | 0x28 => (trunc16 a, {})
  | 0x29 => (lo16 a, {})
  | 0x30 => encInt fmtINT32 (signed 32 a + signed 32 c)
  | 0x31 => encInt fmtINT32 (signed 32 a - signed 32 c)
  | 0x32 => encInt fmtINT32 (signed 32 a * signed 32 c)
  | 0x33 => (enc32 (Val.ofInt false (signed 32 a) 0), {})
  | 0x34 => valToInt fmtINT32 mode r va
  | 0x35 => (x, {})
  | _ => (0, {})

/-- A reduction over the row, in ascending x₀ (02 R569). -/
def vecReduce (op : Nat) (l : List Nat) : Nat × Cnt :=
  match op with
  | 0x40 => l.foldl (fun (p : Nat × Cnt) v => let s := fadd p.1 v; (s, p.2.add (cntOf [dec32 p.1, dec32 v] s))) (0, {})
  | 0x41 => (match l with | [] => 0 | v :: t => t.foldl fmax (enc32 (dec32 v)), {})
  | _ => (match l with | [] => 0 | v :: t => t.foldl fmin (enc32 (dec32 v)), {})

/-- One program step over the row. -/
def vecStep (b : Nat) (w : List W64) (ins outs : List Shape) (q : VecRow) (v : VecSt) (s : W64) : VecSt :=
  let op := fld s 63 56
  let dst := fld s 55 52
  let ra := fld s 51 48
  let a := v.r ra
  let c := v.r (fld s 47 44)
  let e := v.r (fld s 43 40)
  let put (l : List Nat) (n : Cnt) : VecSt := { regs := v.regs.set dst l, dev := v.dev.count b n }
  match op with
  | 0x01 => match ins[ra]? with | some sh => (let (l, n) := vecLoad v.dev b sh q; put l n) | none => v
  | 0x02 => put (List.replicate q.width (veImm w ra)) {}
  | 0x03 => match outs[ra]? with | some sh => { v with dev := vecStore v.dev b w q sh ra (v.r dst) } | none => v
  | 0x40 => let (x, n) := vecReduce op a; put (List.replicate q.width x) n
  | 0x41 => let (x, n) := vecReduce op a; put (List.replicate q.width x) n
  | 0x42 => let (x, n) := vecReduce op a; put (List.replicate q.width x) n
  | _ =>
    let mode := rndOf (veRound w)
    let rs := (List.range q.width).map (fun x =>
      vecOp mode op x (if op = 0x34 then vecDraw w q mode 2 x else 0) (a.getD x 0) (c.getD x 0) (e.getD x 0))
    put (rs.map Prod.fst) (Cnt.sum (rs.map Prod.snd))

/-- Run the program on every row of the visit space (02 R568). -/
def vecRun (b : Nat) (w : List W64) (ins outs : List Shape) (prog : List W64) (d : Dev) : Dev :=
  match outs with
  | [] => d
  | o :: _ =>
    let t := if d.get Reg.STEP_STATE_PHASE = 0 then 0 else d.get Reg.STEP_STATE_STEP
    (List.range o.rows).foldl (fun d r =>
      let q : VecRow := { width := o.e 0, row := r, outer := o.rowCoords r, seed := (d.reg Reg.JOB_SEED).toNat, step := t }
      (prog.foldl (vecStep b w ins outs q)
        { regs := List.replicate 16 (List.replicate (o.e 0) 0), dev := d }).dev) d

/-- A program step's own checks (02 R570). -/
def vecStepOk (ins outs : Nat) (s : W64) : Bool :=
  let op := fld s 63 56
  let az := fld s 51 48 = 0
  let bz := fld s 47 44 = 0
  let cz := fld s 43 40 = 0
  let ra := fld s 51 48
  match op with
  | 0x01 => decide (ra < ins) && bz && cz
  | 0x02 => decide (ra ≤ 3) && bz && cz
  | 0x03 => decide (ra < outs) && bz && cz
  | 0x13 => true
  | 0x23 => true
  | 0x35 => az && bz && cz
  | _ =>
    if [0x10, 0x11, 0x12, 0x14, 0x1A, 0x1B, 0x20, 0x21, 0x22, 0x30, 0x31, 0x32].contains op then cz
    else if [0x15, 0x16, 0x17, 0x18, 0x19, 0x1C, 0x1D, 0x28, 0x29, 0x33, 0x34, 0x40, 0x41, 0x42].contains op then bz && cz
    else false

/-- The plan of a VECTOR record (02 R568, R570). -/
def vecPlan (d : Dev) (b : Nat) (it : Item) : Except Nat Plan :=
  let w := it.words
  let ni := veIns w
  let no := veOuts w
  let ins := (List.range ni).map (fun i => itemShape d b it i (veIn w i))
  let outs := (List.range no).map (fun i => itemShape d b it (4 + i) (veOut w i))
  let prog := itemWords d b it progKey (veProg w) (veSteps w)
  let o := outs.headD (Shape.ofWords [])
  let shp (off : Nat) (s : Shape) : List (Option Nat) :=
    [shapePlace off, s.check mxType, s.checkLocal 64]
  let shapes := (List.range ni).flatMap (fun i => shp (veIn w i) (itemShape d b it i (veIn w i))) ++
    (List.range no).flatMap (fun i => shp (veOut w i) (itemShape d b it (4 + i) (veOut w i)))
  let names (op i : Nat) : Bool := prog.any (fun s => fld s 63 56 = op && fld s 51 48 = i)
  let reduces := prog.any (fun s => decide (0x40 ≤ fld s 63 56))
  let src := ins.flatMap Shape.footprint
  let dst := outs.flatMap Shape.footprint
  let fields := firstFail [
    (recType w = 0xA0 && veRound w ≤ 2, eParameter), (1 ≤ veSteps w && veSteps w ≤ 32, eParameter),
    (ni ≤ 4 && 1 ≤ no && no ≤ 2, eParameter),
    ((List.range 4).all (fun i => i < ni || veIn w i = 0) && (List.range 2).all (fun i => i < no || veOut w i = 0),
      eParameter),
    (veProg w % 8 = 0, eAlignment), (veProg w + 8 * veSteps w ≤ spSize, eParameter),
    (prog.all (vecStepOk ni no), eParameter)]
  let space := firstFail [
    (outs.all (fun s => s.rank = o.rank && s.exts == o.exts), eParameter),
    (ins.all (fun s => s.rank = o.rank && (List.zipWith (fun (x y : Nat) => x = y || x = 1) s.exts o.exts).all id), eParameter),
    (!reduces || o.e 0 ≤ 16384, eParameter), (outs.all (fun s => !s.mx || s.blockAxis = 0), eParameter)]
  planOf (fields :: shapes ++ [space, firstFail (tagChecks (if veSrcFe w = 0 then [] else src)
      (if veDstFe w = 0 then [] else dst) (veSrcFe w) (veDstFe w))])
    { src := src, dst := dst, srcFe := veSrcFe w, dstFe := veDstFe w, reads := (ins.zipIdx.filter (fun p => names 0x01 p.2)).flatMap (fun p => p.1.ranges)
      writes := (outs.zipIdx.filter (fun p => names 0x03 p.2)).flatMap (fun p => p.1.ranges), run := fun d => (vecRun b w ins outs prog d, none) }

end Sys2Proof.Machine
end

