-- ==== Sys2Proof/Machine/Meet.lean ====
section
/-! DEFINITION. Meetings of a bench's scratchpad ports on its banks: who waits, and who is refused under STRICT
(07 R211 to R216). The model does not time bench cycles, so whether two ports that share a bank meet, and for how many
cycles, is a free value (log entry 51). -/

namespace Sys2Proof.Machine

/-- The banks, one bit each, that runs of scratchpad bytes lie in (07 R210). -/
def bankMask (l : List (Nat × Nat)) : Nat :=
  l.foldl (fun m r => if r.2 = 0 then m else
    (List.range ((r.1 + r.2 - 1) / 131072 + 1 - r.1 / 131072)).foldl
      (fun m i => m ||| 2 ^ ((r.1 / 131072 + i) % 64)) m) 0

/-- The runs that begin or end within a word: their writes are partial-word writes (07 R219). -/
def partRuns (l : List (Nat × Nat)) : List (Nat × Nat) :=
  l.filter (fun r => r.2 ≠ 0 && (r.1 % 8 ≠ 0 || (r.1 + r.2) % 8 ≠ 0))

/-- What uses a bench's scratchpad: the lane row's record at hand, the rows it has still to drain, the engines 0 to 2, the
sequencer's ragged loop, the DMA port's bursts. -/
inductive SpUser where
  | lane | drain | engine (e : Nat) | loop | dma
  deriving DecidableEq, Repr

/-- A user of a port, and the banks that it may address there: all of them, and those of its partial-word writes. -/
structure PortUse where
  user : SpUser
  port : Nat
  banks : Nat
  part : Nat
  deriving DecidableEq, Repr

/-- The use of a port for reads and writes of runs of bytes. -/
def portUse (user : SpUser) (port : Nat) (reads writes : List (Nat × Nat)) : PortUse :=
  ⟨user, port, bankMask (reads ++ writes), bankMask (partRuns writes)⟩

/-- The lane-row record in progress, or the one at the head of its queue. -/
def laneHead (d : Dev) (b : Nat) : Option Item :=
  match (d.bn b).lane.cur with
  | some r => some r.item
  | none => (d.bn b).lane.queue.head?

/-- The ports of a lane-row record: stream, loads with block scales, drain, and code delivery through the awl's port
(07 R212). -/
def laneUses (d : Dev) (b : Nat) (it : Item) : List PortUse :=
  let w := it.words
  let h := codeHead d b it
  let pat := lrPattern h
  let rows := List.range (lrStreamRows w)
  let chunks := List.range (lrChunks w)
  let stream := if lrSparse w = 2 then [] else rows.flatMap (lrStreamRanges pat w)
  let scales := if lrSparse w = 2 then [] else rows.flatMap (fun i => chunks.flatMap (lrStreamScales pat w i))
  let loads := if lrReuse w && lrSparse w ≠ 2 then [] else chunks.flatMap (fun c => lrLoadRanges w c (lrAll w))
  let codes := if lrSparse w = 1 then (lrCode w, 8) :: chunks.flatMap (lrCodeRanges h w) else []
  [portUse .lane 0 stream [], portUse .lane 1 (loads ++ scales) [],
   portUse .lane 2 [] (if lrDrainFmt w = 0 then [] else (lrDrainRowsOf w).map (lrDrainRange w)), portUse .lane 4 codes []]

/-- The rows that wait to drain. -/
def drainUse (d : Dev) (b : Nat) : PortUse :=
  portUse .drain 2 [] ((d.bn b).lane.drains.map (fun r => (r.off, lrWidth r.words * lrDrainWidth r.words)))

/-- The ports of a checked record of an engine. -/
def planUses (e : Nat) (w : List W64) (p : Plan) : List PortUse :=
  [portUse (.engine e) (engPort e w) p.reads p.writes, portUse (.engine e) 4 p.tableReads p.tableWrites]

/-- The plan of a record of engine `e`: any record of the awl's queue, a TRANSPOSE, a VECTOR record. -/
def enginePlan (e : Nat) (d : Dev) (b : Nat) (it : Item) : Except Nat Plan :=
  if e = 0 then awlQueuePlan d b it else if e = 1 then lastPlan d b it else vecPlan d b it

/-- The ports of the record that engine `e` has at hand. -/
def engineUses (d : Dev) (b e : Nat) : List PortUse :=
  match engHead d b e with
  | some it => match enginePlan e d b it with
    | .ok p => planUses e it.words p
    | .error _ => []
  | none => []

/-- The bursts that the bench's DMA port has still to serve: packets on their way to it, and its own channels' bursts. -/
def dmaUse (d : Dev) (b : Nat) : PortUse :=
  let own (a n : Nat) : List (Nat × Nat) :=
    if spBase b ≤ a ∧ a + n ≤ spBase b + spSize then [(a - spBase b, n)] else []
  let runs := (List.range 8).filterMap (fun ch => (d.chan b ch).cur)
  let pkts (kind : Nat) := d.net.pkts.flatMap (fun p => if p.kind = kind then own p.addr p.len else [])
  portUse .dma 3 (pkts 1 ++ runs.flatMap (fun r => (r.reads.filter (fun q => q.data.isNone)).flatMap (fun q => own q.addr q.len)))
    (pkts 0 ++ runs.flatMap (fun r => (r.fly.filter (fun q => !q.sent)).flatMap (fun q => own q.dst q.len)))

/-- Everything that may use bench b's ports now. -/
def spUses (d : Dev) (b : Nat) : List PortUse :=
  (match laneHead d b with | some it => laneUses d b it | none => []) ++ [drainUse d b] ++
    (List.range 3).flatMap (engineUses d b) ++ [dmaUse d b]

/-- A port's place in the order of R213: DRAIN, STREAM, STATIONARY, AWL, VECTOR, DMA. -/
def portOrder (port : Nat) : Nat := [1, 2, 0, 5, 3, 4].getD port 6

/-- The counters of a port's waits; a stream or drain wait is a bubble too (07 R214). -/
def portWaits (b port : Nat) : List Fld :=
  match port with
  | 0 => [Reg.SP_CONFLICT0_STREAM_WAITS b, Reg.LR_COUNT0_STREAM_BUBBLES b]
  | 1 => [Reg.SP_CONFLICT0_STATIONARY_WAITS b]
  | 2 => [Reg.SP_CONFLICT1_DRAIN_WAITS b, Reg.LR_COUNT1_DRAIN_BUBBLES b]
  | 3 => [Reg.SP_CONFLICT1_DMA_WAITS b]
  | 4 => [Reg.SP_CONFLICT2_AWL_WAITS b]
  | _ => [Reg.SP_CONFLICT2_VECTOR_WAITS b]

/-- Add the waits of a port. -/
def Dev.addWaits (d : Dev) (b port n : Nat) : Dev := (portWaits b port).foldl (fun d f => d.addTo f n) d

/-- Two uses of different ports: where they share a bank, a free value says whether they meet and how many cycles each waits.
Under STRICT the later one in the order of R213 is refused; in the second cycle of a partial-word write, any other one
(07 R213 to R216). -/
def Dev.meetPair (d : Dev) (b : Nat) (x y : PortUse) : Dev × Option PortUse :=
  if x.user = y.user && x.port = y.port || x.port = y.port || x.banks &&& y.banks = 0 then (d, none)
  else
    let (v, d) := d.free?
    let d := (d.addWaits b x.port (fld v 31 0)).addWaits b y.port (fld v 63 32)
    if v = 0 || d.get (Reg.SP_CTRL_STRICT b) ≠ 1 then (d, none)
    else
      let xLater := decide (portOrder y.port < portOrder x.port)
      let second := bit v 0 && (if xLater then x.part &&& y.banks ≠ 0 else y.part &&& x.banks ≠ 0)
      (d, some (if xLater != second then x else y))

/-- The meetings of pairs of uses, and the uses refused, first one first. -/
def Dev.meetPairs (d : Dev) (b : Nat) : List (PortUse × PortUse) → Dev × List PortUse
  | [] => (d, [])
  | p :: t =>
    let (d, r) := d.meetPair b p.1 p.2
    let (d, l) := Dev.meetPairs d b t
    (d, r.toList ++ l)

/-- The pairs of a list, each once. -/
def pairsOf {α : Type} : List α → List (α × α)
  | [] => []
  | x :: t => t.map (fun y => (x, y)) ++ pairsOf t

/-! ### Stops -/

/-- A meeting under STRICT, on the scratchpad's own record: the word concerned is open (07 R216, R235). -/
def Dev.conflict (d : Dev) (b port : Nat) : Dev :=
  let (v, d) := d.free?
  d.spLastFault b 1 port (v.toNat % spSize)

/-- Stop the lane-row record in progress; a chunk preloaded for the next one is given up (17 R470). -/
def laneStop (d : Dev) (b : Nat) : Dev :=
  d.onBn b (fun x => { x with lane := { x.lane with cur := none, packets := [], chunkMasks := [], pre := none } })

/-- The record in progress in an engine ends. -/
def engDrop (d : Dev) (b e : Nat) : Dev := d.onEng b e (fun s => { s with cur := none })

/-- The record at hand in an engine, in progress or at the head of the queue, is given up. -/
def engDropHead (d : Dev) (b e : Nat) : Dev :=
  d.onEng b e (fun s => match s.cur with
    | some _ => { s with cur := none }
    | none => { s with queue := s.queue.drop 1 })

/-- Ask a channel for a stop: no further burst is issued (09 R285). A descriptor that is coming to its end at its limit may still
meet another cause. -/
def Dev.stopChan (d : Dev) (loc ch cause : Nat) : Dev :=
  d.onRun loc ch (fun r => match r.stop with
    | none => { r with stop := some cause, wait := none }
    | some c => if c = 8 then { r with stop := some cause, wait := none } else r)

/-- A burst refused at a meeting under STRICT is reported to the bench's sequencer (07 R216). -/
def Dev.dmaConflict (d : Dev) (b loc ch : Nat) : Dev :=
  (d.conflict b 3).schedFault b (match (d.chan loc ch).cur with | some r => recId r.words | none => 0) 0

/-- A burst at the channel's own port is refused at a meeting under STRICT: it is not performed, and its descriptor stops
(07 R216, 09 R285). -/
def Dev.ownConflict (d : Dev) (loc ch : Nat) (gone : ChanRun → ChanRun) : Dev :=
  ((d.onRun loc ch gone).stopChan loc ch 6).dmaConflict loc loc ch

/-- A descriptor without one of its write bursts, or without one of its read bursts. -/
def ChanRun.lessBurst (pos : Nat) (r : ChanRun) : ChanRun := { r with fly := r.fly.filter (fun x => x.pos ≠ pos) }
def ChanRun.lessRead (key : Nat) (r : ChanRun) : ChanRun := { r with reads := r.reads.filter (fun x => x.key ≠ key) }

/-- The first burst at the bench's DMA port that shares a bank of `banks` is refused. -/
def Dev.dmaRefuse (d : Dev) (b banks : Nat) : Dev :=
  let shares (a n : Nat) : Bool :=
    decide (spBase b ≤ a) && decide (a + n ≤ spBase b + spSize) && decide (bankMask [(a - spBase b, n)] &&& banks ≠ 0)
  match d.net.pkts.find? (fun p => decide (p.kind ≤ 1) && shares p.addr p.len) with
  | some p => (d.dmaConflict b p.loc p.ch).answer p 6 [] 6
  | none =>
    let runs := (List.range 8).filterMap (fun ch => (d.chan b ch).cur.map (fun r => (ch, r)))
    match runs.findSome? (fun r => (r.2.reads.find? (fun q => q.data.isNone && shares q.addr q.len)).map (fun q => (r.1, q.key))) with
    | some q => d.ownConflict b q.1 (ChanRun.lessRead q.2)
    | none =>
      match runs.findSome? (fun r => (r.2.fly.find? (fun q => !q.sent && shares q.dst q.len)).map (fun q => (r.1, q.pos))) with
      | some q => d.ownConflict b q.1 (ChanRun.lessBurst q.2)
      | none => d

/-- A refused user other than the one at work stops with a CONFLICT_STRICT fault (07 R216). `banks` are those of the use. -/
def Dev.refuseUse (d : Dev) (b : Nat) (u : PortUse) : Dev :=
  match u.user with
  | .lane =>
    match laneHead d b with
    | none => d
    | some it =>
      let started := (d.bn b).lane.cur.isSome
      let d := laneStop d b
      let d := if started then d else d.onBn b (fun x => { x with lane := { x.lane with queue := x.lane.queue.drop 1 } })
      seqFault (d.conflict b u.port) b (recId it.words) 0
  | .drain =>
    match (d.bn b).lane.drains with
    | [] => d
    | r :: _ => seqFault ((d.onBn b (fun x => { x with lane := { x.lane with drains := [] } })).conflict b u.port) b (recId r.words) 0
  | .engine e =>
    match engHead d b e with
    | none => d
    | some it => seqFault ((engDropHead d b e).conflict b u.port) b (recId it.words) 0
  | .loop => d
  | .dma => d.dmaRefuse b u.banks

/-- The uses `own` of the user at work meet those of every other user and one another; other users that are refused stop. The
answer says at which port the user at work is refused, if it is. -/
def Dev.meet (d : Dev) (b : Nat) (own : List PortUse) : Dev × Option Nat :=
  let mine (u : PortUse) : Bool := own.any (fun o => o.user = u.user)
  let others := (spUses d b).filter (fun u => !mine u)
  let (d, refused) := d.meetPairs b (pairsOf own ++ own.flatMap (fun o => others.map (fun u => (o, u))))
  ((refused.filter (fun u => !mine u)).foldl (fun d u => d.refuseUse b u) d,
   ((refused.filter mine).head?).map PortUse.port)

/-- The meetings of the lane row's record in progress and of the rows it drains. -/
def laneMeet (d : Dev) (b : Nat) : Dev × Option Nat :=
  d.meet b ((match laneHead d b with | some it => laneUses d b it | none => []) ++ [drainUse d b])

/-- The meetings of an engine at work on a checked record. -/
def engMeet (e : Nat) (w : List W64) (p : Plan) (d : Dev) (b : Nat) : Dev × Option Nat := d.meet b (planUses e w p)

/-- The meetings of a bench's DMA port, as it serves the bytes at physical address `a` (07 R213, R234). -/
def Dev.dmaMeet (d : Dev) (loc : Nat) (write : Bool) (a n : Nat) : Dev × Bool :=
  if loc < 144 then
    let l := [(a - spBase loc, n)]
    let m := d.meet loc [if write then portUse .dma 3 [] l else portUse .dma 3 l []]
    (m.1, m.2.isSome)
  else (d, false)

end Sys2Proof.Machine
end

