-- ==== Sys2Proof/Machine/LaneRun.lean ====
section
/-! DEFINITION. The lane row at work: leave, start, loads and preloads, issue, drain, batch mode (03 R81 to R101, 04 R130 to
R132, 18 R486, R487). -/

namespace Sys2Proof.Machine

/-! ### Leave (18 R486, R487) -/

/-- Units of leave of a leave class (18 R486). -/
def leaveUnits (d : Dev) (c : Nat) : Nat := d.get (Reg.LEAVE_TABLE_UNITS c)

/-- The leave class of a lane-row record (18 R486). -/
def lrLeave (w : List W64) : Nat :=
  if lrSparse w ≠ 0 then 3
  else
    let x := max (fmtBits (lrSFmt w)) (fmtBits (lrTFmt w))
    if 16 ≤ x then 0 else if 8 ≤ x then 1 else 2

/-- The leave class of a record of the awl, last or vector engine. -/
def engLeave (w : List W64) : Nat :=
  let t := recType w
  if t = 0xA0 || t = 0x40 then 5 else 4

/-- The need of the records in progress on a bench (18 R487). -/
def benchNeed (d : Dev) (b : Nat) : Nat :=
  let x := d.bn b
  let eng (e : EngSt) : Nat := match e.cur with
    | some r => if 1 ≤ r.phase then leaveUnits d (engLeave r.item.words) else 0
    | none => 0
  (match x.lane.cur with | some r => leaveUnits d (lrLeave r.item.words) | none => 0) + eng x.awl + eng x.last + eng x.vec

/-- A record of `units` may start: the need including it is at most the leave held (18 R487). -/
def leaveOk (d : Dev) (b units : Nat) : Bool :=
  units = 0 || decide (benchNeed d b + units ≤ d.get (Reg.BENCH_LEAVE_HELD b))

/-- Note the largest need of the beat (18 R487). -/
def noteNeed (d : Dev) (b : Nat) : Dev :=
  { d with maxNeed := SMap.set (fun _ => 0) d.maxNeed b (max (SMap.get (fun _ => 0) d.maxNeed b) (benchNeed d b)) }

/-! ### The record in progress -/

/-- Change the lane row of a bench. -/
def Dev.onLane (d : Dev) (b : Nat) (f : LaneSt → LaneSt) : Dev := d.onBn b (fun x => { x with lane := f x.lane })

/-- Replace the record in progress. -/
def lanePut (d : Dev) (b : Nat) (r : LaneRun) : Dev := d.onLane b (fun l => { l with cur := some r })

/-- A tagged wait of the lane row begins, and its cycles are counted (07 R223, R235). -/
def laneWait (d : Dev) (b : Nat) (r : LaneRun) (slots : List Nat) : Dev :=
  match r.wait with
  | some _ => d
  | none => (lanePut d b { r with wait := some ⟨slots, true, d.countedBeats⟩ }).addCycles (Reg.SP_TAG_TAG_WAIT_CYCLES b)

/-- The ring position or row that stream row i of a run is read from. -/
def LaneRun.pos (r : LaneRun) (i : Nat) : Nat :=
  if lrBatch r.item.words then (r.sPos + i) % 2 ^ lrSRing r.item.words else i

/-- The slots of a stream row. -/
def LaneRun.slots (d : Dev) (b : Nat) (r : LaneRun) (i : Nat) : List Nat :=
  if lrStreamFe r.item.words = 0 || lrSparse r.item.words = 2 then []
  else rangeSlots b (lrStreamRanges (lrPattern (codeHead d b r.item)) r.item.words (r.pos i))

/-! ### Drain (03 R85, R86, R93) -/

/-- Drain rows in order, as far as their tags allow; a row under FILL waits for its slots to be empty. -/
def drainRun : Nat → Dev → Nat → Dev
  | 0, d, _ => d
  | n + 1, d, b =>
    match (d.bn b).lane.drains with
    | [] => d
    | r :: rest =>
      let w := r.words
      let len := lrWidth w * lrDrainWidth w
      let slots := if lrDrainFe w = 1 then slotRun b r.off len else []
      let drop (d : Dev) : Dev := d.onLane b (fun l => { l with drains := rest })
      let stop (d : Dev) : Dev := (laneStop d b).onLane b (fun l => { l with drains := [] })
      match d.tagBad slots with
      | some k => stop (d.tagUncorrectable b 2 (recId w) k)
      | none =>
        let d := d.tagFix slots
        if !d.tagsAre slots false then
          match r.wait with
          | some _ => d
          | none => (d.onLane b (fun l => { l with drains := { r with wait := some ⟨slots, false, d.countedBeats⟩ } :: rest }))
              |>.addCycles (Reg.SP_TAG_TAG_WAIT_CYCLES b)
        else match d.badWrite (spBase b + r.off) len with
        | some a => stop (d.spUncorrectable b 2 (recId w) a)
        | none =>
          let d := d.correctParts b [(r.off, len)]
          let (bytes, c) := drainBytes d b r
          drainRun n (drop ((d.spWr b r.off bytes).count b c |>.setTags slots true)) b

/-- The drain rows that a finished row i of a record adds. -/
def drainsOf (w : List W64) (run i re im : Nat) : List DrainRow :=
  if lrDrainFmt w = 0 then [] else
  let idx := recElemOff w + i * lrDestRow w
  { words := w, acc := i, off := lrDrainAddr w re, index := idx, tensor := recTensor w, wait := none, run := run } ::
    (if lrComplex w then [{ words := w, acc := 64 + i, off := lrDrainAddr w im, index := idx, tensor := recTensor w + 1,
                            wait := none, run := run }] else [])

/-- A row takes its place among those that wait: behind every earlier record's, and in its own record's order of accumulator
rows (03 R85). -/
def drainInsert (x : DrainRow) : List DrainRow → List DrainRow
  | [] => [x]
  | y :: t => if x.run < y.run || (x.run = y.run && x.acc < y.acc) then x :: y :: t else y :: drainInsert x t

/-! ### Loads (03 R81, R82; 04 R121, R131, R132) -/

/-- Read a chunk's values, scales and codes into a file, or name the uncorrectable word and the port that met it. -/
def laneRead (d : Dev) (b : Nat) (it : Item) (c file mask : Nat) : Dev × Option (Nat × Nat) :=
  let w := it.words
  let h := codeHead d b it
  match d.badRanges b (lrLoadRanges w c mask), d.badRanges b (lrCodeRanges h w c) with
  | some a, _ => (d, some (a, 1))
  | none, some a => (d, some (a, 4))
  | none, none =>
    (lrLoad (d.correctReads b (lrLoadRanges w c mask ++ lrCodeRanges h w c)) b h w c file mask, none)

/-- The windows of chunk c that a load brings in: those of the paired tile's mask, less those a STAT_REUSE record finds in its
file; a first chunk takes every window (04 R131, R132; log entry 75). `i` is the chunk's place among those ahead. -/
def loadMask (l : LaneSt) (r : LaneRun) (c i : Nat) : Nat :=
  let w := r.item.words
  let mask := if lrSparse w = 2 then l.chunkMasks.getD i (lrAll w) else lrAll w
  if lrReuse w then mask &&& (laneHeld l r.file ^^^ (2 ^ 16 - 1)) else if c = 0 then lrAll w else mask

/-- Load the current chunk, unless its file holds what it needs. -/
def laneLoad (d : Dev) (b : Nat) (r : LaneRun) : Dev :=
  let mask := loadMask (d.bn b).lane r r.chunk 0
  if lrReuse r.item.words && mask = 0 then lanePut d b { r with loaded := true }
  else match laneRead d b r.item r.chunk r.file mask with
  | (d, some (a, port)) => laneStop (d.spUncorrectable b port (recId r.item.words) a) b
  | (d, none) => lanePut d b { r with loaded := true }

/-- The header of a record's code block is read when the record is taken: its word 0 stays with the record. An uncorrectable
word there is the answer. -/
def laneTakeHead (d : Dev) (b : Nat) (it : Item) : Dev × Except Nat Item :=
  let w := it.words
  if lrSparse w ≠ 1 || it.shapes.any (fun p => p.1 = headKey) then (d, .ok it)
  else match d.badRanges b [(lrCode w, 8)] with
  | some a => (d, .error a)
  | none => (d.correctReads b [(lrCode w, 8)], .ok { it with shapes := it.shapes ++ [(headKey, [codeHead d b it])] })

/-- Take the record at the head of the queue out of it, refused. -/
def lanePop (d : Dev) (b : Nat) : Dev := d.onLane b (fun l => { l with queue := l.queue.drop 1, pre := none })

/-- Load ahead into the other file: the next chunk, or in the last chunk the next record's first one, once that record is
known and passes its checks (03 R81). -/
def laneAhead (d : Dev) (b : Nat) (r : LaneRun) : Dev :=
  let l := (d.bn b).lane
  if r.ahead then d
  else if r.chunk + 1 < lrChunks r.item.words then
    match laneRead d b r.item (r.chunk + 1) (1 - r.file) (loadMask l r (r.chunk + 1) 1) with
    | (d, some (a, port)) => laneStop (d.spUncorrectable b port (recId r.item.words) a) b
    | (d, none) => lanePut d b { r with ahead := true }
  else match l.queue with
  | [] => d
  | it :: _ =>
    if lrReuse it.words then d
    else match laneTakeHead d b it with
    | (d, .error a) => (lanePop d b).spUncorrectable b 4 (recId it.words) a
    | (d, .ok it') =>
      if (lrCheck d b true (codeHead d b it') it'.words).isSome then d
      else match laneRead d b it' 0 (1 - r.file) (lrAll it'.words) with
      | (d, some (a, port)) => (lanePop d b).spUncorrectable b port (recId it.words) a
      | (d, none) => (lanePut d b { r with ahead := true }).onLane b (fun l => { l with pre := some it' })

/-! ### Start and end -/

/-- The awl's first COMPACT record in its queue or in progress (04 R130). -/
def oldestCompact (x : Bench) : Option Item :=
  let l := (match x.awl.cur with | some r => [r.item] | none => []) ++ x.awl.queue
  l.find? (fun i => recType i.words = 0x20)

/-- A COMPACTED record and its COMPACT record agree (04 R130). -/
def compactAgrees (d : Dev) (b : Nat) (w : List W64) (c : Item) : Bool :=
  let s := itemShape d b c 0 (awSrc c.words)
  awRows c.words = lrRows w && awChunks c.words = lrChunks w &&
  awWindows c.words = lrKc w / 128 && s.fmt = lrSFmt w && s.mx == lrSMx w

/-- A record begins: it becomes the predecessor of the next, and issues from the file that is free, or with STAT_REUSE from its
predecessor's (03 R81, R83, R92). A batch waits for its first row under its slots' tags (03 R96). -/
def laneBegin (d : Dev) (b : Nat) (it : Item) (rest : List Item) : Dev :=
  let w := it.words
  let l := (d.bn b).lane
  let run : LaneRun :=
    { item := it, rows := if lrBatch w then 0 else lrRows w, closed := !lrBatch w, sPos := l.sRing
      dPos := l.dRing, chunk := 0, row := 0, file := if lrReuse w then l.lastFile else 1 - l.lastFile
      loaded := l.pre.isSome, winMask := 0, wait := none }
  let d := d.onLane b (fun l => { l with queue := rest, cur := some run, pred := some w, starts := l.starts + 1, pre := none })
  noteNeed (if run.closed then d else laneWait d b run (run.slots d b 0)) b

/-- Start the next record: its header, its checks, its leave, its run (03 R91, 18 R487). -/
def laneStart (d : Dev) (b : Nat) : Dev :=
  let l := (d.bn b).lane
  if d.js ≠ jsRunning then d else
  match l.cur, l.queue with
  | none, it :: rest =>
    match laneTakeHead d b (match l.pre with | some p => p | none => it) with
    | (d, .error a) => (lanePop d b).spUncorrectable b 4 (recId it.words) a
    | (d, .ok it) =>
      match lrCheck d b true (codeHead d b it) it.words with
      | some _ => seqFault (lanePop d b) b (recId it.words) 0
      | none =>
        if !leaveOk d b (leaveUnits d (lrLeave it.words)) then d.addCycles (Reg.BENCH_LEAVE_LEAVE_WAIT_CYCLES b)
        else laneBegin d b it rest
  | _, _ => d

/-- The record in progress ends; a batch that drains moves the drain ring by the accumulator rows it drains (03 R94,
R102). -/
def laneFinish (d : Dev) (b : Nat) (r : LaneRun) : Dev :=
  let w := r.item.words
  let d := d.onLane b (fun l =>
    let l := { l with cur := none, lastFile := r.file }
    if lrBatch w && lrDrainFmt w ≠ 0 then
      { l with dRing := (r.dPos + (if lrComplex w then 2 else 1) * r.rows) % 2 ^ lrDRing w }
    else l)
  (d.addCycles (Reg.LR_COUNT0_LOAD_BUBBLES b)).addCycles (Reg.LR_COUNT0_STREAM_BUBBLES b)
    |>.addCycles (Reg.LR_COUNT1_DRAIN_BUBBLES b)

/-! ### Issue (03 R85, R86, R93; 04 R130) -/

/-- The packets of the row in issue: up to its ROW_END (04 R126). -/
def rowPackets (l : List Packet) : Option (List Packet × List Packet) :=
  match l.findIdx? (fun p => p.rowEnd) with
  | some i => some (l.take (i + 1), l.drop (i + 1))
  | none => none

/-- Behind the last row of a chunk: the next chunk, in the other file (03 R81). -/
def laneNextChunk (d : Dev) (b : Nat) (r : LaneRun) : Dev :=
  let final := r.chunk + 1 = lrChunks r.item.words
  let d := if lrSparse r.item.words = 2 then d.onLane b (fun l => { l with chunkMasks := l.chunkMasks.drop 1 }) else d
  lanePut d b { r with row := 0, chunk := r.chunk + 1, wait := none, file := if final then r.file else 1 - r.file
                       loaded := r.ahead, ahead := false }

/-- What a row reads of the scratchpad in a chunk: stream bytes, and their block scales through the stationary port (03 R90,
07 R212). -/
def rowReads (d : Dev) (b : Nat) (r : LaneRun) : List (Nat × Nat) × List (Nat × Nat) :=
  let w := r.item.words
  let pat := lrPattern (codeHead d b r.item)
  let i := r.pos r.row
  if lrSparse w = 2 then ([], [])
  else ((List.range (lrPlanes w)).map (fun p => (lrStreamAddr w i r.chunk p, lrStreamBytes pat w r.chunk)),
        lrStreamScales pat w i r.chunk)

/-- Issue one row of the current chunk with its packets `ps`: accumulate, and behind its last contribution consume its slots
and drain it (03 R83, R85, R93, R100). -/
def laneRow (d : Dev) (b : Nat) (r : LaneRun) (ps rest : List Packet) : Dev :=
  let w := r.item.words
  let i := r.row
  let reads := rowReads d b r
  let slots := r.slots d b i
  match d.badRanges b reads.1, d.badRanges b reads.2 with
  | some a, _ => laneStop (d.spUncorrectable b 0 (recId w) a) b
  | none, some a => laneStop (d.spUncorrectable b 1 (recId w) a) b
  | none, none =>
    let d := d.correctReads b (reads.1 ++ reads.2)
    let valid := ps.all (fun p => p.rowValid)
    let d := if valid then rowChunk d b (codeHead d b r.item) w r.file (r.pos i) i r.chunk ps else d
    let final := r.chunk + 1 = lrChunks w
    let d := if final && lrStreamFe w = 2 then d.setTags slots false else d
    let re := if lrBatch w then (r.dPos + i) % 2 ^ lrDRing w else i
    let im := if lrBatch w then (r.dPos + r.rows + i) % 2 ^ lrDRing w else 64 + i
    let more := if final && valid then drainsOf w (d.bn b).lane.starts i re im else []
    let d := d.onLane b (fun l => { l with packets := rest, drains := more.foldl (fun l x => drainInsert x l) l.drains })
    let d := drainRun 2 d b
    match (d.bn b).lane.cur with
    | none => d
    | some _ => if i + 1 < r.rows then lanePut d b { r with row := i + 1, wait := none } else laneNextChunk d b r

/-- One step of the record in progress, and whether it may take another: what holds it is the awl's packets, a batch still
open, a tag, or a row not yet drained. -/
def laneStep (d : Dev) (b : Nat) (r : LaneRun) : Dev × Bool :=
  let w := r.item.words
  if !r.closed then (d, false)
  else if lrChunks w ≤ r.chunk then (laneFinish d b r, false)
  else match if lrSparse w = 2 then rowPackets (d.bn b).lane.packets else some ([], (d.bn b).lane.packets) with
  | none => (d, false)
  | some (ps, rest) =>
    if !r.loaded then (laneLoad d b r, true)
    else
      let d := laneAhead d b r
      match (d.bn b).lane.cur with
      | none => (d, false)
      | some r =>
        if r.rows = 0 then (laneNextChunk d b r, true)
        else
          let slots := r.slots d b r.row
          match d.tagBad slots with
          | some k => (laneStop (d.tagUncorrectable b 0 (recId w) k) b, false)
          | none =>
            let d := d.tagFix slots
            if r.chunk = 0 && !d.tagsAre slots true then (laneWait d b r slots, false)
            else if (d.bn b).lane.drains.any (fun q => q.acc = r.row || (lrComplex w && q.acc = 64 + r.row)) then (d, false)
            else (laneRow d b r ps rest, true)

/-- Step the record in progress until it ends or something holds it. -/
def laneIssue : Nat → Dev → Nat → Dev
  | 0, d, _ => d
  | n + 1, d, b =>
    match (d.bn b).lane.cur with
    | none => d
    | some r => match laneStep d b r with
      | (d, true) => laneIssue n d b
      | (d, false) => d

/-- Pair a COMPACTED record with its COMPACT record; a disagreement refuses both as one schedule fault (04 R130). -/
def lanePair (d : Dev) (b : Nat) : Dev :=
  match (d.bn b).lane.cur with
  | some r =>
    if lrSparse r.item.words = 2 && r.chunk = 0 && r.row = 0 && (d.bn b).lane.chunkMasks.isEmpty then
      match oldestCompact (d.bn b) with
      | some c =>
        if compactAgrees d b r.item.words c then d
        else
          let d := laneStop d b
          let d := d.onBn b (fun x => { x with awl := match x.awl.cur with
            | some _ => { x.awl with cur := none }
            | none => { x.awl with queue := x.awl.queue.erase c } })
          seqFault d b (recId r.item.words) 0
      | none => d
    else d
  | none => d

/-- Steps that suffice for a record: its loads, its rows, its chunks. -/
def laneFuel (w : List W64) : Nat := lrChunks w * 131 + 4

/-- The lane row runs on as far as it can: start, meet, drain, issue. -/
def laneRun (d : Dev) (b : Nat) : Dev :=
  let d := drainRun 256 d b
  let d := laneStart d b
  let d := lanePair d b
  let d := match (d.bn b).lane.cur with
    | some r => match laneMeet d b with
      | (d, some port) => seqFault ((laneStop d b).conflict b port) b (recId r.item.words) 0
      | (d, none) => laneIssue (laneFuel r.item.words) d b
    | none => d
  drainRun 256 d b

/-! ### Batch mode (03 R94 to R98) -/

/-- Close an open batch. One closed with no row runs its chunks over none and ends: its wait for a first row is over. -/
def batchClose (d : Dev) (b : Nat) (r : LaneRun) (f : Fld) : Dev :=
  laneRun ((lanePut d b { r with closed := true, wait := none }).inc f) b

/-- A row of the batch is taken once every slot of it is full: the stream ring moves by one, and ROWS rows close the batch
(03 R94, R95). -/
def batchArrive (d : Dev) (b : Nat) : Dev :=
  let d := laneStart d b
  match (d.bn b).lane.cur with
  | some r =>
    let w := r.item.words
    let slots := r.slots d b r.rows
    if r.closed then d
    else match d.tagBad slots with
    | some k => laneStop (d.tagUncorrectable b 0 (recId w) k) b
    | none =>
      let d := d.tagFix slots
      if !d.tagsAre slots true then d
      else
        let r' := { r with rows := r.rows + 1, wait := none }
        let d := (lanePut d b r').onLane b (fun l => { l with sRing := (r.sPos + r'.rows) % 2 ^ lrSRing w })
        if r'.rows = lrRows w then batchClose d b r' (Reg.LR_COUNT1_BATCH_FULL b) else d
  | none => d

/-- The batch times out, or a pending pre-emption closes it (03 R95). -/
def batchTimeout (d : Dev) (b : Nat) (pending : Bool) : Dev :=
  match (d.bn b).lane.cur with
  | some r =>
    if r.closed || (r.rows = 0 && !pending) || (!pending && lrTimeout r.item.words = 0) then d
    else batchClose d b r (Reg.LR_COUNT1_BATCH_TIMEOUTS b)
  | none => d

end Sys2Proof.Machine
end

