-- ==== Sys2Proof/Machine/Engine.lean ====
section
/-! DEFINITION. How the awl, the last and the vector engine run a record: what it names is read, checks, leave, tagged ends,
the work, tag changes (04 R114, R150; 06 R182; 07 R222 to R225, R564; 18 R486, R487). -/

namespace Sys2Proof.Machine

/-- What a record of engine `e` names and reads at its start: by operand number, the offset and the count of words of its
shape records, of an index operand's table shape, of a VECTOR record's program (06 R182, 02 R567). -/
def engNames (e : Nat) (d : Dev) (b : Nat) (it : Item) : List (Nat × Nat × Nat) :=
  let w := it.words
  let shape (k off : Nat) : Nat × Nat × Nat := (k, off, 16)
  if e = 1 then [shape 0 (trSrc w), shape 1 (trDst w)]
  else if e = 2 then
    (List.range (veIns w)).map (fun i => shape i (veIn w i)) ++ (List.range (veOuts w)).map (fun i => shape (4 + i) (veOut w i)) ++
      [(progKey, veProg w, veSteps w)]
  else if recType w = 0x38 then
    if rtMode w = 0 then
      [shape 0 (rtSel w), shape 1 (rtGate w), shape 2 (rtAssign w), shape 3 (rtWeight w), shape 4 (rtDindex w),
       shape 5 (rtRowWeight w), shape 6 (d.shapeAt b (rtDindex w)).table]
    else [shape 2 (rtAssign w)]
  else
    let t := awType w
    [shape 0 (awSrc w)] ++ (if (awKind w = 1 && t ≤ 0x21) || 0x23 ≤ t then [shape 1 (awAux w)] else []) ++
      (if t ≠ 0x20 then [shape 2 (awDst w)] else []) ++ (if 0x25 ≤ t then [shape 3 (awAux2 w)] else [])

/-- The record with the words that it names: those that lie in the scratchpad and that it does not carry already. -/
def engLatch (e : Nat) (d : Dev) (b : Nat) (it : Item) : List (Nat × Nat) × Item :=
  let names := (engNames e d b it).filter (fun n => decide (n.2.1 + 8 * n.2.2 ≤ spSize) && !it.shapes.any (fun p => p.1 = n.1))
  (names.map (fun n => (n.2.1, 8 * n.2.2)),
   { it with shapes := it.shapes ++ names.map (fun n => (n.1, d.spWords b n.2.1 n.2.2)) })

/-- Take the next record: what it names is read, and its checks decide. One that fails is refused as a schedule fault (04 R150);
an uncorrectable word stops it (07 R218). -/
def engStart (e : Nat) (d : Dev) (b : Nat) : Dev :=
  let s := (d.bn b).eng e
  match s.cur, s.queue with
  | none, it :: rest =>
    if d.js ≠ jsRunning || (e = 2 && (d.bn b).last.cur.isSome) then d
    else
      let (reads, it) := engLatch e d b it
      let id := recId it.words
      let pop (d : Dev) : Dev := d.onEng b e (fun s => { s with queue := rest })
      match d.badRanges b reads with
      | some a => (pop d).spUncorrectable b (engPort e it.words) id a
      | none =>
        let d := d.correctReads b reads
        match enginePlan e d b it with
        | .error _ => seqFault (pop d) b id 0
        | .ok _ => d.onEng b e (fun s => { s with queue := rest, cur := some ⟨it, 0, none⟩ })
  | _, _ => d

/-- Advance the record in progress from `phase`, when it stands there. -/
def engAt (e phase : Nat) (d : Dev) (b : Nat) (f : EngRun → Dev) : Dev :=
  match ((d.bn b).eng e).cur with
  | some r => if r.phase = phase then f r else d
  | none => d

/-- Move the record in progress on to `phase`. -/
def engPhase (e phase : Nat) (d : Dev) (b : Nat) : Dev :=
  d.onEng b e (fun s => { s with cur := s.cur.map (fun r => { r with phase := phase, wait := none }) })

/-- Hold leave before starting (18 R487). -/
def engLeaveStep (e : Nat) (d : Dev) (b : Nat) : Dev :=
  engAt e 0 d b (fun r =>
    if leaveOk d b (leaveUnits d (engLeave r.item.words)) then noteNeed (engPhase e 1 d b) b
    else d.addCycles (Reg.BENCH_LEAVE_LEAVE_WAIT_CYCLES b))

/-- One tagged end of the record (07 R223, R564). -/
def engTags (e phase : Nat) (slots : List Nat) (full : Bool) (d : Dev) (b : Nat) (r : EngRun) : Dev :=
  match d.tagBad slots with
  | some k => engDrop (d.tagUncorrectable b (engPort e r.item.words) (recId r.item.words) k) b e
  | none =>
    let d := d.tagFix slots
    if d.tagsAre slots full then engPhase e phase d b
    else match r.wait with
    | some _ => d
    | none => (d.onEng b e (fun s => { s with cur := some { r with wait := some ⟨slots, full, d.countedBeats⟩ } }))
        |>.addCycles (Reg.SP_TAG_TAG_WAIT_CYCLES b)

/-- The errors of the words that a record reads, and of those that it writes only in part, before its work: the port and the
address of an uncorrectable one, else the single-bit errors corrected (07 R218, R219). A record that meets them itself, tile by
tile, is left to do so (06 R209). -/
def engErrors (e : Nat) (w : List W64) (p : Plan) (d : Dev) (b : Nat) : Dev × Option (Nat × Nat) :=
  if p.own then (d, none)
  else match d.badRanges b p.tableReads, d.badRanges b p.reads, d.badWriteRanges b p.tableWrites, d.badWriteRanges b p.writes with
  | some a, _, _, _ => (d, some (4, a))
  | _, some a, _, _ => (d, some (engPort e w, a))
  | _, _, some a, _ => (d.correctReads b (p.tableReads ++ p.reads), some (4, a))
  | _, _, _, some a => (d.correctReads b (p.tableReads ++ p.reads), some (engPort e w, a))
  | none, none, none, none =>
    ((d.correctReads b (p.tableReads ++ p.reads)).correctParts b (p.tableWrites ++ p.writes), none)

/-- Do the work and make the tag changes (07 R223). -/
def engWork (e : Nat) (p : Plan) (d : Dev) (b : Nat) (r : EngRun) : Dev :=
  let w := r.item.words
  let id := recId w
  match engMeet e w p d b with
  | (d, some port) => seqFault ((engDrop d b e).conflict b port) b id 0
  | (d, none) =>
    match engErrors e w p d b with
    | (d, some (port, a)) => engDrop (d.spUncorrectable b port id a) b e
    | (d, none) =>
      match p.run d with
      | (d, some .schedule) => seqFault (engDrop d b e) b id 0
      | (d, some (.uncorrectable a)) => engDrop (d.spUncorrectable b (engPort e w) id a) b e
      | (d, none) =>
        let d := if p.srcFe = 2 then d.setTags (rangeSlots b p.src) false else d
        let d := if p.dstFe = 1 then d.setTags (rangeSlots b p.dst) true else d
        engDrop d b e

/-- Run the engine as far as it can. What the record named stays as it was read; a table that has changed so that the record no
longer passes its checks refuses it. -/
def engRun (e : Nat) (d : Dev) (b : Nat) : Dev :=
  let d := engStart e d b
  match ((d.bn b).eng e).cur with
  | some r =>
    match enginePlan e d b r.item with
    | .error _ => seqFault (engDrop d b e) b (recId r.item.words) 0
    | .ok p =>
      let d := engLeaveStep e d b
      let d := engAt e 1 d b (engTags e 2 (if p.srcFe = 0 then [] else rangeSlots b p.src) true d b)
      let d := engAt e 2 d b (engTags e 3 (if p.dstFe = 0 then [] else rangeSlots b p.dst) false d b)
      engAt e 3 d b (engWork e p d b)
  | none => d

/-- The lane row has a COMPACTED record in progress that no packets have reached (04 R130). -/
def laneAwaits (d : Dev) (b : Nat) : Bool :=
  match (d.bn b).lane.cur with
  | some r => lrSparse r.item.words = 2 && r.chunk = 0 && r.row = 0 && (d.bn b).lane.chunkMasks.isEmpty
  | none => false

/-- Run COMPACT, once the awl has reached it: paired, its packets pass to the lane row, which goes on with them (04 R130,
R133). -/
def compactGo (d : Dev) (b : Nat) : Dev :=
  let d := lanePair (laneStart d b) b
  if laneAwaits d b && engType d b 0 = 0x20 then laneRun (engRun 0 d b) b else d

end Sys2Proof.Machine
end

