-- ==== Sys2Proof/Machine/Ragged.lean ====
section
/-! DEFINITION. The ragged loop at work: its issues, the zeros of empty groups, its tail pass (05 R169 to R175). -/

namespace Sys2Proof.Machine

/-- The runs of an empty group's drain extent (05 R173). -/
def ragExtent (w : List W64) : List (Nat × Nat) := (List.range (lrRows w)).map (lrDrainRange w)

/-- The list of a bench is stopped where an uncorrectable word was met (17 R470). -/
def seqStop (d : Dev) (b : Nat) : Dev := d.onBn b (fun x => { x with seq := .faulted, raggedSt := none, raggedWait := none })

/-- +0 over the drain extent of an empty group, through the vector engine's port (05 R173): none when a meeting under STRICT or
an uncorrectable word of which a write would cover only a part stops the loop. -/
def ragZero (d : Dev) (b recordId : Nat) (w : List W64) : Dev × Bool :=
  let l := ragExtent w
  match d.meet b [portUse .loop 5 [] l] with
  | (d, some port) => (seqFault (d.conflict b port) b recordId 0, false)
  | (d, none) =>
    match d.badWriteRanges b l with
    | some a => ((seqStop d b).spUncorrectable b 5 recordId a, false)
    | none => (l.foldl (fun d r => d.spWr b r.1 (List.replicate r.2 0)) (d.correctParts b l), true)

/-- Put an item into an engine's queue. -/
def enqueue (d : Dev) (b q : Nat) (it : Item) : Dev :=
  if q = 0 then d.onBn b (fun x => { x with lane := { x.lane with queue := x.lane.queue ++ [it] } })
  else d.onEng b (q - 1) (fun s => { s with queue := s.queue ++ [it] })

/-- Records in an engine's queue: 0 lane row, 1 awl, 2 last, 3 vector engine. -/
def queueLen (d : Dev) (b q : Nat) : Nat :=
  if q = 0 then (d.bn b).lane.queue.length else ((d.bn b).eng (q - 1)).queue.length

/-- Make the loop's issues as far as the queues take them; after the last one the sequencer reads on (05 R171). -/
def ragIssue : Nat → Dev → Nat → Dev
  | 0, d, _ => d
  | n + 1, d, b =>
    match (d.bn b).raggedSt with
    | none => d
    | some r =>
      match r.todo with
      | [] => d.onBn b (fun x => { x with raggedSt := none, seq := .running })
      | (q, it) :: rest =>
        let put (d : Dev) (r : Ragged) : Dev := d.onBn b (fun x => { x with raggedSt := some r })
        if q = 2 then
          if it.fits && rangesInSp (ragExtent it.words) then
            match ragZero d b (ragId r.words) it.words with
            | (d, true) => ragIssue n (put d { r with todo := rest }) b
            | (d, false) => d
          else seqFault d b (ragId r.words) 0
        else if 8 ≤ queueLen d b q then d
        else match issueCheck d b q it with
          | some _ => seqFault d b (recId it.words) 0
          | none =>
            let budget := fld (wd r.words 0) 42 19
            let lane := q = 0
            let past := lane && budget ≠ 0 && r.issued = budget && !r.noticed
            let d := if past then
                let left := r.todo.filter (fun p => p.1 = 0)
                let cyc := (left.map (fun p => recordTime (codeHead d b p.2) p.2.words)).foldl (· + ·) 0
                d.overrun b (ceilDiv cyc 3000) (ragId r.words)
              else d
            ragIssue n (put (enqueue d b q it)
              { r with todo := rest, issued := r.issued + b2n lane, noticed := r.noticed || past }) b

/-- Begin the loop: its checks, its group-table wait, its issues (05 R171, R172). -/
def ragStart (d : Dev) (b : Nat) (w : List W64) : Dev :=
  match ragCheck d b w with
  | some _ => seqFault d b (ragId w) 0
  | none =>
    let gt := (fld (wd w 1) 40 18, 8 * fld (wd w 0) 55 47)
    let fe := fld (wd w 0) 18 17
    let slots := if fe = 0 then [] else slotRun b gt.1 gt.2
    match d.tagBad slots with
    | some k => (seqStop d b).tagUncorrectable b 4 (ragId w) k
    | none =>
      let d := d.tagFix slots
      if !d.tagsAre slots true then
        match (d.bn b).raggedWait with
        | some _ => d
        | none => (d.onBn b (fun x => { x with raggedWait := some ⟨slots, true, d.countedBeats⟩ }))
            |>.addCycles (Reg.SP_TAG_TAG_WAIT_CYCLES b)
      else match d.badRanges b (ragReads d b w) with
      | some a => (seqStop d b).spUncorrectable b 4 (ragId w) a
      | none =>
        let d := d.correctReads b (ragReads d b w)
        let d := if fe = 2 then d.setTags slots false else d
        let todo := ((ragTable d b w).zipIdx).flatMap (fun p =>
          (ragTemplates d b w).flatMap (ragIssues d b w p.2 p.1.1 p.1.2))
        d.onBn b (fun x => { x with raggedWait := none, raggedSt := some ⟨w, todo, 0, false⟩ })

/-- Run a ragged loop as far as it goes. -/
def raggedRun (d : Dev) (b : Nat) : Dev :=
  match (d.bn b).seq with
  | .ragged w =>
    let d := match (d.bn b).raggedSt with
      | none => ragStart d b w
      | some _ => d
    ragIssue (((d.bn b).raggedSt.map (fun r => r.todo.length)).getD 0 + 1) d b
  | _ => d

end Sys2Proof.Machine
end

