-- ==== Sys2Proof/Machine/Dma.lean ====
section
/-! DEFINITION. DMA channels: descriptors, their two streams, checks, bursts, progress, stops, tallies (09 R261 to R290;
12 R336). -/

namespace Sys2Proof.Machine

/-! ### The descriptor (09 R265) -/

abbrev dmForm (w : List W64) : Nat := fld (wd w 0) 55 54
abbrev dmSrcFe (w : List W64) : Nat := fld (wd w 0) 53 52
abbrev dmDstFe (w : List W64) : Nat := fld (wd w 0) 51 50
abbrev dmSrcSp (w : List W64) : Nat := fld (wd w 0) 49 47
abbrev dmDstSp (w : List W64) : Nat := fld (wd w 0) 46 44
abbrev dmOp (w : List W64) : Nat := fld (wd w 0) 43 42
abbrev dmFmt (w : List W64) : Nat := fld (wd w 0) 41 41
abbrev dmTally (w : List W64) : Bool := bit (wd w 0) 40
abbrev dmRate (w : List W64) : Nat := fld (wd w 0) 39 34
abbrev dmChan (w : List W64) : Nat := fld (wd w 0) 33 29
abbrev dmWait (w : List W64) : Bool := bit (wd w 0) 28
abbrev dmArrive (w : List W64) : Bool := bit (wd w 0) 27
abbrev dmFence (w : List W64) : Nat := fld (wd w 0) 26 11
abbrev dmLimAct (w : List W64) : Nat := fld (wd w 0) 10 9
abbrev dmPlus (w : List W64) : Bool := bit (wd w 0) 8
abbrev dmRed (w : List W64) : Nat := fld (wd w 0) 7 0
abbrev dmSrc (w : List W64) : Nat := fld (wd w 1) 47 0
abbrev dmDst (w : List W64) : Nat := fld (wd w 2) 47 0
abbrev dmId (w : List W64) : Nat := fld (wd w 6) 63 48
abbrev dmTallyBase (w : List W64) : Nat := fld (wd w 6) 47 16
abbrev dmSrcWrap (w : List W64) : Nat := fld (wd w 3) 63 58
abbrev dmDstWrap (w : List W64) : Nat := fld (wd w 3) 57 52
abbrev dmBytes (w : List W64) : Nat := fld (wd w 3) 39 0
abbrev dmLimit (w : List W64) : Nat := if dmForm w = 1 then fld (wd w 4) 47 0 else 0
abbrev dmReport (w : List W64) : Nat := if dmForm w = 1 then fld (wd w 5) 47 0 else 0

/-- Spaces (09 R266). -/
abbrev spJob : Nat := 0
abbrev spLocal : Nat := 1
abbrev spRemote : Nat := 2
abbrev spPhys : Nat := 3
abbrev spLog : Nat := 4

/-- ORIGIN of dimension i (09 R276). -/
def dmOrigin (w : List W64) (i : Nat) : Int :=
  if i < 4 then signed 16 (fld (wd w 3) (63 - 16 * i) (48 - 16 * i)) else signed 16 (fld (wd w 4) (127 - 16 * i) (112 - 16 * i))

/-- The box of destination elements a SHAPE copy writes, and the source coordinate less the destination's (09 R277). -/
structure Box where
  lo : List Nat
  len : List Nat
  delta : List Int
  deriving DecidableEq, Repr

/-- The box of a SHAPE descriptor. -/
def dmBox (w : List W64) (s t : Shape) : Box :=
  let dims := List.range t.rank
  if bit (wd w 4) 0 then
    let lo := dims.map (fun i => (max 0 (dmOrigin w i)).toNat)
    let hi := dims.map (fun i => (min (t.e i : Int) ((s.e i : Int) + dmOrigin w i)).toNat)
    ⟨lo, List.zipWith (fun h l => h - l) hi lo, dims.map (fun i => - dmOrigin w i)⟩
  else ⟨dims.map (fun _ => 0), t.exts, dims.map (dmOrigin w)⟩

/-- Bytes of one row of the box, and the byte of the row at which it begins. -/
def Box.rowAt (b : Box) (wb : Nat) : Nat × Nat :=
  let l := b.lo.headD 0 * wb
  let h := (b.lo.headD 0 + b.len.headD 0) * wb
  if b.len.headD 0 = 0 then (0, 0) else (l / 8, ceilDiv h 8 - l / 8)

/-- Rows of the box. -/
def Box.rows (b : Box) : Nat := (b.len.drop 1).foldl (· * ·) 1

/-- The outer destination coordinates of row i of the box. -/
def Box.outer (b : Box) (i : Nat) : List Nat := List.zipWith (· + ·) (coordsOf (b.len.drop 1) i) (b.lo.drop 1)

/-- The source coordinates of destination coordinates; none out of bounds. -/
def Box.src (delta : List Int) (exts : List Nat) (y : List Nat) : Option (List Nat) :=
  let x := List.zipWith (fun (a : Nat) (o : Int) => (a : Int) + o) y delta
  if (List.zipWith (fun (a : Int) (e : Nat) => decide (0 ≤ a) && decide (a < (e : Int))) x exts).all id then
    some (x.map Int.toNat)
  else none

/-- The space in which one end's bytes lie: a SHAPE descriptor's are where its shape records say (06 R185, 09 R276). -/
def endSpace (w : List W64) (dst : Bool) (x : Shape) : Nat :=
  if dmForm w = 2 then (if x.loc then spLocal else spJob) else if dst then dmDstSp w else dmSrcSp w

/-- The source shape and the destination shape of a descriptor in progress. -/
def ChanRun.s (r : ChanRun) : Shape := Shape.ofWords r.shapeS
def ChanRun.t (r : ChanRun) : Shape := Shape.ofWords r.shapeD

/-- Bytes of the element rows of a SHAPE stream, and of the scales behind them (09 R277). -/
def shapeStream (w : List W64) (s t : Shape) : Nat × Nat :=
  let b := dmBox w s t
  (b.rows * (b.rowAt t.w).2, if t.mx then b.rows * (b.len.headD 0 / 32) else 0)

/-- The stream length; none for an endless stream (09 R267, R272, R277). -/
def streamLen (w : List W64) (s t : Shape) : Option Nat :=
  match dmForm w with
  | 0 => some (fld (wd w 4) 63 40 * fld (wd w 5) 39 16)
  | 1 => if dmBytes w = 0 then none else some (dmBytes w)
  | _ => let (a, b) := shapeStream w s t; some (a + b)

/-- The spaces of a descriptor in progress. -/
def ChanRun.srcSp (r : ChanRun) : Nat := endSpace r.words false r.s
def ChanRun.dstSp (r : ChanRun) : Nat := endSpace r.words true r.t

/-- The stream length of a descriptor in progress. -/
def ChanRun.total (r : ChanRun) : Option Nat := streamLen r.words r.s r.t

/-- An address in a ring or on a line (09 R271). -/
def ringAt (a wrap k : Nat) : Nat := if wrap = 0 then a + k else a / 2 ^ wrap * 2 ^ wrap + (a + k) % 2 ^ wrap

/-- Where destination stream byte `k` lies, and the bytes from it to the end of its line (09 R267, R271, R277). -/
def dstAt (r : ChanRun) (k : Nat) : Nat × Nat :=
  let w := r.words
  match dmForm w with
  | 0 => let l := fld (wd w 4) 63 40; (dmDst w + k / l * fld (wd w 4) 39 0 + k % l, l - k % l)
  | 1 => (ringAt (dmDst w) (dmDstWrap w) k, 512)
  | _ =>
    let t := r.t
    let b := dmBox w r.s t
    let (off, n) := b.rowAt t.w
    let body := b.rows * n
    if k < body then (t.rowAddr (b.outer (k / n)) + off + k % n, n - k % n)
    else
      let m := b.len.headD 0 / 32
      let q := k - body
      (t.scaleBase + t.scaleIndex (b.lo.headD 0 :: b.outer (q / m)) + q % m, m - q % m)

/-- Where source stream byte `k` lies, for TWO_D and CIRCULAR; the log ring's bytes are counted along the stream. -/
def srcAt (w : List W64) (k : Nat) : Nat :=
  match dmForm w with
  | 0 => let l := fld (wd w 3) 63 40; dmSrc w + k / l * fld (wd w 3) 39 0 + k % l
  | _ => if dmSrcSp w = spLog then k else ringAt (dmSrc w) (dmSrcWrap w) k

/-- Bytes to the next 512 B boundary. -/
def toSlot (a : Nat) : Nat := 512 - a % 512

/-- The write burst that begins at stream byte `k` (09 R268). -/
def burstLen (r : ChanRun) (k : Nat) : Nat :=
  let (a, n) := dstAt r k
  let l := min n (toSlot a)
  match r.total with
  | some t => min l (t - k)
  | none => l

/-- The write burst that ends before stream byte `e`: its start (for copies taken in descending order, 09 R270). -/
def burstBefore (r : ChanRun) (e : Nat) : Nat :=
  let l := fld (wd r.words 4) 63 40
  let (a, _) := dstAt r (e - 1)
  let inLine := match dmForm r.words with
    | 0 => (e - 1) % l
    | 2 =>
      let n := ((dmBox r.words r.s r.t).rowAt r.t.w).2
      let body := (dmBox r.words r.s r.t).rows * n
      if e - 1 < body then (e - 1) % n else (e - 1 - body) % ((dmBox r.words r.s r.t).len.headD 0 / 32)
    | _ => e - 1
  e - 1 - min inLine (a % 512)

/-- The source elements behind destination bytes [k, k + n) of a row: first element and count. -/
def elemSpan (wb off n : Nat) : Nat × Nat := (off * 8 / wb, ceilDiv ((off + n) * 8) wb - off * 8 / wb)

/-- What a burst of a SHAPE copy takes: destination row, first element, count, whether scales, and the in-bounds source
row with its element shift. -/
structure ShapeBurst where
  outer : List Nat
  scales : Bool
  /-- First byte of the burst within its row or its scale row. -/
  off : Nat
  src : Option (List Nat)
  deriving DecidableEq, Repr

/-- The SHAPE view of a burst. -/
def shapeBurst (r : ChanRun) (k : Nat) : ShapeBurst :=
  let s := r.s
  let t := r.t
  let b := dmBox r.words s t
  let (off, n) := b.rowAt t.w
  let body := b.rows * n
  let m := b.len.headD 0 / 32
  let i := if k < body then k / n else (k - body) / m
  let outer := b.outer i
  let src := Box.src (b.delta.drop 1) (s.exts.drop 1) outer
  if k < body then ⟨outer, false, off + k % n, src⟩ else ⟨outer, true, (k - body) % m + b.lo.headD 0 / 32, src⟩

/-- In-bounds source elements behind destination elements [e, e + n): the first source element and the count. -/
def srcElems (s : Shape) (d0 : Int) (e n : Nat) : Nat × Nat :=
  let lo := max 0 ((e : Int) + d0)
  let hi := min (s.e 0 : Int) ((e + n : Nat) + d0)
  if hi ≤ lo then (0, 0) else (lo.toNat, (hi - lo).toNat)

/-- The row of the stream a SHAPE burst belongs to: element rows first, then scale rows. -/
def shapeRow (r : ChanRun) (k : Nat) : Nat :=
  let b := dmBox r.words r.s r.t
  let n := (b.rowAt r.t.w).2
  let body := b.rows * n
  if k < body then k / n else b.rows + (k - body) / (b.len.headD 0 / 32)

/-- The source line of a row of a SHAPE stream: the bytes of the row's in-bounds elements, from the first to the last, or of
its in-bounds scales (09 R268, R277). -/
def shapeLine (r : ChanRun) (i : Nat) : Nat × Nat :=
  let s := r.s
  let b := dmBox r.words s r.t
  let d0 := b.delta.headD 0
  match Box.src (b.delta.drop 1) (s.exts.drop 1) (b.outer (i % max 1 b.rows)) with
  | none => (0, 0)
  | some o =>
    if i < b.rows then
      let (x, m) := srcElems s d0 (b.lo.headD 0) (b.len.headD 0)
      (s.rowAddr o + x * s.w / 8, if m = 0 then 0 else ceilDiv ((x + m) * s.w) 8 - x * s.w / 8)
    else
      let (x, m) := srcElems { s with ext := [s.e 0 / 32] } (d0 / 32) (b.lo.headD 0 / 32) (b.len.headD 0 / 32)
      (s.scaleBase + s.scaleIndex (0 :: o) + x, m)

/-- The source bytes of a SHAPE burst, as a run of its row's source line: where it begins in the line, and how many. -/
def shapeNeed (r : ChanRun) (k n : Nat) : Nat × Nat :=
  let s := r.s
  let v := shapeBurst r k
  let d0 := (dmBox r.words s r.t).delta.headD 0
  match v.src with
  | none => (0, 0)
  | some o =>
    let line := (shapeLine r (shapeRow r k)).1
    if v.scales then
      let (x, m) := srcElems { s with ext := [s.e 0 / 32] } (d0 / 32) v.off n
      (s.scaleBase + s.scaleIndex (0 :: o) + x - line, m)
    else
      let (e, c) := elemSpan s.w v.off n
      let (x, m) := srcElems s d0 e c
      if m = 0 then (0, 0) else (s.rowAddr o + x * s.w / 8 - line, ceilDiv ((x + m) * s.w) 8 - x * s.w / 8)

/-- The source bytes of a write burst, counted along the source: along the stream, or row × 2^32 + byte of the row's line. -/
def srcNeed (r : ChanRun) (pos len : Nat) : Nat × Nat :=
  if dmForm r.words = 2 then
    let (o, n) := shapeNeed r pos len
    (shapeRow r pos * 2 ^ 32 + o, n)
  else (pos, len)

/-- The read burst that holds source byte `k`: its first byte, its length, its address. Read bursts are cut by the source's
lines and its 512 B boundaries alone, and at the limit up to which the stream may be moved (09 R268, R273). -/
def readGeom (r : ChanRun) (limit : Option Nat) (k : Nat) : Nat × Nat × Nat :=
  let w := r.words
  -- the line: its bytes before `k`, its bytes from `k`, the address of `k`
  let (before, after, a) : Nat × Nat × Nat := match dmForm w with
    | 2 =>
      let (b, n) := shapeLine r (k / 2 ^ 32)
      let o := k % 2 ^ 32
      (o, n - o, b + o)
    | 0 => let l := fld (wd w 3) 63 40; (k % l, l - k % l, srcAt w k)
    | _ => (k, (match r.total with | some t => t - k | none => 512), srcAt w k)
  let unit := if dmSrcSp w = spLog then 64 else 512
  let back := min before (a % unit)
  let n := back + min after (unit - a % unit)
  let n := match limit with | some l => if dmForm w = 1 then min n (l - (k - back)) else n | none => n
  (k - back, n, a - back)

/-- The bytes of a SHAPE burst from its source bytes: FILL out of bounds, and destination elements outside the box as they
stand (09 R268, R277). -/
def shapeBytes (r : ChanRun) (k n : Nat) (l : List Byte) (old : List Byte) : List Byte :=
  let s := r.s
  let t := r.t
  let b := dmBox r.words s t
  let v := shapeBurst r k
  let d0 := b.delta.headD 0
  if v.scales then
    let (x, m) := match v.src with
      | some _ => srcElems { s with ext := [s.e 0 / 32] } (d0 / 32) v.off n
      | none => (0, 0)
    (List.range n).map (fun i =>
      let y : Int := ((v.off + i : Nat) : Int) + d0 / 32
      if m ≠ 0 ∧ (x : Int) ≤ y ∧ y < ((x + m : Nat) : Int) then l.getD (y.toNat - x) 0 else 0x7F)
  else
    let (e, c) := elemSpan t.w v.off n
    let (x, m) := match v.src with | some _ => srcElems s d0 e c | none => (0, 0)
    let srcBits := ofLe l / 2 ^ (x * s.w % 8)
    let base := e * t.w - (e * t.w) % 8
    let oldBits := ofLe old * 2 ^ (v.off * 8 - base)
    let elems := (List.range c).map (fun i =>
      let y := e + i
      if y < b.lo.headD 0 || b.lo.headD 0 + b.len.headD 0 ≤ y then oldBits / 2 ^ (y * t.w - base) % 2 ^ t.w
      else
        let z : Int := (y : Int) + d0
        if m ≠ 0 ∧ (x : Int) ≤ z ∧ z < ((x + m : Nat) : Int) then srcBits / 2 ^ ((z.toNat - x) * s.w) % 2 ^ s.w
        else s.fill % 2 ^ t.w)
    toLe n (packBits t.w elems * 2 ^ (e * t.w - base) / 2 ^ (v.off * 8 - base))

/-! ### Checks before the start (09 R283) -/

/-- Both ends of a copy have one geometry (09 R270, R277). -/
def sameGeometry (w : List W64) (s t : Shape) : Bool :=
  match dmForm w with
  | 0 => fld (wd w 3) 63 40 = fld (wd w 4) 63 40 && fld (wd w 3) 39 0 = fld (wd w 4) 39 0 && fld (wd w 5) 63 40 = fld (wd w 5) 39 16
  | 1 => false
  | _ => s.rank = t.rank && s.ext == t.ext && s.str == t.str && (List.range 6).all (fun i => dmOrigin w i = 0)

/-- The footprint of one end, as byte ranges of its space. -/
def dmFootprint (w : List W64) (dst : Bool) (s : Shape) : List (Nat × Nat) :=
  match dmForm w with
  | 0 =>
    let i := if dst then 4 else 3
    let lines := if dst then fld (wd w 5) 39 16 else fld (wd w 5) 63 40
    [(if dst then dmDst w else dmSrc w, (lines - 1) * fld (wd w i) 39 0 + fld (wd w i) 63 40)]
  | 1 =>
    let a := if dst then dmDst w else dmSrc w
    let n := if dst then dmDstWrap w else dmSrcWrap w
    if n = 0 then [(a, if dmBytes w = 0 then 2 ^ 48 - a else dmBytes w)] else [(a / 2 ^ n * 2 ^ n, 2 ^ n)]
  | _ => s.footprint

/-- The copy is taken in descending order (09 R270). -/
def descending (w : List W64) (s t : Shape) : Bool :=
  endSpace w false s = endSpace w true t && dmForm w ≠ 1 && sameGeometry w s t &&
  rangesMeet (dmFootprint w false s) (dmFootprint w true t) &&
  decide (if dmForm w = 2 then s.base ≤ t.base else dmSrc w ≤ dmDst w)

/-- A space that a channel accepts (09 R266). -/
def spaceOk (loc ch sp : Nat) (dst : Bool) : Bool :=
  match sp with
  | 0 => true
  | 1 => decide (loc < 144)
  | 2 => loc = 152 && decide (ch < 24)
  | 3 => loc = 152 && decide (28 ≤ ch) && decide (ch ≤ 30)
  | 4 => loc = 152 && ch = 31 && !dst
  | _ => false

/-- A range lies in its space; JOB addresses are checked at their translation (09 R283). -/
def spaceRange (sp a n : Nat) : Bool :=
  match sp with
  | 1 => decide (a + n ≤ spSize)
  | 3 => physOk a n
  | _ => true

/-- Channels of a location (09 R261). -/
def channelsOf (loc : Nat) : Nat := if loc < 152 then 8 else 32

/-- One tagged end of a TWO_D or CIRCULAR descriptor is slotted (09 R279). -/
def endSlotted (w : List W64) (dst : Bool) : Bool :=
  let a := if dst then dmDst w else dmSrc w
  let i := if dst then 4 else 3
  a % 512 = 0 && (if dmForm w = 0 then fld (wd w i) 63 40 % 512 = 0 && fld (wd w i) 39 0 % 512 = 0 else dmBytes w % 512 = 0)

/-- Of two ends, the word that names the first one at fault. -/
def endWord (srcOk : Bool) : Nat := if srcOk then 2 else 1

/-- The checks of R283 on a descriptor of channel `ch` at location `loc`, with the shape records it names: what must hold,
the error code, and the word of the descriptor at fault. -/
def dmChecks (loc ch : Nat) (w : List W64) (s t : Shape) : List (Bool × Nat × Nat) :=
  let f := dmForm w
  let ss := dmSrcSp w
  let ds := dmDstSp w
  let total := streamLen w s t
  let fe (n : Nat) (x : Shape) : Bool := n = 0 ||
    (x.base % 512 = 0 && (x.str.drop 1).all (· % 512 = 0) && x.rowBytes % 512 = 0 && s.e 0 = t.e 0 && dmOrigin w 0 = 0)
  let inSp (x : Shape) : Bool := !x.loc || rangesInSp x.footprint
  let based (x : Shape) : Bool := x.base % 32 = 0 && (x.str.drop 1).all (· % 32 = 0) && (!x.mx || x.scaleBase % 8 = 0)
  let shaped : List (Bool × Nat × Nat) := if f = 2 then [
      (if loc < 144 then ss = spLocal && ds = spLocal else ss = spJob && ds = spJob, eParameter, 0),
      (dmSrc w % 64 = 0 && dmDst w % 64 = 0, eAlignment, endWord (dmSrc w % 64 = 0)),
      ((s.check mxType).isNone, (s.check mxType).getD 0, 1), ((t.check mxType).isNone, (t.check mxType).getD 0, 2),
      (loc < 144 || (!s.loc && !t.loc), eParameter, endWord (!s.loc)),
      (s.fmt = t.fmt && s.mx == t.mx, eFormat, 1), (s.rank = t.rank, eParameter, 1),
      ((List.range 6).all (fun i => i < t.rank || dmOrigin w i = 0), eParameter, if (List.range 4).all (fun i => i < t.rank || dmOrigin w i = 0) then 4 else 3),
      (!t.mx || (s.blockAxis = 0 && t.blockAxis = 0 && dmOrigin w 0 % 32 = 0), eParameter, if s.blockAxis ≠ 0 then 1 else if t.blockAxis ≠ 0 then 2 else 3),
      (!dmTally w && dmTallyBase w = 0, eParameter, if dmTally w then 0 else 6), (s.tally == t.tally && s.tallyBase = t.tallyBase, eParameter, 1),
      (!t.tally || !bit (wd w 4) 0 || ((List.range 6).all (fun i => dmOrigin w i = 0) && s.exts == t.exts), eParameter, 4),
      (based s && based t, eAlignment, endWord (based s)),
      (dmOp w = 0 || !(s.tally && t.tally), eParameter, 0), (dmOp w ≠ 1 || (t.fmt = fmtFP32 && !t.mx), eParameter, 0),
      (inSp s && inSp t, eParameter, endWord (inSp s)),
      (fe (dmSrcFe w) s && fe (dmDstFe w) t, eAlignment, endWord (fe (dmSrcFe w) s))] else []
  let lines : List (Bool × Nat × Nat) := if f = 0 then [
      (fld (wd w 3) 63 40 ≠ 0 && fld (wd w 4) 63 40 ≠ 0 && fld (wd w 5) 63 40 ≠ 0 && fld (wd w 5) 39 16 ≠ 0, eParameter,
        if fld (wd w 3) 63 40 = 0 then 3 else if fld (wd w 4) 63 40 = 0 then 4 else 5),
      (fld (wd w 3) 63 40 * fld (wd w 5) 63 40 = fld (wd w 4) 63 40 * fld (wd w 5) 39 16, eParameter, 3),
      (decide (fld (wd w 4) 63 40 * fld (wd w 5) 39 16 < 2 ^ 40), eParameter, 3),
      (fld (wd w 3) 39 0 % 32 = 0 && fld (wd w 4) 39 0 % 32 = 0, eAlignment, if fld (wd w 3) 39 0 % 32 = 0 then 4 else 3)] else []
  let wrapOk (n : Nat) : Bool := n = 0 || (12 ≤ n && n ≤ 40)
  let ring : List (Bool × Nat × Nat) := if f = 1 then [
      (wrapOk (dmSrcWrap w) && wrapOk (dmDstWrap w), eParameter, 3), (dmLimAct w ≤ 1, eParameter, 0),
      (dmLimit w % 8 = 0 && dmReport w % 8 = 0, eAlignment, if dmLimit w % 8 = 0 then 5 else 4),
      (ss ≠ spLog || (dmSrc w = 0 && dmSrcWrap w = 0), eParameter, if dmSrc w = 0 then 3 else 1)] else []
  let meet := endSpace w false s = endSpace w true t && rangesMeet (dmFootprint w false s) (dmFootprint w true t)
  let first : List (Bool × Nat × Nat) := [
      (fld (wd w 0) 63 56 = 0x50, eParameter, 0), (f ≤ 2, eParameter, 0),
      (dmSrcFe w ≤ 2 && dmDstFe w ≤ 1, eParameter, 0), (dmOp w ≤ 2, eParameter, 0),
      (decide (dmChan w < channelsOf loc) && dmChan w = ch, eParameter, 0),
      (spaceOk loc ch ss false && spaceOk loc ch ds true, eParameter, 0),
      (ss = spRemote || fld (wd w 1) 63 48 = 0, eParameter, 1), (ds = spRemote || fld (wd w 2) 63 48 = 0, eParameter, 2),
      (ss ≠ spLog || f = 1, eParameter, 0)]
  let inSpace (dst : Bool) : Bool := (dmFootprint w dst (if dst then t else s)).all (fun p => spaceRange (if dst then ds else ss) p.1 p.2)
  let last_ : List (Bool × Nat × Nat) := [
      (f = 2 || (dmSrc w % 32 = 0 && dmDst w % 32 = 0), eAlignment, endWord (dmSrc w % 32 = 0)),
      (dmOp w = 0 || !dmTally w, eParameter, 0),
      (dmOp w ≠ 1 || ((ds = spJob || ds = spLocal) && (total.getD 0) % 4 = 0), eParameter, 0),
      (dmOp w ≠ 2 || (ds = spRemote && (total.getD 0) % (if dmFmt w = 1 then 2 else 4) = 0 &&
        (f ≠ 0 || fld (wd w 4) 63 40 % (if dmFmt w = 1 then 2 else 4) = 0)), eParameter, 0),
      (f = 2 || (inSpace false && inSpace true), eParameter, endWord (inSpace false)),
      (f = 2 || ((dmSrcFe w = 0 || endSlotted w false) && (dmDstFe w = 0 || endSlotted w true)), eAlignment,
        endWord (dmSrcFe w = 0 || endSlotted w false)),
      (!meet || (f ≠ 1 && sameGeometry w s t), eOverlap, 1)]
  first ++ lines ++ ring ++ shaped ++ last_

/-- The first check of a descriptor that fails: its code and the word at fault. -/
def dmFault (loc ch : Nat) (w : List W64) (s t : Shape) : Option (Nat × Nat) :=
  ((dmChecks loc ch w s t).find? (fun p => !p.1)).map Prod.snd

/-- The code of the first check of a descriptor that fails. -/
def dmCheck (loc ch : Nat) (w : List W64) (s t : Shape) : Option Nat := (dmFault loc ch w s t).map Prod.fst

/-! ### Channel registers and stops -/

/-- Set STATE of CH_STATE. -/
def Dev.chState (d : Dev) (loc ch v : Nat) : Dev := d.set (Reg.CH_STATE_STATE loc ch) v

/-- The unit number of a location in fault records. -/
abbrev unitOfLoc (loc : Nat) : Nat := loc

/-- Whether the copy runs in descending order. -/
def ChanRun.desc (r : ChanRun) : Bool := descending r.words r.s r.t

/-- PROGRESS: the longest acknowledged prefix of the stream (09 R284). -/
def ChanRun.progress (r : ChanRun) : Nat :=
  if r.desc then (if some r.head = r.total then r.head else 0) else r.head

/-- The first byte at or beyond `k` that runs (first byte, length) do not cover without a gap. -/
def coverTo : Nat → List (Nat × Nat) → Nat → Nat
  | 0, _, k => k
  | f + 1, l, k =>
    match l.find? (fun p => decide (p.1 ≤ k) && decide (k < p.1 + p.2)) with
    | some p => coverTo f l (p.1 + p.2)
    | none => k

/-- The end of the bytes before `e` that runs do not cover without a gap. -/
def coverBack : Nat → List (Nat × Nat) → Nat → Nat
  | 0, _, e => e
  | f + 1, l, e =>
    match l.find? (fun p => decide (p.1 < e) && decide (e ≤ p.1 + p.2)) with
    | some p => coverBack f l p.1
    | none => e

/-- Runs without the bytes [lo, hi). -/
def cutOut (lo hi : Nat) (l : List (Nat × Nat)) : List (Nat × Nat) :=
  (l.flatMap (fun p => [(p.1, min (p.1 + p.2) lo - p.1), (max p.1 hi, p.1 + p.2 - max p.1 hi)])).filter (fun p => p.2 ≠ 0)

/-- The stream bytes acknowledged, as runs: those at the front, in the order in which bursts are taken, and the others. -/
def ChanRun.ackedRuns (r : ChanRun) : List (Nat × Nat) :=
  (if r.desc then (r.total.getD 0 - r.head, r.head) else (0, r.head)) :: r.acked

/-- Every byte of [lo, hi) has been acknowledged. -/
def ChanRun.ackedAll (r : ChanRun) (lo hi : Nat) : Bool :=
  decide (hi ≤ coverTo (r.acked.length + 1) r.ackedRuns lo)

/-- Move `head` over the bytes acknowledged just behind it. -/
def settle (r : ChanRun) : ChanRun :=
  let n := r.acked.length
  if r.desc then
    let total := r.total.getD 0
    let e := coverBack n r.acked (total - r.head)
    { r with head := total - e, acked := r.acked.filter (fun p => decide (p.1 < e)) }
  else
    let k := coverTo n r.acked r.head
    { r with head := k, acked := r.acked.filter (fun p => decide (k < p.1 + p.2)) }

/-- The bursts from stream byte `k` on, one bit each: acknowledged or not (09 R284). A burst cut at a limit stands for itself. -/
def doneBits (r : ChanRun) : Nat → Nat → Nat → Nat
  | 0, _, _ => 0
  | f + 1, j, k =>
    if (match r.total with | some t => decide (t ≤ k) | none => false) then 0
    else
      let n := match r.acked.find? (fun p => p.1 = k) with
        | some p => min p.2 (burstLen r k)
        | none => burstLen r k
      (if r.ackedAll k (k + n) then 2 ^ j else 0) + doneBits r f (j + 1) (k + n)

/-- Stream bytes [lo, hi) are to be moved again: no burst of them counts as acknowledged. -/
def ChanRun.reopen (lo hi : Nat) (r : ChanRun) : ChanRun :=
  let total := r.total.getD 0
  let l := cutOut lo hi r.ackedRuns
  let front := if r.desc then min r.head (total - hi) else min r.head lo
  settle { r with head := front, acked := if r.desc then cutOut (total - front) total l else cutOut 0 front l
                  next := min r.next (if r.desc then total - hi else lo) }

/-- The descriptor's stream is carried in tallied blocks, and the index of its block 0 (09 R278, R282). -/
def ChanRun.tallied (r : ChanRun) : Option Nat :=
  if dmForm r.words = 2 then (if r.s.tally && r.t.tally then some r.t.tallyBase else none)
  else if dmTally r.words then some (dmTallyBase r.words) else none

/-- The channel takes nothing further from its list or its queue (09 R263, 17 R470). -/
def Dev.faultReader (d : Dev) (loc ch : Nat) : Dev := d.onChan loc ch (fun c => { c with reader := .faulted })

/-- Write an outcome word of a channel at a job address; a failure is a fault of the location (09 R285). -/
def Dev.outcomeWord (d : Dev) (loc recordId : Nat) (a : Nat) (v : W64) : Dev × Bool :=
  match d.xlate a with
  | some x =>
    match d.wrPhys x.phys (wordBytes v) with
    | (d, none) => (d, true)
    | (d, some w) => (d.memFault loc recordId w, true)
  | none => (d.schedFault loc recordId a, false)

/-- The result code of an operation whose descriptor stopped (15 R428). -/
def stopCode (cause : Nat) : Nat :=
  match cause with | 1 => 0x21 | 3 => 0x22 | 4 => 0x20 | 5 => 0x26 | 7 => 0x26 | _ => 0x24

/-- PROGRESS of a COPY operation, in permille (15 R428). -/
def Dev.copyProgress (d : Dev) (c : Chan) (r : ChanRun) : Dev :=
  match c.slot, r.total with
  | some i, some t => if t = 0 then d else d.progress i (r.progress * 1000 / t)
  | _, _ => d

/-- A descriptor completes or stops: progress, done mask, word 7, report word, CH_STATE; the end of a management operation
(09 R284, R285; 15 R428). -/
def Dev.finishChan (d : Dev) (loc ch cause : Nat) : Dev :=
  match (d.chan loc ch).cur with
  | none => d
  | some r0 =>
    let r := if cause ≠ 0 ∧ cause ≠ 8 ∧ r0.tallied.isSome ∧ !r0.desc then
        r0.reopen (r0.head / 4096 * 4096) (r0.head / 4096 * 4096 + 4096)
      else r0
    let c := d.chan loc ch
    let keep := (1 ≤ cause && cause ≤ 7) || cause = 9 || cause = 10
    let mgmt := loc = 152 && decide (28 ≤ ch)
    let discard := mgmt && keep && cause ≠ 9
    let held := keep && !discard
    let id := dmId r.words
    let d := d.setReg (Reg.CH_STATE loc ch)
      (packFlds [(63, 60, if held then 3 else 0), (59, 56, cause), (55, 40, id), (39, 0, r.progress % 2 ^ 40)])
    let d := d.setReg (Reg.CH_DONE_MASK loc ch) (w64 (doneBits r 64 0 r.progress))
    let d := if cause = 0 ∨ cause = 8 then d else d.inc (Reg.CH_COUNT_STOPS loc ch)
    let d := d.setChan loc ch
      { c with cur := if held then some { r with stop := some cause, next := r.head, wait := none, limitSince := none, fly := [], reads := [] }
                      else none }
    let w7 := packFlds [(63, 60, cause), (39, 0, r.progress % 2 ^ 40)]
    let (d, ok1) := match r.place with
      | some a => d.outcomeWord loc id (a + 56) w7
      | none => (d, true)
    let (d, ok2) := if dmReport r.words = 0 then (d, true) else d.outcomeWord loc id (dmReport r.words) (w64 r.progress)
    let d := if cause = 11 || cause = 12 || !ok1 || !ok2 then d.faultReader loc ch else d
    let d := if cause = 0 ∧ dmArrive r.words then d.arrive (rankOfLoc loc) (dmFence r.words) else d
    match c.slot with
    | none => d
    | some i =>
      if held then d.copyProgress c r
      else
        let d := d.onChan loc ch (fun c => { c with slot := none })
        let d := d.copyProgress c r
        -- DESC_SUBMIT alone has a result record (15 R426)
        let d := if fld (d.status i) 17 2 = 0x283 then d.addResult i [w7] else d
        if cause = 0 ∨ cause = 8 then d.opEnd i stDone 0
        else if cause = 11 then d.opEnd i stAborted 0
        else d.opEnd i stFailed (stopCode cause)

/-! ### Gradients on arrival (12 R336) -/

/-- The square of a finite value as a multiple of 2^−298. -/
def sqFixed (v : Val) : Nat := match v with | .fin _ m e => (m * m) * 2 ^ (2 * e + 298).toNat | _ => 0

/-- An element of a landed block is counted at the floor that holds it. -/
def landElem (d : Dev) (group k code fmt : Nat) : Dev :=
  let v := decodeElem fmt false code
  if v.isNan || v.isInf then
    (d.inc (Reg.UPD_COUNT1_NONFINITE_ELEMS k)).onFloor k (fun f => { f with nonfinite := true })
  else if d.get (Reg.GROUP_W0_CLIP_EN group) = 1 then
    d.onFloor k (fun f => { f with accum := (f.accum + sqFixed v) % 2 ^ 640 })
  else d

/-- The group whose norm-table range on floor k holds a tally index. -/
def normGroup (d : Dev) (k index : Nat) : Option Nat :=
  ((List.range 256).find? (fun i => d.get (Reg.NORMTAB_W1_VALID k i) = 1 && d.get (Reg.NORMTAB_W0_TALLY_LO k i) ≤ index &&
    decide (index < d.get (Reg.NORMTAB_W0_TALLY_HI k i)))).map (fun i => d.get (Reg.NORMTAB_W1_GROUP k i))

/-- The physical address of a destination address of a channel; none where a JOB address has no segment. -/
def Dev.endPhys (d : Dev) (loc sp a : Nat) : Option Nat :=
  match sp with
  | 0 => (d.xlate a).map Xl.phys
  | 1 => some (spBase loc + a)
  | 3 => some a
  | _ => none

/-- A tallied block has landed with its tally matched: its elements are counted at the floors that hold them. -/
def landBlock (d : Dev) (loc : Nat) (r : ChanRun) (base i : Nat) : Dev :=
  let index := (base + i) % 2 ^ 32
  let body := match dmForm r.words with | 2 => (shapeStream r.words r.s r.t).1 | _ => r.total.getD (4096 * i + 4096)
  let len := min 4096 (body - 4096 * i)
  (List.range 8).foldl (fun d k =>
    match normGroup d k index with
    | none => d
    | some g =>
      let fmt := d.get (Reg.GROUP_W0_GFMT g)
      let n := fmtBits fmt / 8
      (List.range (len / max n 1)).foldl (fun d j =>
        match d.endPhys loc r.dstSp (dstAt r (4096 * i + j * n)).1 with
        | some p => if p < cellarEnd && cellarOf p = k then landElem d g k (ofLe (d.bytes p n)) fmt else d
        | none => d) d) d

/-- Stream byte at which tally block i ends: of a SHAPE stream, the elements alone are carried in blocks (06 R191, 09 R278). -/
def ChanRun.blockEnd (r : ChanRun) (i : Nat) : Nat :=
  min (4096 * i + 4096) (match dmForm r.words with
    | 2 => (shapeStream r.words r.s r.t).1
    | _ => r.total.getD (4096 * i + 4096))

/-- Every burst of tally block i has been acknowledged. -/
def blockDone (r : ChanRun) (i : Nat) : Bool :=
  decide (4096 * i < r.blockEnd i) && r.ackedAll (4096 * i) (r.blockEnd i)

/-- The tally blocks that the burst of stream bytes [pos, pos + len) completes. -/
def ChanRun.blocksBy (r : ChanRun) (pos len : Nat) : List Nat :=
  let r := { r with acked := r.acked ++ [(pos, len)] }
  match r.tallied with
  | some _ => ((List.range ((pos + len - 1) / 4096 + 1 - pos / 4096)).map (· + pos / 4096)).filter (blockDone r)
  | none => []

/-! ### Bursts -/

/-- Every stream byte of source slot j of a CONSUME end has been acknowledged (09 R279). -/
def slotDone (r : ChanRun) (j : Nat) : Bool :=
  r.ackedAll (512 * j) (match r.total with | some t => min t (512 * j + 512) | none => 512 * j + 512)

/-- Where the source slot behind stream bytes [512 j, 512 j + 512) begins. -/
def ChanRun.srcSlot (r : ChanRun) (j : Nat) : List Nat :=
  if dmForm r.words = 2 then
    let (k, n) := shapeNeed r (512 * j) (burstLen r (512 * j))
    if n = 0 then [] else [(shapeLine r (shapeRow r (512 * j))).1 + k]
  else [srcAt r.words (512 * j)]

/-- The slot key of a physical scratchpad address. -/
def slotOf (phys : Nat) : Nat := (phys - 0xF000000000) / 512

/-- The source coordinates or the destination coordinates out of bounds that a burst of a SHAPE descriptor forms: elements
that read FILL, and elements of the source whose writes are dropped, up to the element behind the burst (06 R193, 09 R277). -/
def ChanRun.oob (r : ChanRun) (pos len : Nat) : Nat × Nat :=
  if dmForm r.words ≠ 2 then (0, 0) else
  let s := r.s
  let t := r.t
  let b := dmBox r.words s t
  let v := shapeBurst r pos
  if v.scales then (0, 0) else
  let (e, c) := elemSpan t.w v.off len
  let lo := max e (b.lo.headD 0)
  let hi := min (e + c) (b.lo.headD 0 + b.len.headD 0)
  if bit (wd r.words 4) 0 then
    -- elements of the source visited before an element of the box, less those of the box
    let row := pos / max 1 (b.rowAt t.w).2
    let before (i y : Nat) : Nat :=
      linearOf s.exts (List.zipWith (fun (a : Nat) (o : Int) => ((a : Int) + o).toNat) (y :: b.outer i) b.delta) -
        (i * b.len.headD 0 + (y - b.lo.headD 0))
    let vol (l : List Nat) : Nat := l.foldl (· * ·) 1
    let last_ := decide (row + 1 = b.rows) && hi = b.lo.headD 0 + b.len.headD 0
    let upTo := if last_ then vol s.exts - vol b.len else before row (hi - 1)
    let from_ := if lo = b.lo.headD 0 then (if row = 0 then 0 else before (row - 1) (b.lo.headD 0 + b.len.headD 0 - 1))
      else before row (lo - 1)
    (0, upTo - from_)
  else (hi - lo - (match v.src with | some _ => (srcElems s (b.delta.headD 0) lo (hi - lo)).2 | none => 0), 0)
where
  /-- The place of coordinates in row-major logical order. -/
  linearOf : List Nat → List Nat → Nat
    | e :: es, x :: xs => x + e * linearOf es xs
    | _, _ => 0

/-- Out-of-bounds coordinates are counted at the channel's location (06 R193, R198; 09 R290). -/
def Dev.countOob (d : Dev) (loc : Nat) (n : Nat × Nat) : Dev :=
  if loc < 144 then (d.addTo (Reg.LAYOUT_COUNT0_OOB_READS loc) n.1).addTo (Reg.LAYOUT_COUNT0_OOB_WRITES loc) n.2
  else (d.addTo (Reg.DMA_OOB_OOB_READS loc) n.1).addTo (Reg.DMA_OOB_OOB_WRITES loc) n.2

/-- PROGRESS and the done mask show what the channel has acknowledged (09 R284). -/
def Dev.showProgress (d : Dev) (loc ch : Nat) (r : ChanRun) : Dev :=
  ((d.set (Reg.CH_STATE_PROGRESS loc ch) (r.progress % 2 ^ 40)).setReg (Reg.CH_DONE_MASK loc ch)
    (w64 (doneBits r 64 0 r.progress))).copyProgress (d.chan loc ch) r

/-- Read bursts whose bytes no write burst taken still needs go, but for the latest, which the next one may still need. -/
def ChanRun.tidy (r : ChanRun) : ChanRun :=
  let last_ := (r.reads.getLast?).map ReadBurst.key
  { r with reads := r.reads.filter (fun q => some q.key = last_ || r.fly.any (fun b => b.parts.any (fun p => p.1 = q.key))) }

/-- Source slots of a CONSUME end that have been copied are set empty, unless their tag word is uncorrectable (07 R221,
09 R279). -/
def Dev.consumed (d : Dev) (loc ch recordId : Nat) (slots : List Nat) : Dev :=
  match d.tagBad slots with
  | some k => (d.stopChan loc ch 4).tagUncorrectable (k / 16384) 3 recordId k
  | none => (d.tagFix slots).setTags slots false

/-- A write burst is acknowledged: progress, consumed slots, landings, the report word, completion (09 R279, R284). -/
def Dev.burstAcked (d : Dev) (loc ch pos len : Nat) : Dev :=
  match (d.chan loc ch).cur with
  | none => d
  | some r =>
    let landed := if dmOp r.words = 0 then r.blocksBy pos len else []
    let r1 := ChanRun.tidy { r with fly := r.fly.filter (fun b => b.pos ≠ pos), acked := r.acked ++ [(pos, len)] }
    let slots := List.range ((pos + len - 1) / 512 + 1 - pos / 512) |>.map (· + pos / 512)
    let used := if dmSrcFe r.words = 2 then slots.filter (slotDone r1) else []
    let srcOf (a : Nat) : List Nat := match d.endPhys loc r.srcSp a with | some p => [slotOf p] | none => []
    let r2 := settle r1
    let d := d.onRun loc ch (fun _ => r2)
    let d := if used.isEmpty then d else d.consumed loc ch (dmId r.words) ((used.flatMap r.srcSlot).flatMap srcOf)
    let d := landed.foldl (fun d i => landBlock d loc r2 (r.tallied.getD 0) i) d
    let d := d.showProgress loc ch r2
    let d := if dmReport r.words ≠ 0 ∧ r2.reported / 4096 < r2.head / 4096 then
        let (d, ok) := d.outcomeWord loc (dmId r.words) (dmReport r.words) (w64 r2.head)
        let d := d.onRun loc ch (fun r => { r with reported := r.head })
        if ok then d else d.faultReader loc ch
      else d
    match (d.chan loc ch).cur with
    | some r3 => if r3.fly.isEmpty ∧ some r3.head = r3.total ∧ r3.stop.isNone then d.finishChan loc ch 0 else d
    | none => d

/-- Tallied blocks that a burst has completed came back with a tally that differs: each is read and written again, twice at most
(09 R282, 17 R465). -/
def Dev.tallyRetry (d : Dev) (loc ch pos len : Nat) : Dev :=
  match (d.chan loc ch).cur with
  | none => d
  | some r =>
    let blocks := r.blocksBy pos len
    let tries (i : Nat) : Nat := ((r.retries.find? (fun p => p.1 = i)).map Prod.snd).getD 0
    let r1 := settle { r with fly := r.fly.filter (fun b => b.pos ≠ pos), acked := r.acked ++ [(pos, len)] }
    if blocks.any (fun i => decide (2 ≤ tries i)) then
      ((d.onRun loc ch (fun _ => blocks.foldl (fun r i => r.reopen (4096 * i) (r.blockEnd i)) r1)).stopChan loc ch 3).fault
        { kind := fkTally, unit := loc, recordId := dmId r.words, addr := (dstAt r pos).1 % 2 ^ 40 } dAbort
    else
      blocks.foldl (fun d i =>
        let again (r : ChanRun) : ChanRun :=
          { r.reopen (4096 * i) (r.blockEnd i) with
            retries := (i, tries i + 1) :: r.retries.filter (fun p => p.1 ≠ i)
            reads := r.reads.filter (fun q => r.fly.any (fun b => b.parts.any (fun p => p.1 = q.key))) }
        ((d.onRun loc ch again).inc (Reg.CH_COUNT_TALLY_REFETCHES loc ch)).fault
          { kind := fkTally, unit := loc, recordId := dmId r.words } dLocal) (d.onRun loc ch (fun _ => r1))

/-- The pieces of read bursts behind source bytes [k, k + n): those at hand, and new ones where none holds a byte. -/
def readPieces (r : ChanRun) (limit : Option Nat) : Nat → List ReadBurst → Nat → Nat →
    List ReadBurst × List (Nat × Nat × Nat)
  | 0, pool, _, _ => (pool, [])
  | f + 1, pool, k, n =>
    if n = 0 then (pool, []) else
    let (pool, q) := match pool.find? (fun q => q.key ≤ k && decide (k < q.key + q.len)) with
      | some q => (pool, q)
      | none =>
        let (g, l, a) := readGeom r limit k
        -- what has been acknowledged is not read again, and a burst cut at an earlier limit holds the bytes before
        let s := if dmForm r.words = 2 || r.desc then g else max g (min k r.head)
        let s' := (pool.filter (fun (q : ReadBurst) => decide (s ≤ q.key) && decide (q.key + q.len ≤ k))).foldl (fun m (q : ReadBurst) => max m (q.key + q.len)) s
        let q : ReadBurst := { key := s', addr := a + (s' - g), len := l - (s' - g) }
        (pool ++ [q], q)
    let m := max 1 (min n (q.key + q.len - k))
    let (pool, t) := readPieces r limit f pool (k + m) (n - m)
    (pool, (q.key, k - q.key, m) :: t)

/-- The bytes behind a burst's pieces, once every one has been read. -/
def ChanRun.pieces (r : ChanRun) (b : Burst) : Option (List Byte) :=
  b.parts.foldr (fun p a =>
    match a, (r.reads.find? (fun q => q.key = p.1)).bind ReadBurst.data with
    | some t, some l => some ((l.drop p.2.1).take p.2.2 ++ t)
    | _, _ => none) (some [])

/-- The bytes of a burst whose source bytes have all been read. -/
def Dev.burstBytes (d : Dev) (r : ChanRun) (b : Burst) : List Byte :=
  let l := (r.pieces b).getD []
  if dmForm r.words = 2 then shapeBytes r b.pos b.len l (d.bytes b.dst b.len) else l

/-- Keep what the bytes from `a` that a burst has overwritten held, where the descriptor's ends lie in different spaces. -/
def Dev.keepOrig (d : Dev) (loc ch a : Nat) (old : List Byte) : Dev :=
  d.onRun loc ch (fun r =>
    if r.srcSp = r.dstSp then r
    else { r with orig := r.orig ++ ((old.zipIdx a).map Prod.swap).filter (fun x => !r.orig.any (fun c => c.1 = x.1)) })

/-- Source bytes that the descriptor has already overwritten: each reads as its original value or as the value written, and
which of the two is open (06 R206; log entries 1, 14). -/
def Dev.mixOrig (d : Dev) (orig : List Host.Cell) (a : Nat) : List Byte → List Byte × Dev
  | [] => ([], d)
  | b :: t =>
    match orig.find? (fun c => c.1 = a) with
    | some c =>
      let (v, d) := d.free?
      let (l, d) := d.mixOrig orig (a + 1) t
      ((if bit v 0 then c.2 else b) :: l, d)
    | none =>
      let (l, d) := d.mixOrig orig (a + 1) t
      (b :: l, d)

/-- A wait for a slot's tag begins now, unless it has begun already; its cycles are counted at the slot's bench (07 R225,
R235). -/
def Dev.beginWait (d : Dev) (slot : Nat) (full : Bool) : Option Wait → Dev × Option Wait
  | some w => (d, some w)
  | none => (d.addCycles (Reg.SP_TAG_TAG_WAIT_CYCLES (slot / 16384)), some ⟨[slot], full, d.countedBeats⟩)

/-- Change the write burst of a channel at a stream position. -/
def Dev.onBurst (d : Dev) (loc ch pos : Nat) (f : Burst → Burst) : Dev :=
  d.onRun loc ch (fun r => { r with fly := r.fly.map (fun x => if x.pos = pos then f x else x) })

/-- A write burst at the channel's own port: served at once, or waiting for its slot to be empty (07 R223; 09 R264, R279). -/
def Dev.ownWrite (d : Dev) (loc ch : Nat) (r : ChanRun) (b : Burst) : Dev :=
  let bytes := d.burstBytes r b
  let slot := slotOf b.dst
  let tagged : Bool := dmDstFe r.words = 1
  if tagged && (d.tagBad [slot]).isSome then
    ((d.onRun loc ch (ChanRun.lessBurst b.pos)).stopChan loc ch 4).tagUncorrectable (slot / 16384) 3 (dmId r.words) slot
  else if tagged && d.tag slot then
    let (d, w) := d.beginWait slot false b.wait
    d.onBurst loc ch b.pos (fun x => { x with wait := w })
  else
    let m := (if tagged then d.tagFix [slot] else d).dmaMeet loc true b.dst bytes.length
    let d := m.1
    if m.2 then d.ownConflict loc ch (ChanRun.lessBurst b.pos)
    else
      let old := d.bytes b.dst bytes.length
      match d.wrPhys b.dst bytes with
      | (d, some w) => ((d.onRun loc ch (ChanRun.lessBurst b.pos)).stopChan loc ch 4).memFault loc (dmId r.words) w
      | (d, none) =>
        ((if tagged then d.setTags [slot] true else d).keepOrig loc ch b.dst old).burstAcked loc ch b.pos b.len

/-- Send a write burst on: at the channel's own port, into the network, or to the router it joins (09 R280). -/
def Dev.burstSend (d : Dev) (loc ch : Nat) (r : ChanRun) (b : Burst) : Dev :=
  let d := d.countOob loc (r.oob b.pos b.len)
  let ep := endpointOf b.dst
  let sent (d : Dev) : Dev := d.onBurst loc ch b.pos (fun x => { x with sent := true })
  let pkt : Pkt := { id := 0, kind := 0, src := loc, dst := ep, addr := b.dst, len := b.len, data := d.burstBytes r b,
                     loc := loc, ch := ch, pos := b.pos }
  if dmOp r.words = 1 then
    let hop := (route loc ep).headD (ep, 0)
    sent (d.inject { pkt with kind := 4, redId := dmRed r.words, router := hop.1, port := entryPort loc })
  else if ep = loc then d.ownWrite loc ch r b
  else sent (d.inject { pkt with fe := dmDstFe r.words })

/-- Read 64 B entries of the log ring: a lost one is a marker, and its loss is counted once (21 R542). -/
def Dev.logBytes (d : Dev) (a n : Nat) : Dev × List Byte :=
  let e := a / 64
  let seq := d.get Reg.LOG_STATUS_WRITE_SEQ
  let lost := decide (e + 16384 < seq)
  let bytes := if lost then
      wordsBytes [0, 0, packFlds [(44, 33, 0x0FF), (31, 0, e % 2 ^ 32)], 0, 0, 0, 0, 0]
    else match SMap.get (fun _ => none) d.log (e % 16384) with
      | some x => wordsBytes (x.words e)
      | none => List.replicate 64 0
  (if lost ∧ a % 64 = 0 then d.inc Reg.LOG_STATUS_DRAIN_LOST else d, (bytes.drop (a % 64)).take n)

/-- The bytes of a read burst are at the channel. -/
def ChanRun.gotRead (key : Nat) (l : List Byte) (r : ChanRun) : ChanRun :=
  { r with reads := r.reads.map (fun q => if q.key = key then { q with data := some l } else q) }

/-- A read burst that its bench may merge with others: a whole slot, untagged or in WAIT mode (07 R229). -/
def Dev.mergeable (d : Dev) (dst fe a n : Nat) : Bool :=
  decide (dst < 144) && d.get (Reg.SP_CTRL_MERGE_EN dst) = 1 && decide (fe ≤ 1) && a % 512 = 0 && n = 512

/-- A read burst is issued: read at once at the channel's own port, or through a merge window there, else a READ_REQ. -/
def Dev.readIssue (d : Dev) (loc ch : Nat) (r : ChanRun) (q : ReadBurst) : Dev :=
  let d := d.onRun loc ch (fun r => { r with wait := none, reads := r.reads.map (fun x =>
    if x.key = q.key then { x with issued := true } else x) })
  if dmSrcSp r.words = spLog then
    let (d, l) := d.logBytes q.addr q.len
    d.onRun loc ch (ChanRun.gotRead q.key l)
  else
    let ep := endpointOf q.addr
    if ep ≠ loc || d.mergeable loc (dmSrcFe r.words) q.addr q.len then
      d.inject { id := 0, kind := 1, src := loc, dst := ep, addr := q.addr, len := q.len, loc := loc, ch := ch, pos := 0,
                 part := q.key + 1, fe := dmSrcFe r.words }
    else
      let m := d.dmaMeet loc false q.addr q.len
      let d := m.1
      if m.2 then d.ownConflict loc ch (ChanRun.lessRead q.key)
      else match d.rdPhys q.addr q.len with
      | (d, .ok l) =>
        let (l, d) := d.mixOrig (match (d.chan loc ch).cur with | some r => r.orig | none => []) q.addr l
        d.onRun loc ch (ChanRun.gotRead q.key l)
      | (d, .error w) => ((d.onRun loc ch (ChanRun.lessRead q.key)).stopChan loc ch 4).memFault loc (dmId r.words) w

/-- An end's address for a burst: its physical address, or the stop cause (09 R279, R285; 12 R329). -/
def Dev.resolve (d : Dev) (loc sp a : Nat) (write tagged : Bool) : Except Nat Nat :=
  match sp with
  | 0 =>
    match d.xlate a with
    | none => .error 1
    | some x =>
      if write && x.view = 1 && d.get Reg.STEP_STATE_PHASE = 1 then .error 12
      else if tagged && decide (x.phys < cellarEnd) then .error 12 else .ok x.phys
  | 1 => .ok (spBase loc + a)
  | 3 => if tagged && decide (a < cellarEnd) then .error 12 else .ok a
  | _ => if tagged then .error 12 else .ok a

/-- The next burst to issue: its start and length; bursts acknowledged or taken already are skipped (09 R286). -/
def nextBurst (r : ChanRun) : ChanRun × Option (Nat × Nat) :=
  let runs := r.ackedRuns ++ r.fly.map (fun b => (b.pos, b.len))
  if r.desc then
    let total := r.total.getD 0
    let e := coverBack runs.length runs (total - r.next)
    let k := burstBefore r e
    ({ r with next := total - e }, if e = 0 then none else some (k, e - k))
  else
    let k := coverTo runs.length runs r.next
    ({ r with next := k }, if (match r.total with | some t => decide (t ≤ k) | none => false) then none else some (k, burstLen r k))

/-- The limit word, with 2^DST_WRAP where asked (09 R273); the log drain's is 64 × WRITE_SEQ (21 R542). -/
def Dev.readLimit (d : Dev) (w : List W64) : Except Nat Nat :=
  match d.fetch (dmLimit w) 1 with
  | .words l => .ok (((wd l 0).toNat + if dmPlus w then 2 ^ dmDstWrap w else 0) % 2 ^ 64)
  | .translation => .error 1
  | .uncorrectable _ => .error 4

/-- A read of the limit word that meets an uncorrectable word is counted where it lies (10 R294). -/
def Dev.limitBad (d : Dev) (w : List W64) : Dev :=
  match d.fetch (dmLimit w) 1 with
  | .uncorrectable p => d.countBad p
  | _ => d

/-- A stop cause found by the channel itself, with its fault or record (09 R285). -/
def Dev.ownStop (d : Dev) (loc ch cause a : Nat) (r : ChanRun) : Dev :=
  let d := d.stopChan loc ch cause
  if cause = 1 then d.xlateStop loc ch a
  else if cause = 12 then d.schedFault loc (dmId r.words) (a % 2 ^ 40)
  else if cause = 10 then d
  else d.fault { kind := if cause = 4 then fkUncorrectable else if cause = 7 then fkLimitTimeout else fkSlotTimeout,
                 unit := loc, recordId := dmId r.words, addr := a % 2 ^ 40 } dAbort

/-- A channel works: its job runs, or it is a management or log channel, or PREEMPTING drains what cannot stop. -/
def Dev.chanLive (d : Dev) (loc ch : Nat) : Bool :=
  !d.frozen && d.boot.phase = .run && ((d.js = jsRunning && !d.paused) || (loc = 152 && decide (28 ≤ ch) && d.js ≠ jsPreempting) ||
    (match (d.chan loc ch).cur with
     | some r => d.js = jsPreempting && (dmOp r.words ≠ 0 || dmDstSp r.words = spRemote || dmSrcSp r.words = spRemote)
     | none => false))

/-- A hub LATTICE channel may read: a send channel once the start fence of its port's phase is released; a receive channel
issues no bursts, its flits arrive (13 R362, R378). -/
def Dev.latticeGate (d : Dev) (loc ch : Nat) : Bool :=
  if loc = 152 ∧ ch < 24 then
    ch % 2 = 0 && (match (d.port (ch / 2)).phase with
      | some ph => (d.fence (fld (wd ph.words 0) 55 40)).released
      | none => false)
  else true

/-! ### A channel at work (09 R264, R268, R270, R279) -/

/-- Bursts are still issued: no stop has been asked for, or the stream comes to its end at its limit (09 R274, R285). -/
def ChanRun.issues (r : ChanRun) : Bool := match r.stop with | none => true | some c => c = 8

/-- Bursts outstanding: issued, and neither answered nor served (09 R264). -/
def ChanRun.outstanding (r : ChanRun) : Nat :=
  (r.reads.filter (fun q => q.issued && q.data.isNone)).length + (r.fly.filter (fun b => b.sent || b.wait.isSome)).length

/-- A copy onto part of its own source: a burst is written only after all before it (09 R270). -/
def ChanRun.serial (r : ChanRun) : Bool :=
  dmForm r.words ≠ 1 && r.srcSp = r.dstSp && sameGeometry r.words r.s r.t &&
  rangesMeet (dmFootprint r.words false r.s) (dmFootprint r.words true r.t)

/-- The next read burst that may be issued; a REMOTE source's are asked for in a phase's slots (13 R377). -/
def ChanRun.nextRead (r : ChanRun) : Option ReadBurst :=
  if r.issues && dmSrcSp r.words ≠ spRemote && decide (r.outstanding < 64) then r.reads.find? (fun q => !q.issued) else none

/-- The next write burst that may be issued: the first one neither issued nor waiting, once its bytes are at hand. A REMOTE one
waits for its slots. -/
def ChanRun.nextWrite (r : ChanRun) : Option Burst :=
  if !r.issues || 64 ≤ r.outstanding || r.dstSp = spRemote then none
  else match r.fly.find? (fun b => !b.sent && b.wait.isNone) with
    | some b => if (r.pieces b).isSome && (!r.serial || r.fly.head? = some b) then some b else none
    | none => none

/-- The slot of a read burst at the channel's own port that waits until it is full, if it is tagged. A read burst that a merge
window takes waits there. -/
def Dev.readSlot (d : Dev) (loc : Nat) (r : ChanRun) (q : ReadBurst) : Option Nat :=
  if dmSrcFe r.words = 0 || dmSrcSp r.words = spLog || endpointOf q.addr ≠ loc ||
    d.mergeable loc (dmSrcFe r.words) q.addr q.len then none else some (slotOf q.addr)

/-- Issue what may be issued, write bursts first, one burst at a time. -/
def Dev.pump : Nat → Dev → Nat → Nat → Dev
  | 0, d, _, _ => d
  | f + 1, d, loc, ch =>
    match (d.chan loc ch).cur with
    | none => d
    | some r =>
      if !d.chanLive loc ch then d
      else match r.nextWrite with
      | some b => Dev.pump f (d.burstSend loc ch r b) loc ch
      | none =>
        match r.nextRead with
        | none => d
        | some q =>
          match d.readSlot loc r q with
          | none => Dev.pump f (d.readIssue loc ch r q) loc ch
          | some k =>
            match d.tagBad [k] with
            | some k => (d.stopChan loc ch 4).tagUncorrectable (k / 16384) 3 (dmId r.words) k
            | none =>
              let d := d.tagFix [k]
              if d.tag k then Dev.pump f (d.readIssue loc ch r q) loc ch
              else
                let (d, w) := d.beginWait k true r.wait
                d.onRun loc ch (fun r => { r with wait := w })

/-- CH_STATE of a channel at work: WAITING while it waits on a tag, at its limit or for its fence (09 R289). -/
def Dev.showState (d : Dev) (loc ch : Nat) : Dev :=
  match (d.chan loc ch).cur with
  | some r =>
    if r.stop.isSome then d
    else
      let waits := r.wait.isSome || r.limitSince.isSome || r.fly.any (fun b => b.wait.isSome) ||
        d.net.pkts.any (fun p => p.loc = loc && p.ch = ch && p.wait.isSome) ||
        (dmWait r.words && !r.begun && !(d.fence (dmFence r.words)).released)
      d.chState loc ch (if waits then 2 else 1)
  | none => d

/-- The channel issues what it can. -/
def Dev.chanGo (d : Dev) (loc ch : Nat) : Dev := (Dev.pump 1024 d loc ch).showState loc ch

/-- A read burst has been answered: its bytes go to the write bursts that need them. -/
def Dev.partRead (d : Dev) (loc ch part : Nat) (l : List Byte) : Dev :=
  (d.onRun loc ch (ChanRun.gotRead (part - 1) l)).chanGo loc ch

/-- A burst is given up, a read burst by its number or a write burst by its position: it was never performed. -/
def Dev.burstLost (d : Dev) (loc ch pos part : Nat) : Dev :=
  d.onRun loc ch (if part = 0 then ChanRun.lessBurst pos else ChanRun.lessRead (part - 1))

/-- The limit up to which a descriptor may move its stream (09 R273); none where it has none. A stream that has met its limit
under DROP keeps it. -/
def Dev.limitOf (d : Dev) (r : ChanRun) : Except Nat (Option Nat) :=
  let w := r.words
  if r.stop = some 8 then .ok r.limit
  else if dmSrcSp w = spLog ∧ dmLimit w = 0 then .ok (some (64 * d.get Reg.LOG_STATUS_WRITE_SEQ))
  else if dmLimit w = 0 then .ok none
  else match r.limit with
    | some l => .ok (some l)
    | none => match d.readLimit w with | .ok l => .ok (some l) | .error c => .error c

/-- The read bursts not yet issued, with their physical addresses: or the stop cause and the source address of the first one
that has none. -/
def Dev.placeReads (d : Dev) (loc : Nat) (r : ChanRun) : List ReadBurst → Except (Nat × Nat) (List ReadBurst)
  | [] => .ok []
  | q :: t =>
    match d.resolve loc r.srcSp q.addr false (dmSrcFe r.words ≠ 0) with
    | .error c => .error (c, q.addr)
    | .ok a =>
      if dmSrcSp r.words ≠ spLog && dmSrcSp r.words ≠ spRemote && d.routeBad loc (endpointOf a) then .error (10, q.addr)
      else match d.placeReads loc r t with
        | .ok l => .ok ({ q with addr := a } :: l)
        | .error e => .error e

/-- A write burst is taken: its place, and the read bursts it is formed of; or the stop cause and the address at fault. -/
def Dev.takeBurst (d : Dev) (loc : Nat) (r : ChanRun) (l : Option Nat) (pos len : Nat) : Except (Nat × Nat) ChanRun :=
  let w := r.words
  let a := (dstAt r pos).1
  match d.resolve loc r.dstSp a true (dmDstFe w ≠ 0) with
  | .error c => .error (c, a)
  | .ok dst =>
    if r.dstSp ≠ spRemote && dmOp w ≠ 1 && d.routeBad loc (endpointOf dst) then .error (10, a)
    else
      let (k, n) := srcNeed r pos len
      let (pool, parts) := readPieces r l 64 r.reads k n
      match d.placeReads loc r (pool.drop r.reads.length) with
      | .error e => .error e
      | .ok new => .ok { r with
          reads := r.reads ++ new, fly := r.fly ++ [{ pos := pos, len := len, dst := dst, parts := parts }]
          limitSince := none, next := if r.desc then r.total.getD 0 - pos else pos + len }

/-- Take the next write burst, and issue what may be issued; or say why it waits (09 R264, R268, R273, R274, R281). -/
def Dev.issueBurst (d : Dev) (loc ch : Nat) : Dev :=
  match (d.chan loc ch).cur with
  | none => d
  | some r0 =>
    if !d.chanLive loc ch || !d.latticeGate loc ch || !r0.issues then d
    else if dmWait r0.words && !r0.begun && !(d.fence (dmFence r0.words)).released then d.showState loc ch
    else if 64 ≤ r0.fly.length then d.chanGo loc ch
    else
      let (r, nb) := nextBurst { r0 with begun := true }
      let d := d.onRun loc ch (fun _ => r)
      match nb with
      | none => if r.fly.isEmpty ∧ some r.head = r.total ∧ r.stop.isNone then d.finishChan loc ch 0 else d.chanGo loc ch
      | some (pos, len0) =>
        let w := r.words
        match d.limitOf r with
        | .error c => (d.limitBad w).ownStop loc ch c (dmLimit w) r
        | .ok l =>
          let d := if dmLimit w ≠ 0 && r.limit.isNone then d.readJob (dmLimit w) 8 else d
          let atEnd := match l with | some l => decide (l ≤ pos) | none => false
          let d := d.onRun loc ch (fun r => { r with limit := if dmLimit w = 0 && !atEnd then none else l })
          if atEnd then
            if dmLimAct w = 1 then
              if r.fly.isEmpty ∧ r.stop.isNone then d.finishChan loc ch 8 else (d.stopChan loc ch 8).chanGo loc ch
            else (d.onRun loc ch (fun r => { r with limitSince := some (r.limitSince.getD d.countedBeats) })).chanGo loc ch
          else
            match d.takeBurst loc r l pos (match l with | some l => min len0 (l - pos) | none => len0) with
            | .error (c, a) => d.ownStop loc ch c a r
            | .ok r' =>
              ((d.onRun loc ch (fun x => { r' with limit := x.limit })).addCycles (Reg.CH_COUNT_PACE_CYCLES loc ch)).chanGo loc ch

/-- A waiting burst of a channel at its own port looks at its tag again: write bursts in their order, then the next read burst
(07 R223). -/
def Dev.ownRetry (d : Dev) (loc ch : Nat) : Dev :=
  match (d.chan loc ch).cur with
  | none => d
  | some r =>
    let d := (r.fly.filter (fun b => b.wait.isSome)).foldl (fun d b =>
      match (d.chan loc ch).cur with
      | some r => if d.tag (slotOf b.dst) then d else d.ownWrite loc ch r b
      | none => d) d
    d.chanGo loc ch

/-- Bursts of a channel that wait on a tag are given up: none of them is performed (07 R227; 09 R285, R287). -/
def Dev.abandonWaits (d : Dev) (loc ch : Nat) : Dev :=
  let gone (p : Pkt) : Bool := p.loc = loc && p.ch = ch && p.wait.isSome
  let lost := d.net.pkts.filter gone
  let d : Dev := { d with net := { d.net with pkts := d.net.pkts.filter (fun p => !gone p) } }
  (lost.foldl (fun d p => d.burstLost loc ch p.pos p.part) d).onRun loc ch (fun r =>
    { r with wait := none, fly := r.fly.filter (fun b => b.wait.isNone) })

/-! ### Taking the next descriptor (09 R263) -/

/-- The descriptor a channel takes next: its words and its place; or why there is none. -/
inductive NextDesc where
  | none
  | ended
  | found (w : List W64) (place : Option Nat) (listed : Bool)
  | translation (a : Nat)
  | uncorrectable (phys a : Nat)
  deriving DecidableEq, Repr

/-- Look at the head of a channel's queue, else of its list. -/
def Dev.nextDesc (d : Dev) (loc ch : Nat) : NextDesc :=
  let c := d.chan loc ch
  match c.cur with
  | some _ => .none
  | none =>
    -- after HALT, PARAMETER or a refusal a channel takes nothing further
    if c.reader = .faulted && !(loc = 152 && decide (28 ≤ ch)) then .none else
    match c.queue with
    | q :: _ => .found q.1 q.2 false
    | [] =>
      if c.list = 0 || !(c.reader = .running || c.reader = .translation) then .none
      else
        let a := c.list + 64 * c.pos
        match d.fetch a 8 with
        | .translation => .translation a
        | .uncorrectable p => .uncorrectable p a
        | .words w => if fld (wd w 0) 63 56 = 0 then .ended else .found w (some a) true

/-- The shape records a SHAPE descriptor names (09 R276). -/
def Dev.shapeWords (d : Dev) (loc : Nat) (a : Nat) : Fetch :=
  if loc < 144 then
    if a + 128 ≤ spSize then
      match d.badPhys (spBase loc + a) 128 with
      | some w => .uncorrectable w
      | none => .words (d.spWords loc a 16)
    else .words (List.replicate 16 0)
  else d.fetch a 16

/-- A shape record is read. -/
def Dev.readShape (d : Dev) (loc a : Nat) : Dev :=
  if loc < 144 then (if a + 128 ≤ spSize then d.readPhys [(spBase loc + a, 128)] else d) else d.readJob a 128

/-- A channel's reader meets an address with no segment: it stops there and tries again after each table write
(16 R565). -/
def Dev.readerStop (d : Dev) (loc ch a : Nat) : Dev :=
  if (d.chan loc ch).reader = .translation then d
  else (d.onChan loc ch (fun c => { c with reader := .translation })).xlateStop loc ch a

/-- Drop the descriptor at hand from its queue or list. -/
def Dev.popDesc (d : Dev) (loc ch : Nat) (listed : Bool) : Dev :=
  let c := d.chan loc ch
  (if listed then d.readJob (c.list + 64 * c.pos) 64 else d).onChan loc ch (fun c =>
    if listed then { c with pos := c.pos + 1, reader := .running } else { c with queue := c.queue.drop 1 })

/-- A refused descriptor: a schedule fault, after which the list goes no further; a management operation ends FAILED
(09 R283, 17 R470). -/
def Dev.refuseDesc (d : Dev) (loc ch : Nat) (w : List W64) (code : Nat) : Dev :=
  match (d.chan loc ch).slot with
  | some i => (d.onChan loc ch (fun c => { c with slot := none })).opEnd i stFailed code
  | none =>
    let d := (d.faultReader loc ch).schedFault loc (dmId w) 0
    if loc < 144 then d.onBn loc (fun x => { x with seq := .faulted }) else d

/-- A channel takes its next descriptor, if it has the given form: checks it and starts it (09 R263, R283). -/
def Dev.startDesc (d : Dev) (form loc ch : Nat) : Dev :=
  if !(loc < 153 && decide (ch < channelsOf loc) && d.chanLive loc ch) then d
  else match d.nextDesc loc ch with
    | .none => d
    | .ended => d.onChan loc ch (fun c => { c with reader := .idle })
    | .translation a => if form = 0 then d.readerStop loc ch a else d
    | .uncorrectable p _ => if form = 0 then (d.faultReader loc ch).readFault loc 0 p else d
    | .found w place listed =>
      if fld (wd w 0) 63 56 ≠ 0x50 then (if form = 0 then (d.popDesc loc ch listed).refuseDesc loc ch w eParameter else d)
      else if dmForm w ≠ form && !(form = 0 && dmForm w = 3) then d
      else
        let shape (a : Nat) : Fetch := if dmForm w = 2 then d.shapeWords loc a else .words []
        let mine := (d.chan loc ch).slot.isSome
        match shape (dmSrc w), shape (dmDst w) with
        | .words s, .words t =>
          match dmCheck loc ch w (Shape.ofWords s) (Shape.ofWords t) with
          | some code => (d.popDesc loc ch listed).refuseDesc loc ch w code
          | none =>
            let r : ChanRun := { words := w, place := place, shapeS := s, shapeD := t }
            let d := d.popDesc loc ch listed
            let d := if form = 2 then (d.readShape loc (dmSrc w)).readShape loc (dmDst w) else d
            let d := d.onChan loc ch (fun c => { c with cur := some r })
            let d := d.setReg (Reg.CH_STATE loc ch) (packFlds [(63, 60, 1), (55, 40, dmId w)])
            let d := d.setReg (Reg.CH_DONE_MASK loc ch) 0
            let b := dmBox w r.s r.t
            -- a box with no element: every coordinate visited is out of bounds
            if form = 2 && bit (wd w 4) 0 && r.total = some 0 && b.rows * b.len.headD 0 = 0 then
              d.countOob loc (0, r.s.exts.foldl (· * ·) 1)
            else d
        | .translation, _ => if mine then (d.popDesc loc ch listed).refuseDesc loc ch w 0x21 else d.readerStop loc ch (dmSrc w)
        | _, .translation => if mine then (d.popDesc loc ch listed).refuseDesc loc ch w 0x21 else d.readerStop loc ch (dmDst w)
        | .uncorrectable p, _ => if mine then ((d.popDesc loc ch listed).countBad p).refuseDesc loc ch w 0x20
            else ((d.popDesc loc ch listed).faultReader loc ch).readFault loc (dmId w) p
        | _, .uncorrectable p => if mine then ((d.popDesc loc ch listed).countBad p).refuseDesc loc ch w 0x20
            else ((d.popDesc loc ch listed).faultReader loc ch).readFault loc (dmId w) p

/-- A channel at its limit reads the limit word again (09 R273). -/
def Dev.limitReread (d : Dev) (loc ch : Nat) : Dev :=
  match (d.chan loc ch).cur with
  | some r =>
    if d.chanLive loc ch && r.stop.isNone && dmLimit r.words ≠ 0 && r.limitSince.isSome then
      match d.readLimit r.words with
      | .ok l =>
        let d := d.readJob (dmLimit r.words) 8
        if some l = r.limit then d
          else (d.onRun loc ch (fun r => { r with limit := some l, limitSince := none })).showState loc ch
      | .error c => (d.limitBad r.words).ownStop loc ch c (dmLimit r.words) r
    else d
  | none => d

/-- A limit wait of LIMIT_TIMEOUT whole beats stops the descriptor (09 R274). -/
def Dev.limitTimeout (d : Dev) (loc ch : Nat) : Dev :=
  match (d.chan loc ch).cur with
  | some r =>
    match r.limitSince with
    | some t => if r.stop.isNone && d.get (Reg.DMA_CTRL_LIMIT_TIMEOUT loc) < d.countedBeats - t && !d.frozen then
        d.ownStop loc ch 7 (dmLimit r.words) r else d
    | none => d
  | none => d

/-- Bulk packets of a channel are still under way. -/
def Dev.chanBusy (d : Dev) (loc ch : Nat) : Bool :=
  d.net.pkts.any (fun p => (p.loc = loc && p.ch = ch) || p.targets.any (fun t => t.2.1 = loc && t.2.2.1 = ch))

/-- Every burst issued has ended; at a limit under DROP, every burst before the limit (09 R264, R274, R285). -/
def ChanRun.ended (r : ChanRun) : Bool :=
  if r.stop = some 8 then r.fly.isEmpty && some r.head = r.limit else r.fly.all (fun b => !b.sent && b.wait.isNone)

/-- After a stop cause, once every burst has ended, the channel records its outcome (09 R285). -/
def Dev.chanStop (d : Dev) (loc ch : Nat) : Dev :=
  match (d.chan loc ch).cur with
  | some r =>
    match r.stop with
    | some c =>
      if r.ended && !d.chanBusy loc ch && !d.frozen && (d.get (Reg.CH_STATE_STATE loc ch) ≠ 3 || c = 11) then d.finishChan loc ch c
      else d
    | none => d
  | none => d

/-- A stopped descriptor goes on from its progress (09 R286, R288). -/
def Dev.resumeChan (d : Dev) (loc ch : Nat) : Dev :=
  (d.onRun loc ch (fun r =>
    { r with stop := none, next := r.head, fly := [], reads := [], wait := none, limit := none, limitSince := none })).chState loc ch 1

end Sys2Proof.Machine
end

