-- ==== Sys2Proof/Machine/Bulk.lean ====
section
/-! DEFINITION. The bulk network's packets at their destinations: writes, reads, merging, multicast, reductions, link faults,
waiting tagged accesses (07 R222 to R231, 08 R239 to R248). -/

namespace Sys2Proof.Machine

/-- Location 200 stands for a router: the WRITE that ends a reduction belongs to no channel. -/
abbrev noLoc : Nat := 200

/-- The network runs. -/
def Dev.netRuns (d : Dev) : Bool := !d.frozen && d.boot.phase = .run

/-- The channel of a packet shows its state. -/
def Dev.showPkt (d : Dev) (p : Pkt) : Dev := if p.loc = noLoc then d else d.showState p.loc p.ch

/-- A packet that waits for its slot tag waits from its own arrival (07 R225, R230). -/
def Dev.pktWait (d : Dev) (p : Pkt) (full : Bool) : Dev :=
  let (d, w) := d.beginWait (slotOf p.addr) full p.wait
  let w := if p.wait.isNone && p.window.isSome then w.map (fun x => { x with since := p.joinedAt }) else w
  (d.onPkt p.id (fun x => { x with wait := w })).showPkt p

/-- A WRITE lands (08 R243). -/
def execBulkWriteOn (d : Dev) (id : Nat) : Dev :=
  match if d.netRuns then d.arriving id 0 else none with
  | none => d
  | some p =>
    if d.routeBad p.src p.dst then d.answer p 6 [] 10
    else
      let slot := slotOf p.addr
      if p.fe = 1 ∧ (d.tagBad [slot]).isSome then (d.tagUncorrectable (slot / 16384) 3 0 slot).answer p 6 [] 4
      else if p.fe = 1 ∧ d.tag slot then d.pktWait p false
      else
        let m := (if p.fe = 1 then d.tagFix [slot] else d).dmaMeet p.dst true p.addr p.data.length
        let d := m.1
        if m.2 then (d.dmaConflict p.dst p.loc p.ch).answer p 6 [] 6
        else match d.wrPhys p.addr p.data with
        | (d, some w) => (if p.loc = noLoc then d.memFault p.src 0 w else d).answer { p with addr := w } 6 [] 4
        | (d, none) =>
          let d := if p.fe = 1 then d.setTags [slot] true else d
          if p.loc = noLoc then d.dropPkt id else (d.answer p 3 [] 0).showPkt p

/-- Serve a READ_REQ on its own. -/
def Dev.serveRead (d : Dev) (p : Pkt) : Dev :=
  let slot := slotOf p.addr
  if p.fe ≠ 0 ∧ (d.tagBad [slot]).isSome then (d.tagUncorrectable (slot / 16384) 3 0 slot).answer p 6 [] 4
  else if p.fe ≠ 0 ∧ !d.tag slot then d.pktWait p true
  else
    let m := (if p.fe ≠ 0 then d.tagFix [slot] else d).dmaMeet p.dst false p.addr p.len
    let d := m.1
    if m.2 then (d.dmaConflict p.dst p.loc p.ch).answer p 6 [] 6
    else match d.rdPhys p.addr p.len with
    | (d, .ok l) => (d.answer p 2 l 0).showPkt p
    | (d, .error w) => d.answer { p with addr := w } 6 [] 4

/-- The merge window open for a slot (07 R229). -/
def Dev.openWindow (d : Dev) (addr : Nat) : Option Nat :=
  (d.net.pkts.find? (fun q => q.kind = 1 && q.window.isSome && !q.closed && q.addr = addr)).bind Pkt.window

/-- A READ_REQ joins a merge window, or is served (07 R229 to R231). -/
def execBulkReadReqOn (d : Dev) (id : Nat) : Dev :=
  match if d.netRuns then d.arriving id 1 else none with
  | none => d
  | some p =>
    if d.routeBad p.src p.dst then d.answer p 6 [] 10
    else if d.mergeable p.dst p.fe p.addr p.len then
      if p.window.isSome then d
      else
        let open_ := d.openWindow p.addr
        let d := d.inc (if open_.isSome then Reg.SP_MERGE_BURSTS_MERGED p.dst else Reg.SP_MERGE_WINDOWS p.dst)
        let p' := { p with window := some (open_.getD id), joinedAt := d.countedBeats }
        let d := d.onPkt id (fun _ => p')
        if p.fe = 1 ∧ !d.tag (slotOf p.addr) then d.pktWait p' true else d
    else d.serveRead p

/-- READ_DATA completes a read (08 R243). -/
def execBulkReadDataOn (d : Dev) (id : Nat) : Dev :=
  match if d.netRuns then d.arriving id 2 else none with
  | none => d
  | some p => (d.dropPkt id).partRead p.loc p.ch p.part p.data

/-- An ACK completes a write burst; the tally it carries agrees or not at the end of a block (09 R282, R284). -/
def execBulkAckOn (d : Dev) (id : Nat) (agrees : Bool) : Dev :=
  match if d.netRuns then d.arriving id 3 else none with
  | none => d
  | some p =>
    let d := d.dropPkt id
    match (d.chan p.loc p.ch).cur with
    | none => d
    | some r =>
      (if !agrees && !(r.blocksBy p.pos p.len).isEmpty then d.tallyRetry p.loc p.ch p.pos p.len
       else d.burstAcked p.loc p.ch p.pos p.len).chanGo p.loc p.ch

/-- A NACK stops the channel with its cause (08 R243, 09 R285). -/
def execBulkNackOn (d : Dev) (id : Nat) : Dev :=
  match if d.netRuns then d.arriving id 6 else none with
  | none => d
  | some p =>
    let d := d.dropPkt id
    match (d.chan p.loc p.ch).cur with
    | none => d
    | some r =>
      let d := (d.burstLost p.loc p.ch p.pos p.part).stopChan p.loc p.ch p.cause
      if p.cause = 4 then d.memFault p.loc (dmId r.words) p.addr
      else if p.cause = 5 then
        d.fault { kind := fkSlotTimeout, unit := p.loc, recordId := dmId r.words, addr := p.addr } dAbort
      else d

/-- The hops of a multicast from bench b to the benches of one die, each once. -/
def multicastHops (b : Nat) (targets : List Nat) : List (Nat × Nat) := uniqPairs (targets.flatMap (route b))
where
  /-- Remove repeats. -/
  uniqPairs (l : List (Nat × Nat)) : List (Nat × Nat) := l.foldr (fun x a => if a.contains x then a else x :: a) []

/-- Count a multicast's extra copies in the routers where its routes part (08 R245, R260). -/
def Dev.countCopies (d : Dev) (hops : List (Nat × Nat)) : Dev :=
  (uniq (hops.map Prod.fst)).foldl (fun d r =>
    let n := (hops.filter (fun h => h.1 = r)).length
    d.addTo (Reg.NET_COUNT_MULTICAST_COPIES r) (n - 1)) d

/-- The bytes of a slot go to every requester of a window: READ_DATA to hub and floors, one MULTICAST to each die (08 R245). -/
def Dev.multicast (d : Dev) (b phys : Nat) (ps : List Pkt) (l : List Byte) : Dev :=
  let far := ps.filter (fun p => 144 ≤ p.src)
  let near := ps.filter (fun p => p.src < 144)
  let d := far.foldl (fun d p => d.answer p 2 l 0) d
  (List.range 4).foldl (fun d die =>
    let mine := near.filter (fun p => p.src / 36 = die)
    match mine with
    | [] => d
    | h :: _ =>
      let d := mine.foldl (fun d p => d.dropPkt p.id) d
      let d := d.countCopies (multicastHops b (mine.map Pkt.src))
      d.inject { id := 0, kind := 5, src := b, dst := h.src, addr := phys, len := 512, data := l, loc := noLoc, ch := 0,
                 pos := 0, targets := mine.map (fun p => (p.src, p.loc, p.ch, p.id, p.part)) }) d

/-- A closed window is served, if its slot's tag lets it: the slot is read once, for every requester (07 R221, R229, R230). -/
def Dev.serveWindow (d : Dev) (w : Nat) : Dev :=
  match d.net.pkts.filter (fun p => p.kind = 1 && p.window = some w) with
  | [] => d
  | h :: t =>
    let ps := h :: t
    let b := h.dst
    let slot := slotOf h.addr
    let tagged := ps.filter (fun p => p.fe = 1)
    if !tagged.isEmpty && (d.tagBad [slot]).isSome then
      ps.foldl (fun d p => d.answer p 6 [] 4) (d.tagUncorrectable b 3 0 slot)
    else
      let d := if tagged.isEmpty then d else d.tagFix [slot]
      if !tagged.isEmpty && !d.tag slot then tagged.foldl (fun d p => d.pktWait p true) d
      else
        let m := d.dmaMeet b false h.addr 512
        let d := m.1
        if m.2 then ps.foldl (fun d p => (d.dmaConflict b p.loc p.ch).answer p 6 [] 6) d
        else match d.rdPhys h.addr 512 with
        | (d, .error w) => ps.foldl (fun d p => d.answer { p with addr := w } 6 [] 4) d
        | (d, .ok l) => ps.foldl (fun d p => d.showPkt p) (d.multicast b h.addr ps l)

/-- A merge window closes: no later burst joins it, and it is tested and served (07 R229, R230). -/
def execMergeWindowCloseOn (d : Dev) (b slot : Nat) : Dev :=
  match if d.netRuns && decide (b < 144) then d.openWindow (spBase b + slot % 16384 * 512) else none with
  | none => d
  | some w =>
    ({ d with net := { d.net with pkts := d.net.pkts.map (fun p => if p.window = some w then { p with closed := true } else p) } }
      : Dev).serveWindow w

/-- A MULTICAST reaches every bench of its mask (08 R245). -/
def execBulkMulticastOn (d : Dev) (id : Nat) : Dev :=
  match if d.netRuns then d.arriving id 5 else none with
  | none => d
  | some p => p.targets.foldl (fun d t => d.partRead t.2.1 t.2.2.1 t.2.2.2.2 p.data) (d.dropPkt id)

/-! ### Reductions (08 R246 to R248) -/

/-- A reduction stops: its matched set is discarded, counted and reported (08 R248). -/
def Dev.reduceFault (d : Dev) (b addr : Nat) (same : RedSet → Bool) : Dev :=
  let d := { d with net := { d.net with sets := d.net.sets.filter (fun s => !same s) } }
  (d.inc (Reg.NET_COUNT_REDUCE_FAULTS b)).fault { kind := fkReduce, unit := b, addr := addr } dAbort

/-- A REDUCE contribution reaches its router (08 R247). -/
def execBulkReduceOn (d : Dev) (id : Nat) : Dev :=
  match if d.netRuns then d.arriving id 4 else none with
  | none => d
  | some p =>
    let b := p.router
    let same (s : RedSet) : Bool := s.router = b && s.redId = p.redId && s.addr = p.addr
    let accepted (d : Dev) : Dev :=
      let d := d.dropPkt id
      if p.loc = noLoc then d else (d.burstAcked p.loc p.ch p.pos p.len).chanGo p.loc p.ch
    match d.redEntry b p.redId with
    | none => (accepted d).reduceFault b p.addr same
    | some w =>
      match d.net.sets.find? same with
      | some s =>
        if s.len ≠ p.len || s.got.any (fun g => g.1 = p.port) then (accepted d).reduceFault b p.addr same
        else
          let s2 := { s with got := s.got ++ [(p.port, p.data)] }
          let d := accepted d
          if (redOrder w).all (fun q => s2.got.any (fun g => g.1 = q)) then finish d b w s2 same
          else { d with net := { d.net with sets := d.net.sets.map (fun x => if same x then s2 else x) } }
      | none =>
        if 32 ≤ (d.net.sets.filter (fun s => s.router = b)).length then d
        else
          let s : RedSet := ⟨b, p.redId, p.addr, p.len, [(p.port, p.data)], d.liveBeats⟩
          let d := accepted d
          if (redOrder w).all (fun q => q = p.port) then finish d b w s same
          else { d with net := { d.net with sets := d.net.sets ++ [s] } }
where
  /-- The set is complete: its sum leaves on OUT_PORT, as a REDUCE where the next router serves the reduction on the
  facing port, else as a WRITE to its address (08 R247; log entry 26). -/
  finish (d : Dev) (b : Nat) (w : W64) (s : RedSet) (same : RedSet → Bool) : Dev :=
    let parts := (redOrder w).filterMap (fun q => (s.got.find? (fun g => g.1 = q)).map Prod.snd)
    let d := { d with net := { d.net with sets := d.net.sets.filter (fun x => !same x) } }.count b (redCnt parts)
    let sum := redSum parts
    let next := match facing b (fld w 23 21) with
      | some (n, q) => match d.redEntry n s.redId with
        | some e => if (fld e 55 48).testBit q then some (n, q) else none
        | none => none
      | none => none
    let ep := endpointOf s.addr
    match next with
    | some (n, q) => d.inject { id := 0, kind := 4, src := b, dst := ep, addr := s.addr, len := s.len, data := sum, loc := noLoc,
                                ch := 0, pos := 0, redId := s.redId, router := n, port := q }
    | none => d.inject { id := 0, kind := 0, src := b, dst := ep, addr := s.addr, len := s.len, data := sum, loc := noLoc,
                         ch := 0, pos := 0 }

/-- A set of router b has waited REDUCE_TIMEOUT beats (08 R248). -/
def execReduceTimeoutOn (d : Dev) (b : Nat) : Dev :=
  match d.net.sets.find? (fun s => s.router = b && decide (s.since + d.get Reg.SYNC_CTRL_REDUCE_TIMEOUT ≤ d.liveBeats)) with
  | some s => if d.netRuns then d.reduceFault b s.addr (fun x => x.router = b && x.redId = s.redId && x.addr = s.addr) else d
  | none => d

/-- A link cycle fails its CRC `failures` times in succession: replayed and counted; eight mark the link failed
(08 R244, 17 R465). -/
def execLinkCrcReplayOn (d : Dev) (b port failures : Nat) : Dev :=
  if !(b < 144 && hasPort b port && port ≠ 0 && d.netRuns && 1 ≤ failures) then d
  else
    let d := d.addTo (Reg.NET_COUNT_LINK_REPLAYS b) (min failures 8)
    if failures < 8 ∨ d.net.badLinks.contains (b, port) then d
    else
      let d := { d with net := { d.net with badLinks := d.net.badLinks ++ [(b, port)] } }
      d.fault { kind := fkLinkFailed, unit := b } dSafe

/-! ### Waiting tagged accesses (07 R223 to R227) -/

/-- The waits of an access, each with its port: a lane-row record (0), its drained rows (1), an engine's record (2 to 4), a ragged
loop (5), or the bursts of a channel. -/
def Dev.waitsOf (d : Dev) : Access → List (Nat × Wait)
  | .engine b e =>
    let x := d.bn b
    let one (port : Nat) (w : Option Wait) : List (Nat × Wait) := (w.map (fun w => (port, w))).toList
    let eng (i : Nat) : List (Nat × Wait) := match (x.eng i).cur with
      | some r => one (engPort i r.item.words) r.wait
      | none => []
    match e with
    | 0 => one 0 (x.lane.cur.bind LaneRun.wait)
    | 1 => x.lane.drains.flatMap (fun r => one 2 r.wait)
    | 2 => eng 0
    | 3 => eng 1
    | 4 => eng 2
    | 5 => one 4 x.raggedWait
    | _ => []
  | .channel loc ch =>
    let own := match (d.chan loc ch).cur with
      | some r => r.wait.toList ++ r.fly.filterMap Burst.wait
      | none => []
    (own ++ (d.net.pkts.filter (fun p => p.loc = loc && p.ch = ch)).filterMap Pkt.wait).map (fun w => (3, w))

/-- A waiting access of a bench's engines looks at its tags again. -/
def engineRetry (d : Dev) (b e : Nat) : Dev :=
  match e with
  | 0 => laneRun d b
  | 1 => laneRun d b
  | 2 => engRun 0 d b
  | 3 => engRun 1 d b
  | 4 => engRun 2 d b
  | 5 => raggedRun d b
  | _ => d

/-- The waiting bursts of a channel look at their tags again, each at its own port; a closed window is served together. -/
def Dev.channelRetry (d : Dev) (loc ch : Nat) : Dev :=
  let d := d.ownRetry loc ch
  (d.net.pkts.filter (fun p => p.loc = loc && p.ch = ch && p.wait.isSome)).foldl (fun d p =>
    match p.window with
    | some w => if p.closed then d.serveWindow w else d
    | none => if p.kind = 0 then execBulkWriteOn d p.id else if p.kind = 1 then execBulkReadReqOn d p.id else d) d

/-- The engines of the bench of a waiting access whose own waits are over too, whose slots are among its slots, and whose ports
come first in the order of R213: they start before it (07 R224). -/
def Dev.rivals (d : Dev) (a : Access) : List (Nat × Nat) :=
  let mine := d.waitsOf a
  let ready (w : Wait) : Bool := w.slots.all (fun k => d.tag k == w.full)
  let before (b e : Nat) : Bool := (d.waitsOf (.engine b e)).any (fun x => ready x.2 && mine.any (fun m =>
    decide (portOrder x.1 < portOrder m.1) && m.2.full == x.2.full && m.2.slots.any x.2.slots.contains))
  let benches := uniq (mine.flatMap (fun m => m.2.slots.map (· / 16384)))
  benches.flatMap (fun b => ([1, 0, 2, 5, 3, 4].filter (fun e => before b e)).map (fun e => (b, e)))

/-- A waiting access looks at its tags again and proceeds if they are right, behind the accesses that start before it (07 R223,
R224). -/
def execTagWaitSatisfiedOn (d : Dev) (a : Access) : Dev :=
  let d' := if d.netRuns && d.finishes then (d.rivals a).foldl (fun d r => engineRetry d r.1 r.2) d else d
  match a with
  | .engine b e => if b < 144 && d.finishes then engineRetry d' b e else d
  | .channel loc ch => if d.netRuns then d'.channelRetry loc ch else d

/-- Whether a wait has lasted SLOT_TIMEOUT whole beats beyond the beat in which it began (07 R225). -/
def Dev.waitExpired (d : Dev) (w : Wait) : Bool :=
  match w.slots with
  | k :: _ => decide (d.get (Reg.SP_CTRL_SLOT_TIMEOUT (k / 16384)) < d.countedBeats - w.since)
  | [] => false

/-- An engine's access whose wait has timed out is not performed, and its record stops. -/
def engineTimeout (d : Dev) (b e : Nat) : Dev :=
  let x := d.bn b
  match (d.waitsOf (.engine b e)).find? (fun w => d.waitExpired w.2) with
  | none => d
  | some (port, w) =>
    let stop (recordId : Nat) (d : Dev) : Dev := d.slotTimeout b b port recordId w
    let eng (i : Nat) : Dev := match (x.eng i).cur with
      | some r => stop (recId r.item.words) (engDrop d b i)
      | none => d
    match e with
    | 0 => match x.lane.cur with
      | some r => stop (recId r.item.words) (laneStop d b)
      | none => d
    | 1 => match x.lane.drains.find? (fun r => r.wait = some w) with
      | some r => stop (recId r.words) ((laneStop d b).onLane b (fun l => { l with drains := [] }))
      | none => d
    | 2 => eng 0
    | 3 => eng 1
    | 4 => eng 2
    | 5 => match x.seq with
      | .ragged r => stop (ragId r) (seqStop d b)
      | _ => d
    | _ => d

/-- A burst of a channel whose wait has timed out is not performed, and its descriptor stops (09 R285). -/
def Dev.channelTimeout (d : Dev) (loc ch : Nat) : Dev :=
  match (d.chan loc ch).cur with
  | none => d
  | some r =>
    let stop (w : Wait) (d : Dev) : Dev :=
      (d.slotTimeout ((w.slots.headD 0) / 16384) loc 3 (dmId r.words) w).stopChan loc ch 5
    match r.fly.find? (fun b => (b.wait.map d.waitExpired).getD false) with
    | some b => stop (b.wait.getD ⟨[], true, 0⟩) (d.onRun loc ch (ChanRun.lessBurst b.pos))
    | none =>
      match r.wait with
      | some w => if d.waitExpired w then stop w d else d
      | none =>
        match d.net.pkts.find? (fun p => p.loc = loc && p.ch = ch && (p.wait.map d.waitExpired).getD false) with
        | some p => stop (p.wait.getD ⟨[], true, 0⟩) ((d.dropPkt p.id).burstLost loc ch p.pos p.part)
        | none => d

/-- A wait that has timed out stops its record or descriptor (07 R225). -/
def execSlotTimeoutOn (d : Dev) (a : Access) : Dev :=
  match a with
  | .engine b e => if b < 144 && d.finishes then engineTimeout d b e else d
  | .channel loc ch => if d.netRuns then d.channelTimeout loc ch else d

end Sys2Proof.Machine
end

