-- ==== Sys2Proof/Machine/Sequencer.lean ====
section
/-! DEFINITION. The bench sequencer (03 R566), SELECT records (11 R317 to R323), the stash engine and the attic
(10 R301 to R306). -/

namespace Sys2Proof.Machine

/-! ### SELECT records -/

abbrev selFence (w : List W64) : Nat := fld (wd w 0) 55 40
abbrev selFloors (w : List W64) : Nat := fld (wd w 0) 39 32
abbrev selForce (w : List W64) : Nat := fld (wd w 0) 31 30
abbrev selCkptEn (w : List W64) : Bool := bit (wd w 0) 29
abbrev selGroup (w : List W64) : Nat := fld (wd w 0) 23 12
abbrev selCkpt (w : List W64) : Nat := fld (wd w 0) 11 0
abbrev selLenA (w : List W64) : Nat := fld (wd w 1) 63 48
abbrev selLenB (w : List W64) : Nat := fld (wd w 1) 47 32
abbrev selLenC (w : List W64) : Nat := fld (wd w 1) 31 16
abbrev selSlipB (w : List W64) : Nat := fld (wd w 2) 63 48
abbrev selSlipC (w : List W64) : Nat := fld (wd w 2) 47 32
abbrev selId (w : List W64) : Nat := fld (wd w 3) 63 48

/-- The path a SELECT takes: 0 A, 1 B, 2 C (11 R319). -/
def selPath (force : Nat) (ckptEn own ckpt : Bool) : Nat :=
  if force = 2 || ((own || force = 1) && (!ckptEn || ckpt)) then 2
  else if own || force = 1 then 1
  else 0

/-- The end mark lies among the records `pos` to `pos + n − 1` of a list. -/
def Dev.endWithin (d : Dev) (list pos : Nat) : Nat → Bool
  | 0 => false
  | n + 1 => (match d.fetch (list + 64 * pos) 1 with
      | .words w => fld (wd w 0) 63 56 = 0
      | _ => false) || Dev.endWithin d list (pos + 1) n

/-- The checks of R323; `next` is the position behind the SELECT. -/
def Dev.selOk (d : Dev) (w : List W64) (floor : Bool) (list next : Nat) : Bool :=
  decide (selForce w ≤ 2) && selFloors w ≠ 0 &&
  (onesOf 8 (selFloors w)).all (fun k => d.get (Reg.ATTIC_CTRL_EN k) = 1) &&
  (selCkptEn w || selCkpt w = 0) &&
  !(floor && (selSlipB w ≠ 0 || selSlipC w ≠ 0)) &&
  !d.endWithin list next (selLenA w + selLenB w + selLenC w)

/-- What a read of one bit of a RECOMPUTE map meets. -/
inductive MapBit where
  | value (b : Bool)
  | translation (a : Nat)
  | uncorrectable (p : Nat)
  deriving DecidableEq, Repr

/-- Read a word of job memory as one step of a longer read. -/
def Dev.mapWord (d : Dev) (a : Nat) (k : W64 → MapBit) : MapBit :=
  match d.fetch a 1 with
  | .words w => k (wd w 0)
  | .translation => .translation a
  | .uncorrectable p => .uncorrectable p

/-- Bit `g` of floor k's RECOMPUTE map (10 R302). -/
def Dev.recomputeBit (d : Dev) (k g : Nat) : MapBit :=
  d.mapWord (d.get (Reg.ATTIC_CTRL_CTRL_ADDR k) + 40) (fun m =>
    d.mapWord (m.toNat % 2 ^ 48 + 8 * (g / 64)) (fun w => .value (bit w (g % 64))))

/-- The OR of bit `g` over floors. -/
def Dev.recomputeAny (d : Dev) (g : Nat) : List Nat → MapBit
  | [] => .value false
  | k :: t =>
    match d.recomputeBit k g, Dev.recomputeAny d g t with
    | .value x, .value y => .value (x || y)
    | .value _, r => r
    | r, _ => r

/-- The words of floor k's RECOMPUTE map behind bit `g` are read. -/
def Dev.readMap (d : Dev) (g k : Nat) : Dev :=
  let c := d.get (Reg.ATTIC_CTRL_CTRL_ADDR k) + 40
  match d.fetch c 1 with
  | .words m => (d.readJob c 8).readJob ((wd m 0).toNat % 2 ^ 48 + 8 * (g / 64)) 8
  | _ => d

/-- The maps of a SELECT are read (11 R319). -/
def Dev.readMaps (d : Dev) (w : List W64) : Dev :=
  let l := onesOf 8 (selFloors w)
  let d := l.foldl (fun d k => d.readMap (selGroup w) k) d
  if selCkptEn w then l.foldl (fun d k => d.readMap (selCkpt w) k) d else d

/-- Counted by path, and as forced (11 R325). -/
def Dev.countPath (d : Dev) (loc path : Nat) (w : List W64) : Dev :=
  let d := d.inc (if path = 0 then Reg.SEL_COUNT_PATH_A loc else if path = 1 then Reg.SEL_COUNT_PATH_B loc else Reg.SEL_COUNT_PATH_C loc)
  if selForce w ≠ 0 then d.inc (Reg.SEL_COUNT_FORCED loc) else d

/-- Where a list goes on after a SELECT that stands before `next`: the position of the chosen path, and the skip behind it
(11 R319). -/
def selGoes (w : List W64) (path next : Nat) : Nat × Option (Nat × Nat) :=
  let a := next + selLenA w
  let b := a + selLenB w
  let c := b + selLenC w
  match path with
  | 0 => (next, some (a, c))
  | 1 => (a, some (b, c))
  | _ => (b, none)

/-- A position after the skips that begin there, the innermost first; a path may hold a SELECT of its own. -/
def afterSkip (pos : Nat) : List (Nat × Nat) → Nat × List (Nat × Nat)
  | [] => (pos, [])
  | (p, q) :: t => if pos = p then afterSkip q t else (pos, (p, q) :: t)

/-- A bench's SELECT: its maps are read once its fence is released (11 R319, R321, R323). -/
def benchSelect (d : Dev) (b : Nat) (w : List W64) : Dev :=
  if !(d.fence (selFence w)).released then d
  else
    let floors := onesOf 8 (selFloors w)
    let ckpt := if selCkptEn w then d.recomputeAny (selCkpt w) floors else .value false
    match d.recomputeAny (selGroup w) floors, ckpt with
    | .value own, .value ck =>
      let path := selPath (selForce w) (selCkptEn w) own ck
      let d := (d.readMaps w).countPath b path w
      let (pos, skip) := selGoes w path (d.bn b).pos
      let d := d.onBn b (fun x => { x with seq := .running, pos := pos, skip := skip.toList ++ x.skip })
      let beats := if path = 1 then selSlipB w else if path = 2 then selSlipC w else 0
      if beats = 0 then d else d.overrun b beats (selId w)
    | .translation a, _ =>
      (match (d.bn b).seq with
       | .selMaps _ => d
       | _ => (d.onBn b (fun x => { x with seq := .selMaps w })).xlateStop b 8 a)
    | .value _, .translation a =>
      (match (d.bn b).seq with
       | .selMaps _ => d
       | _ => (d.onBn b (fun x => { x with seq := .selMaps w })).xlateStop b 8 a)
    | .uncorrectable p, _ => (d.onBn b (fun x => { x with seq := .faulted })).readFault b (selId w) p
    | .value _, .uncorrectable p => (d.onBn b (fun x => { x with seq := .faulted })).readFault b (selId w) p

/-! ### The bench sequencer (03 R566) -/

/-- The queue of a record type: 0 lane row, 1 awl, 2 last, 3 vector engine, 8 + c channel c, 20 handled by the sequencer. -/
def queueOf (w : List W64) : Option Nat :=
  let t := recType w
  if t = 0x10 then some 0
  else if (0x20 ≤ t ∧ t ≤ 0x26) ∨ t = 0x38 then some 1
  else if t = 0x40 then some 2
  else if t = 0xA0 then some 3
  else if t = 0x50 then (if dmChan w < 8 then some (8 + dmChan w) else none)
  else if t = 0x30 ∨ t = 0x70 then some 20
  else none

/-- Records waiting in a queue. -/
def benchQueueLen (d : Dev) (b q : Nat) : Nat := if q < 8 then queueLen d b q else (d.chan b (q - 8)).queue.length

/-- Put a record into its queue; a descriptor keeps its place. -/
def benchEnqueue (d : Dev) (b q place : Nat) (w : List W64) : Dev :=
  if q < 8 then enqueue d b q { words := w }
  else d.onChan b (q - 8) (fun c => { c with queue := c.queue ++ [(w, some place)] })

/-- The sequencer reads the next record and places it in its queue, or takes it in hand itself (03 R566, 16 R565). -/
def fetchRecord (d : Dev) (b : Nat) : Dev :=
  if !(b < 144 && d.runs) then d else
  let x := d.bn b
  let placeOf (pos : Nat) : Nat := x.list + 64 * pos
  let read : Dev :=
    let (pos, skip) := afterSkip x.pos x.skip
    let a := placeOf pos
    match d.fetch a 8 with
    | .translation =>
      if x.seq = .translation then d else (d.onBn b (fun x => { x with seq := .translation })).xlateStop b 8 a
    | .uncorrectable p => (d.onBn b (fun x => { x with seq := .faulted })).readFault b 0 p
    | .words w =>
      let d := d.readJob a 64
      if recType w = 0 then d.onBn b (fun x => { x with seq := .idle })
      else
        let d := d.onBn b (fun x => { x with pos := pos + 1, skip := skip, seq := .running })
        match queueOf w with
        | none => seqFault d b (recId w) 0
        | some q =>
          if q = 20 then
            if recType w = 0x30 then d.onBn b (fun x => { x with seq := .ragged w })
            else if d.selOk w false x.list (pos + 1) then d.onBn b (fun x => { x with seq := .selFence w })
            else seqFault d b (selId w) 0
          else if 8 ≤ benchQueueLen d b q then d.onBn b (fun x => { x with seq := .full { words := w } q })
          else benchEnqueue d b q a w
  match x.seq with
  | .full it q =>
    if 8 ≤ benchQueueLen d b q then d
    else benchEnqueue (d.onBn b (fun x => { x with seq := .running })) b q (placeOf (x.pos - 1)) it.words
  | .running => read
  | .translation => read
  | _ => d

/-! ### The stash engine (10 R301 to R304) -/

abbrev stNewFrame (w : List W64) : Bool := bit (wd w 0) 55
abbrev stWait (w : List W64) : Bool := bit (wd w 0) 54
abbrev stArrive (w : List W64) : Bool := bit (wd w 0) 53
abbrev stFence (w : List W64) : Nat := fld (wd w 0) 52 37
abbrev stGroup (w : List W64) : Nat := fld (wd w 0) 36 25
abbrev stEntry (w : List W64) : Nat := fld (wd w 0) 24 13
abbrev stFe (w : List W64) : Nat := fld (wd w 0) 12 11
abbrev stFirst (w : List W64) : Bool := bit (wd w 0) 10
abbrev stAddr (w : List W64) : Nat := fld (wd w 1) 47 0
abbrev stBytes (w : List W64) : Nat := fld (wd w 2) 39 0
abbrev stId (w : List W64) : Nat := fld (wd w 3) 63 48

/-- The stash engine stops at a schedule fault (17 R470). -/
def stashFault (d : Dev) (k : Nat) (w : List W64) : Dev :=
  (d.onFloor k (fun f => { f with stash := .faulted, stashCur := none })).schedFault (144 + k) (stId w) 0

/-- The engine meets an address with no segment (16 R565). -/
def stashXlate (d : Dev) (k a : Nat) : Dev :=
  if (d.floor k).stash = .translation then d
  else (d.onFloor k (fun f => { f with stash := .translation })).xlateStop (144 + k) 8 a

/-- The engine meets an uncorrectable word. -/
def stashLost (d : Dev) (k recordId p : Nat) : Dev :=
  (d.onFloor k (fun f => { f with stash := .faulted, stashCur := none })).readFault (144 + k) recordId p

/-- The record at the head of floor k's stash list, or what stands in its way: a stop, the end mark, a type the list does
not take. -/
def stashHead (d : Dev) (k : Nat) : Dev × Option (List W64) :=
  let f := d.floor k
  if !(k < 8 && d.runs && d.get (Reg.ATTIC_CTRL_EN k) = 1 && (f.stash = .running || f.stash = .translation)) then (d, none)
  else
    let (pos, skip) := afterSkip f.stashPos f.stashSkip
    let d := d.onFloor k (fun f => { f with stashPos := pos, stashSkip := skip })
    match d.fetch (f.stashList + 64 * pos) 8 with
    | .translation => (stashXlate d k (f.stashList + 64 * pos), none)
    | .uncorrectable p => (stashLost d k 0 p, none)
    | .words w =>
      let t := recType w
      if t = 0 then (d.onFloor k (fun f => { f with stash := .idle }), none)
      else if t = 0x60 ∨ t = 0x61 ∨ t = 0x62 ∨ t = 0x70 then (d, some w)
      else (stashFault d k w, none)

/-- The record ends: ARRIVE if asked, and the list goes on (10 R301). -/
def stashEnd (d : Dev) (k : Nat) (w : List W64) : Dev :=
  let d := d.readJob ((d.floor k).stashList + 64 * (d.floor k).stashPos) 64
  let d := d.onFloor k (fun f => { f with stashPos := f.stashPos + 1, stash := .running, stashCur := none })
  if stArrive w then d.arrive (160 + k) (stFence w) else d

/-- A floor writes bytes of job memory that translate: the committed view of a running step refuses them (12 R329). -/
def Dev.jobWrite (d : Dev) (loc recordId a : Nat) (l : List Byte) : Dev × Bool :=
  match d.resolve loc spJob a true false with
  | .error _ => (d.schedFault loc recordId (a % 2 ^ 40), false)
  | .ok p =>
    match d.wrPhys p l with
    | (d, none) => (d, true)
    | (d, some w) => (d.memFault loc recordId w, false)

/-- Write words one after another, as long as each succeeds. -/
def Dev.jobWrites (d : Dev) (loc recordId : Nat) : List (Nat × W64) → Dev × Bool
  | [] => (d, true)
  | (a, v) :: t =>
    match d.jobWrite loc recordId a (wordBytes v) with
    | (d, true) => Dev.jobWrites d loc recordId t
    | (d, false) => (d, false)

/-- The attic of a floor: its control block, the entry and the map word that a record uses. -/
structure Attic where
  ctrl : Nat
  ringLog2 : Nat
  ring : Nat
  writePos : Nat
  consumePos : Nat
  entryAddr : Nat
  entry : List W64
  mapAddr : Nat
  map : W64
  deriving DecidableEq, Repr

/-- What reading the attic meets. -/
inductive AtticAt where
  | found (a : Attic)
  | translation (a : Nat)
  | uncorrectable (p : Nat)
  deriving DecidableEq, Repr

/-- What a record reads of the attic beside the control block (10 R303, R304). -/
structure AtticUse where
  entry : Bool := false
  map : Bool := false

/-- Read the attic for an entry and a group, as far as a record uses it (10 R302). -/
def Dev.attic (d : Dev) (k entry group : Nat) (u : AtticUse) : AtticAt :=
  let c := d.get (Reg.ATTIC_CTRL_CTRL_ADDR k)
  match d.fetch c 8 with
  | .words w =>
    let ea := (wd w 4).toNat % 2 ^ 48 + 16 * entry
    let ma := (wd w 5).toNat % 2 ^ 48 + 8 * (group / 64)
    match (if u.entry then d.fetch ea 2 else .words []), (if u.map then d.fetch ma 1 else .words []) with
    | .words e, .words m =>
      .found ⟨c, d.get (Reg.ATTIC_CTRL_RING_LOG2 k), (wd w 0).toNat % 2 ^ 48, (wd w 1).toNat, (wd w 2).toNat, ea, e, ma, wd m 0⟩
    | .translation, _ => .translation ea
    | .uncorrectable p, _ => .uncorrectable p
    | _, .translation => .translation ma
    | _, .uncorrectable p => .uncorrectable p
  | .translation => .translation c
  | .uncorrectable p => .uncorrectable p

/-- The words of the attic that a record uses are read. -/
def Dev.readAttic (d : Dev) (a : Attic) (u : AtticUse) : Dev :=
  let d := d.readJob a.ctrl 64
  let d := if u.entry then d.readJob a.entryAddr 16 else d
  if u.map then d.readJob a.mapAddr 8 else d

/-- Go on with the attic at hand, or stop the engine where it cannot be read. -/
def withAttic (d : Dev) (k : Nat) (w : List W64) (entry group : Nat) (u : AtticUse) (go : Dev → Attic → Dev) : Dev :=
  match d.attic k entry group u with
  | .found a => go (d.readAttic a u) a
  | .uncorrectable p => stashLost d k (stId w) p
  | .translation a => stashXlate d k a

/-- The descriptor that carries a stash or a recall on channel 7 (10 R303, R304). -/
def stashDesc (w : List W64) (fetch : Bool) (src srcWrap dst dstWrap bytes limit : Nat) : List W64 :=
  [packFlds [(63, 56, 0x50), (55, 54, 1), (53, 52, if fetch then 0 else stFe w), (51, 50, if fetch then stFe w else 0),
      (40, 40, 1), (33, 29, 7), (10, 9, 1), (8, 8, b2n (limit ≠ 0))],
   packFlds [(47, 0, src)], packFlds [(47, 0, dst)], packFlds [(63, 58, srcWrap), (57, 52, dstWrap), (39, 0, bytes)],
   packFlds [(47, 0, limit)], 0, packFlds [(63, 48, stId w), (47, 16, stEntry w * 2 ^ 20)], 0]

/-- Put a descriptor into channel 7 of floor k; a check that fails is a schedule fault. -/
def stashLaunch (d : Dev) (k : Nat) (w desc : List W64) : Dev :=
  match dmCheck (144 + k) 7 desc (Shape.ofWords []) (Shape.ofWords []) with
  | some _ => stashFault d k w
  | none =>
    let d := d.onChan (144 + k) 7 (fun c => { c with cur := some { words := desc, place := none } })
    let d := d.setReg (Reg.CH_STATE (144 + k) 7) (packFlds [(63, 60, 1), (55, 40, stId w)])
    let d := d.setReg (Reg.CH_DONE_MASK (144 + k) 7) 0
    d.onFloor k (fun f => { f with stashCur := some (w, true), stash := .running })

/-- The source slots that a dropped or skipped stash leaves unconsumed are set empty (10 R303). -/
def stashConsume (d : Dev) (w : List W64) (done : Nat) : Dev :=
  if stFe w ≠ 2 then d
  else match d.xlate (stAddr w) with
    | some x =>
      if x.phys < cellarEnd then d
      else if stBytes w ≤ done then d
      else d.setTags ((List.range ((x.phys + stBytes w - 1) / 512 + 1 - (x.phys + done) / 512)).map
        (fun i => slotOf (x.phys + done) + i)) false
    | none => d

/-- Bit `g` of a map word set to `v`. -/
def putMap (m : W64) (g : Nat) (v : Bool) : W64 := putFld m (g % 64) (g % 64) (b2n v)

/-- A stash begins, or is skipped (10 R303, steps 1 to 3). -/
def stashStart (d : Dev) (k : Nat) (w : List W64) : Dev :=
  if stBytes w = 0 || 2 < stFe w then stashFault d k w
  else if stWait w && !(d.fence (stFence w)).released then d
  else withAttic d k w (stEntry w) (stGroup w) { map := true } (fun d a =>
    let loc := 144 + k
    let desc := stashDesc w false (stAddr w) 0 (a.ring + a.writePos % 2 ^ a.ringLog2) a.ringLog2 (stBytes w) (a.ctrl + 24)
    if (dmCheck loc 7 desc (Shape.ofWords []) (Shape.ofWords [])).isSome then stashFault d k w
    else if bit a.map (stGroup w % 64) && !stFirst w then
      stashEnd (stashConsume (d.inc (Reg.ATTIC_COUNT_SKIPPED k)) w 0) k w
    else
      let limit := w64 (a.consumePos + 2 ^ 64 - a.writePos % 2 ^ 64)
      match d.jobWrites loc (stId w) (if stFirst w then [(a.mapAddr, putMap a.map (stGroup w) false)] else []) with
      | (d, false) => d.onFloor k (fun f => { f with stash := .faulted })
      | (d, true) =>
        if stNewFrame w && decide (64 ≤ (d.floor k).frames.length) then stashFault d k w
        else
          let d := if stNewFrame w then d.onFloor k (fun f => { f with frames := f.frames ++ [a.writePos] }) else d
          match d.jobWrites loc (stId w) [(a.ctrl + 24, limit)] with
          | (d, false) => d.onFloor k (fun f => { f with stash := .faulted })
          | (d, true) => stashLaunch d k w desc)

/-- A stash ends: completed, or dropped at its limit (10 R303, steps 4 and 5). -/
def stashFinish (d : Dev) (k : Nat) (w : List W64) : Dev :=
  let loc := 144 + k
  let cause := d.get (Reg.CH_STATE_STOP_CAUSE loc 7)
  let done := d.get (Reg.CH_STATE_PROGRESS loc 7)
  if cause ≠ 0 ∧ cause ≠ 8 then d.onFloor k (fun f => { f with stash := .faulted, stashCur := none })
  else withAttic d k w (stEntry w) (stGroup w) { map := decide (cause = 8) } (fun d a =>
    let drop : Bool := decide (cause = 8)
    let dir := [(a.entryAddr, w64 a.writePos), (a.entryAddr + 8, packFlds [(63, 24, stBytes w), (23, 23, b2n !drop)])]
    let rest := if drop then [(a.mapAddr, putMap a.map (stGroup w) true)]
      else [(a.ctrl + 8, w64 (a.writePos + roundUp (stBytes w) 4096))]
    match d.jobWrites loc (stId w) (dir ++ rest) with
    | (d, false) => d.onFloor k (fun f => { f with stash := .faulted, stashCur := none })
    | (d, true) =>
      if drop then stashEnd (stashConsume (d.inc (Reg.ATTIC_COUNT_DROPPED k)) w done) k w
      else stashEnd (d.inc (Reg.ATTIC_COUNT_STASHED k)) k w)

/-- The record in progress on channel 7 has ended. -/
def stashIdle7 (d : Dev) (k : Nat) : Bool := (d.chan (144 + k) 7).cur.isNone

/-- STASH: it begins, and once its descriptor has ended, it ends (10 R303). -/
def stashRun (d : Dev) (k : Nat) : Dev :=
  match (d.floor k).stashCur with
  | some (w, _) => if recType w = 0x60 && stashIdle7 d k && d.runs then stashFinish d k w else d
  | none =>
    match stashHead d k with
    | (d, some w) => if recType w = 0x60 then stashStart d k w else d
    | (d, none) => d

/-- RECALL: the entry's bytes come back from the ring, tallies checked (10 R304). -/
def recallRun (d : Dev) (k : Nat) : Dev :=
  match (d.floor k).stashCur with
  | some (w, _) =>
    if recType w = 0x61 && stashIdle7 d k && d.runs then
      (if d.get (Reg.CH_STATE_STOP_CAUSE (144 + k) 7) = 0 then stashEnd d k w
       else d.onFloor k (fun f => { f with stash := .faulted, stashCur := none }))
    else d
  | none =>
    match stashHead d k with
    | (d, some w) =>
      if recType w ≠ 0x61 then d
      else if 1 < stFe w then stashFault d k w
      else if stWait w && !(d.fence (stFence w)).released then d
      else withAttic d k w (stEntry w) 0 { entry := true } (fun d a =>
        if !bit (wd a.entry 1) 23 then stashFault d k w
        else stashLaunch d k w (stashDesc w true (a.ring + (wd a.entry 0).toNat % 2 ^ a.ringLog2) a.ringLog2 (stAddr w) 0
          (fld (wd a.entry 1) 63 24) 0))
    | (d, none) => d

/-- FREE: the oldest frame's bytes become free space (10 R304). -/
def freeRun (d : Dev) (k : Nat) : Dev :=
  match (d.floor k).stashCur with
  | some _ => d
  | none =>
    match stashHead d k with
    | (d, some w) =>
      if recType w ≠ 0x62 then d
      else if stWait w && !(d.fence (stFence w)).released then d
      else match (d.floor k).frames with
        | [] => stashFault d k w
        | _ :: rest =>
          withAttic d k w 0 0 {} (fun d a =>
            match d.jobWrites (144 + k) (stId w) [(a.ctrl + 16, w64 (rest.headD a.writePos))] with
            | (d, false) => d.onFloor k (fun f => { f with stash := .faulted })
            | (d, true) => stashEnd (d.onFloor k (fun f => { f with frames := rest })) k w)
    | (d, none) => d

/-- A floor's SELECT (11 R320, R323). -/
def floorSelect (d : Dev) (k : Nat) : Dev :=
  match (d.floor k).stashCur with
  | some _ => d
  | none =>
    match stashHead d k with
    | (d, some w) =>
      let next := (d.floor k).stashPos + 1
      let fail (d : Dev) : Dev := (d.onFloor k (fun f => { f with stash := .faulted })).schedFault (144 + k) (selId w) 0
      if recType w ≠ 0x70 then d
      else if !d.selOk w true (d.floor k).stashList next then fail d
      else if !(d.fence (selFence w)).released then d
      else
        let floors := onesOf 8 (selFloors w)
        let ckpt := if selCkptEn w then d.recomputeAny (selCkpt w) floors else .value false
        match d.recomputeAny (selGroup w) floors, ckpt with
        | .value own, .value ck =>
          let path := selPath (selForce w) (selCkptEn w) own ck
          let (pos, skip) := selGoes w path next
          ((d.readJob ((d.floor k).stashList + 64 * (d.floor k).stashPos) 64).readMaps w |>.countPath (144 + k) path w).onFloor k (fun f =>
            { f with stashPos := pos, stashSkip := skip.toList ++ f.stashSkip, stash := .running })
        | .translation a, _ => stashXlate d k a
        | .value _, .translation a => stashXlate d k a
        | .uncorrectable p, _ => stashLost d k (selId w) p
        | .value _, .uncorrectable p => stashLost d k (selId w) p
    | (d, none) => d

/-- SELECT at a location: a bench's sequencer or a floor's stash engine. -/
def selectRun (d : Dev) (loc : Nat) : Dev :=
  if loc < 144 then
    if !d.runs then d
    else match (d.bn loc).seq with
      | .selFence w => benchSelect d loc w
      | .selMaps w => benchSelect d loc w
      | _ => d
  else if loc < 152 then floorSelect d (loc - 144)
  else d

end Sys2Proof.Machine
end

