-- ==== Sys2Proof/Machine/BenchRows.lean ====
section
/-! DEFINITION. The rows of a bench (03 to 07, 11, 17).
Each meaning is one row of the table. -/

namespace Sys2Proof.Machine

/-- The record an engine has at hand. -/
def headWords (d : Dev) (b e : Nat) : List W64 := match engHead d b e with | some i => i.words | none => []

/-- A lane's contribution does not check: it is withheld and the row rerun from the hold buffer. The rerun changes no
result; its cycles are counted. Where its check fails too, nothing is accumulated: the record stops before the contribution, the
step is aborted and the lane becomes suspect (03 R101; 17 R467, R468, R471). -/
def laneMismatch (d : Dev) (b lane : Nat) (agrees : Bool) : Dev :=
  if b < 144 && lane < 256 && d.finishes && (d.bn b).lane.cur.isSome then
    let id := match (d.bn b).lane.cur with | some r => recId r.item.words | none => 0
    ((if agrees then d else laneStop d b).addCycles (Reg.INTEG_COUNT_RERUN_CYCLES b)).fault
      { kind := fkResidue, unit := b, recordId := id, lane := lane, site := lane, suspect := !agrees }
      (if agrees then dLocal else dAbort)
  else d

/-- The fault that a unit's mismatch is: its kind, unit and site (17 R465, R471). -/
def reformFault (wsum : Bool) : ReformUnit → FaultRec
  | .vector b => { kind := fkResidue, unit := b, site := 256 }
  | .awl b => { kind := if wsum then fkResidue else fkParity, unit := b, site := 257 }
  | .last b => { kind := fkParity, unit := b, site := 258 }
  | .router b => { kind := fkResidue, unit := b, site := 259 }
  | .channel loc _ => { kind := fkParity, unit := loc, site := 260 }
  | .former loc => { kind := fkParity, unit := loc, site := 261 }
  | .update k => { kind := fkResidue, unit := 144 + k }

/-- The unit is there. -/
def reformUnitOk : ReformUnit → Bool
  | .vector b => b < 144
  | .awl b => b < 144
  | .last b => b < 144
  | .router b => b < 144
  | .channel loc ch => loc ≤ 152 && ch < channelsOf loc
  | .former loc => loc ≤ 152
  | .update k => k < 8

/-- A unit withholds an output and forms it again from inputs it has not yet overwritten: nothing it writes changes
(17 R469, R471). -/
def outputReform (d : Dev) (u : ReformUnit) (recovered : Bool) : Dev :=
  if reformUnitOk u && !d.frozen then
    let w : Bool := match u with | .awl b => engType d b 0 = 0x26 | _ => false
    let f := reformFault w u
    let d := if f.unit < 152 then d.addCycles (Reg.INTEG_COUNT_RERUN_CYCLES f.unit) else d
    d.fault { f with suspect := !recovered } (if recovered then dLocal else dAbort)
  else d

/-- The bench sequencer reads the next record of its list and places it in its engine's queue, or handles it itself
(03 R566). -/
def execRecordFetch (b : Nat) (s : State) : Host.Outcome State Fault Refusal :=
  s.upd (fun d => fetchRecord d b)

/-- The lane row checks and runs an operation record chunk by chunk, accumulating and draining (03 R91). -/
def execLaneRowRecord (b : Nat) (s : State) : Host.Outcome State Fault Refusal :=
  s.upd (fun d => if b < 144 && d.finishes then laneRun d b else d)

/-- A stream row of a batch record arrives with every slot full and is taken, closing the batch once ROWS rows are
held (03 R95). -/
def execBatchRowArrive (b : Nat) (s : State) : Host.Outcome State Fault Refusal :=
  s.upd (fun d => if b < 144 && d.finishes then batchArrive d b else d)

/-- BATCH_TIMEOUT × 64 bench cycles pass after the first row, and the batch closes and runs its chunks (03 R95). -/
def execBatchTimeout (b : Nat) (s : State) : Host.Outcome State Fault Refusal :=
  s.upd (fun d => if b < 144 && d.finishes then batchTimeout d b false else d)

/-- A residue or duplicated-path mismatch withholds a row's contribution, and the row is rerun from the hold buffer
(17 R467). -/
def execLaneResidueMismatch (b lane : Nat) (agrees : Bool) (s : State) : Host.Outcome State Fault Refusal :=
  s.upd (fun d => laneMismatch d b lane agrees)

/-- Pairs with a COMPACTED lane-row record and emits packets of kept elements in the fixed order (04 R130). -/
def execCompact (b : Nat) (s : State) : Host.Outcome State Fault Refusal :=
  s.upd (fun d => if b < 144 && d.finishes then compactGo d b else d)

/-- Writes compressed tiles in the smallest of the BITMAP, LIST and DENSE encodings (04 R136). -/
def execCompress (b : Nat) (s : State) : Host.Outcome State Fault Refusal :=
  s.upd (fun d => if b < 144 && d.finishes && engType d b 0 = 0x21 then engRun 0 d b else d)

/-- Restores tiles to dense rows, with +0 for elements that are not kept (04 R139). -/
def execExpand (b : Nat) (s : State) : Host.Outcome State Fault Refusal :=
  s.upd (fun d => if b < 144 && d.finishes && engType d b 0 = 0x22 then engRun 0 d b else d)

/-- Copies indexed table rows to output rows, merging equal indices and optionally padding with a valid bitmap (04
R146). -/
def execGather (b : Nat) (s : State) : Host.Outcome State Fault Refusal :=
  s.upd (fun d => if b < 144 && d.finishes && engType d b 0 = 0x23 then engRun 0 d b else d)

/-- Adds source rows into indexed table rows in FP32, in index-list order (04 R147). -/
def execScatterAdd (b : Nat) (s : State) : Host.Outcome State Fault Refusal :=
  s.upd (fun d => if b < 144 && d.finishes && engType d b 0 = 0x24 then engRun 0 d b else d)

/-- Sorts keys stably and permutes the payload with them (04 R148). -/
def execSort (b : Nat) (s : State) : Host.Outcome State Fault Refusal :=
  s.upd (fun d => if b < 144 && d.finishes && engType d b 0 = 0x25 then engRun 0 d b else d)

/-- Forms each output element as an FP32 fused multiply-add chain over its contributions (04 R149). -/
def execWsum (b : Nat) (s : State) : Host.Outcome State Fault Refusal :=
  s.upd (fun d => if b < 144 && d.finishes && engType d b 0 = 0x26 then engRun 0 d b else d)

/-- Reads a group table and issues patched copies of its templates for each group, writing zeros for empty groups (05
R171). -/
def execRaggedLoop (b : Nat) (s : State) : Host.Outcome State Fault Refusal :=
  s.upd (fun d => if b < 144 && d.finishes then raggedRun d b else d)

/-- Ranks experts for each token, assigns slots under capacity and spill, and writes the dispatch outputs (05 R158). -/
def execRouteDispatch (b : Nat) (s : State) : Host.Outcome State Fault Refusal :=
  s.upd (fun d => if b < 144 && d.finishes && engType d b 0 = 0x38 && rtMode (headWords d b 0) = 0 then
    engRun 0 d b else d)

/-- Checks the segment headers and writes the collect index, group table and return table (05 R166). -/
def execRouteCollect (b : Nat) (s : State) : Host.Outcome State Fault Refusal :=
  s.upd (fun d => if b < 144 && d.finishes && engType d b 0 = 0x38 && rtMode (headWords d b 0) = 1 then
    engRun 0 d b else d)

/-- Runs an out-of-place transpose through the last, carrying or re-blocking scales (06 R201). -/
def execTranspose (b : Nat) (s : State) : Host.Outcome State Fault Refusal :=
  s.upd (fun d => if b < 144 && d.finishes && engType d b 1 = 0x40 && !trInPlace (headWords d b 1) then
    engRun 1 d b else d)

/-- Runs an in-place square transpose, swapping sub-tile pairs (06 R208). -/
def execTransposeInPlace (b : Nat) (s : State) : Host.Outcome State Fault Refusal :=
  s.upd (fun d => if b < 144 && d.finishes && engType d b 1 = 0x40 && trInPlace (headWords d b 1) then
    engRun 1 d b else d)

/-- Waits for its fence, reads the recompute maps, chooses path A, B or C and skips the others (11 R319). -/
def execSelect (loc : Nat) (s : State) : Host.Outcome State Fault Refusal :=
  s.upd (fun d => selectRun d loc)

/-- Checks a VECTOR record and runs its program at every element position of each row (02 R568). -/
def execVectorRecord (b : Nat) (s : State) : Host.Outcome State Fault Refusal :=
  s.upd (fun d => if b < 144 && d.finishes && engType d b 2 = 0xA0 then engRun 2 d b else d)

/-- A residue or parity mismatch in another unit withholds its output and forms it again (17 R469). -/
def execOutputReform (u : ReformUnit) (recovered : Bool) (s : State) : Host.Outcome State Fault Refusal :=
  s.upd (fun d => outputReform d u recovered)

/-- A waiting tagged access finds its tags and proceeds, and its tag changes apply after its last byte (07 R223). -/
def execTagWaitSatisfied (a : Access) (s : State) : Host.Outcome State Fault Refusal :=
  s.upd (fun d => execTagWaitSatisfiedOn d a)

/-- A tag wait of SLOT_TIMEOUT beats stops its record or descriptor with a SLOT_TIMEOUT fault (07 R225). -/
def execSlotTimeout (a : Access) (s : State) : Host.Outcome State Fault Refusal :=
  s.upd (fun d => execSlotTimeoutOn d a)

/-- A bank's scrubber reads its next line, corrects it and advances, or records a latent error (07 R220). -/
def execScratchpadScrubRead (b bank : Nat) (seen : List (Nat × Nat)) (s : State) : Host.Outcome State Fault Refusal :=
  s.upd (fun d => scratchScrub d b bank seen)

/-- A corrected word is written back in the bank's next cycle that no port uses, unless a port has written it (07
R218). -/
def execScratchpadEccWriteback (b off : Nat) (s : State) : Host.Outcome State Fault Refusal :=
  s.upd (fun d => scratchWriteback d b off)

end Sys2Proof.Machine
end

