-- ==== Sys2Proof/Machine/Update.lean ====
section
/-! DEFINITION. The parameter update engine: entries, element rules, carry, stochastic rounding, fingerprint hashes
(12 R326 to R344). -/

namespace Sys2Proof.Machine

abbrev ueKind (w : List W64) : Nat := fld (wd w 0) 55 54
abbrev ueFpEn (w : List W64) : Bool := bit (wd w 0) 53
abbrev ueWait (w : List W64) : Bool := bit (wd w 0) 52
abbrev ueArrive (w : List W64) : Bool := bit (wd w 0) 51
abbrev ueGroup (w : List W64) : Nat := fld (wd w 0) 47 40
abbrev ueE (w : List W64) : Nat := fld (wd w 0) 39 28
abbrev ueFence (w : List W64) : Nat := fld (wd w 0) 27 12
abbrev ueAuxFmt (w : List W64) : Nat := fld (wd w 0) 11 8
abbrev ueTensor (w : List W64) : Nat := fld (wd w 1) 63 32
abbrev ueElements (w : List W64) : Nat := fld (wd w 3) 63 24
abbrev ueState (w : List W64) : Nat := fld (wd w 4) 47 0
abbrev ueOscale (w : List W64) : Nat := fld (wd w 5) 63 32
abbrev ueId (w : List W64) : Nat := fld (wd w 6) 63 48
abbrev ueElemOff (w : List W64) : Nat := fld (wd w 6) 47 0

/-- Byte offset of section i of a granule: 0 W, 1 MST, 2 M, 3 V, 4 G, 5 A. -/
def ueOff (w : List W64) (i : Nat) : Nat := 32 * fld (wd w 2) (63 - 7 * i) (57 - 7 * i)

/-- Rules (12 R332). -/
abbrev ruSgd : Nat := 0
abbrev ruMomentum : Nat := 1
abbrev ruAdam : Nat := 2
abbrev ruSign : Nat := 3
abbrev ruOrtho : Nat := 4

/-- What an entry needs of its group record (12 R331). -/
structure Group where
  rule : Nat
  frozen : Bool
  skipIdle : Bool
  nesterov : Bool
  clipEn : Bool
  master : Bool
  wfmt : Nat
  mfmt : Nat
  vfmt : Nat
  gfmt : Nat
  wround : Nat
  sround : Nat
  sat : Bool
  beta1 : Nat
  beta2 : Nat
  eps : Nat
  decay : Nat
  clip : Nat
  deriving DecidableEq, Repr

/-- Read group record g. -/
def Dev.group (d : Dev) (g : Nat) : Group :=
  { rule := d.get (Reg.GROUP_W0_RULE g), frozen := d.get (Reg.GROUP_W0_FROZEN g) = 1
    skipIdle := d.get (Reg.GROUP_W0_SKIP_IF_IDLE g) = 1, nesterov := d.get (Reg.GROUP_W0_NESTEROV g) = 1
    clipEn := d.get (Reg.GROUP_W0_CLIP_EN g) = 1, master := d.get (Reg.GROUP_W0_MASTER g) = 1
    wfmt := d.get (Reg.GROUP_W0_WFMT g), mfmt := d.get (Reg.GROUP_W0_MFMT g), vfmt := d.get (Reg.GROUP_W0_VFMT g)
    gfmt := d.get (Reg.GROUP_W0_GFMT g), wround := d.get (Reg.GROUP_W0_WROUND g), sround := d.get (Reg.GROUP_W0_SROUND g)
    sat := d.get (Reg.GROUP_W0_SAT g) = 1, beta1 := d.get (Reg.GROUP_W1_BETA1 g), beta2 := d.get (Reg.GROUP_W1_BETA2 g)
    eps := d.get (Reg.GROUP_W2_EPS g), decay := d.get (Reg.GROUP_W2_DECAY g), clip := d.get (Reg.GROUP_W3_CLIP g) }

/-- The slot of the step in progress or next to start (12 R333, R335). -/
def Dev.stepSlot (d : Dev) : Nat := (d.get Reg.COMMIT_STATUS_T_COMMITTED + 1) % 2

/-- The step size of group g in the current slot. -/
def Dev.eta (d : Dev) (g : Nat) : Nat :=
  if g % 2 = 1 then d.get (Reg.STEP_SIZE_ODD d.stepSlot (g / 2)) else d.get (Reg.STEP_SIZE_EVEN d.stepSlot (g / 2))

/-- The clip factor of a group (12 R337). -/
def clipFactor (g : Group) (s n : Nat) : Nat :=
  if !g.clipEn then one32
  else if (dec32 s).isInf then 0
  else if (dec32 g.clip).lt (dec32 n) then fdiv g.clip n else one32

/-- powt of R338: x to the t by squaring, `k` bits of t left. -/
def powt : Nat → Nat → Nat → Nat → Nat
  | 0, r, _, _ => r
  | k + 1, r, x, t => if t = 0 then r else powt k (if t % 2 = 1 then fmul r x else r) (fmul x x) (t / 2)

/-- The per-step constants of a group (12 R338). -/
structure StepConst where
  cg : Nat
  k1 : Nat
  omb1c : Nat
  omb2c : Nat
  omb2l : Nat
  bc2 : Nat
  etat : Nat
  deriving DecidableEq, Repr

/-- Form the constants: every operation rounds to nearest even. -/
def stepConst (g : Group) (gradScale c eta t : Nat) : StepConst :=
  let cg := fmul gradScale c
  let omb1 := fsub one32 g.beta1
  let omb2 := fsub one32 g.beta2
  { cg := cg
    k1 := ffma (fneg eta) g.decay one32
    omb1c := fmul omb1 cg
    omb2c := fmul (fmul omb2 cg) cg
    omb2l := fmul omb2 cg
    bc2 := frcp (fsub one32 (powt 32 one32 g.beta2 t))
    etat := if g.rule = ruAdam then fmul eta (frcp (fsub one32 (powt 32 one32 g.beta1 t))) else eta }

/-- An operation with the counts of 02 R71. -/
def counted (r : Nat) (ops : List Nat) : Nat × Cnt := (r, cntOf (ops.map dec32) r)

/-- The counts of powt. -/
def powtCnt : Nat → Nat → Nat → Nat → Cnt
  | 0, _, _, _ => {}
  | k + 1, r, x, t =>
    if t = 0 then {} else
    let m := if t % 2 = 1 then (counted (fmul r x) [r, x]).2 else {}
    (m.add (counted (fmul x x) [x, x]).2).add (powtCnt k (if t % 2 = 1 then fmul r x else r) (fmul x x) (t / 2))

/-- The counts of a group's constants: those its rule uses (02 R71, 12 R338; log entry 81). -/
def stepCnt (g : Group) (gradScale c eta t : Nat) : Cnt :=
  let k := stepConst g gradScale c eta t
  let omb1 := fsub one32 g.beta1
  let omb2 := fsub one32 g.beta2
  let n (r : Nat) (ops : List Nat) : Cnt := (counted r ops).2
  let bias (b : Nat) : Cnt :=
    let p := powt 32 one32 b t
    ((powtCnt 32 one32 b t).add (n (fsub one32 p) [one32, p])).add (n (frcp (fsub one32 p)) [one32, fsub one32 p])
  let all := [n k.cg [gradScale, c], n k.k1 [fneg eta, g.decay, one32], n omb1 [one32, g.beta1], n k.omb1c [omb1, k.cg]]
  let adam := [n omb2 [one32, g.beta2], n (fmul omb2 k.cg) [omb2, k.cg], n k.omb2c [fmul omb2 k.cg, k.cg],
    bias g.beta2, bias g.beta1, n k.etat [eta, frcp (fsub one32 (powt 32 one32 g.beta1 t))]]
  let sign := [n omb2 [one32, g.beta2], n k.omb2l [omb2, k.cg]]
  Cnt.sum (all ++ (if g.rule = ruAdam then adam else if g.rule = ruSign then sign else []))

/-- What the constants of group number g are formed of at the current step: GRAD_SCALE, the clip factor, eta and t. -/
def Dev.constArgs (d : Dev) (i : Nat) : Nat × Nat × Nat × Nat :=
  (d.get (Reg.STEP_W1_GRAD_SCALE d.stepSlot), clipFactor (d.group i) (d.get Reg.NORM_S) (d.get Reg.NORM_N), d.eta i,
    d.get Reg.STEP_STATE_STEP)

/-- The constants of group number g at the current step. -/
def Dev.constOf (d : Dev) (i : Nat) : StepConst :=
  let (s, c, eta, t) := d.constArgs i
  stepConst (d.group i) s c eta t

/-- The counts of the constants of all 256 groups, which every floor computes before its list starts (12 R338). -/
def Dev.constCnt (d : Dev) : Cnt :=
  Cnt.sum ((List.range 256).map (fun i =>
    let (s, c, eta, t) := d.constArgs i
    stepCnt (d.group i) s c eta t))

/-- Operands of an element, as FP32 (12 R339). -/
structure UpdIn where
  p : Nat
  m : Nat
  v : Nat
  grad : Nat
  a : Nat
  deriving DecidableEq, Repr

/-- One element under a rule: the new p, m and v, with the counts of every operation (12 R339). `kind` is KIND of the
entry. -/
def updElem (g : Group) (k : StepConst) (kind oscale : Nat) (x : UpdIn) : (Nat × Nat × Nat) × Cnt :=
  let mulc (a b : Nat) : Nat × Cnt := counted (fmul a b) [a, b]
  let addc (a b : Nat) : Nat × Cnt := counted (fadd a b) [a, b]
  let fmac (a b c : Nat) : Nat × Cnt := counted (ffma a b c) [a, b, c]
  let finish (u m v : Nat) (n : Cnt) (etat : Nat) : (Nat × Nat × Nat) × Cnt :=
    let (q, n1) := mulc x.p k.k1
    let (p, n2) := fmac (fneg etat) u q
    ((p, m, v), (n.add n1).add n2)
  if g.rule = ruOrtho then
    if kind = 1 then
      let (gc, n0) := mulc x.grad k.cg
      let (m, n1) := fmac g.beta1 x.m gc
      ((x.p, m, x.v), n0.add n1)
    else
      let (u, n0) := mulc x.a oscale
      finish u x.m x.v n0 k.etat
  else if g.rule = ruSgd then
    let (u, n) := mulc x.grad k.cg
    finish u x.m x.v n k.etat
  else if g.rule = ruMomentum then
    let (gr, n0) := mulc x.grad k.cg
    let (m, n1) := fmac g.beta1 x.m gr
    if g.nesterov then
      let (u, n2) := fmac g.beta1 m gr
      finish u m x.v ((n0.add n1).add n2) k.etat
    else finish m m x.v (n0.add n1) k.etat
  else if g.rule = ruAdam then
    let (t0, n0) := mulc k.omb1c x.grad
    let (m, n1) := fmac g.beta1 x.m t0
    let (g2, n2) := mulc x.grad x.grad
    let (t1, n3) := mulc k.omb2c g2
    let (v, n4) := fmac g.beta2 x.v t1
    let (vb, n5) := mulc v k.bc2
    let (s, n6) := counted (fsqrt vb) [vb]
    let (e, n7) := addc s g.eps
    let (r, n8) := counted (frcp e) [e]
    let (u, n9) := mulc m r
    finish u m v (Cnt.sum [n0, n1, n2, n3, n4, n5, n6, n7, n8, n9]) k.etat
  else
    let (t0, n0) := mulc k.omb1c x.grad
    let (y, n1) := fmac g.beta1 x.m t0
    let yv := dec32 y
    let u := if yv.isNan then nan32 else if (dec32 0).lt yv then one32 else if yv.lt (dec32 0) then fneg one32 else 0
    let (t1, n2) := mulc k.omb2l x.grad
    let (m, n3) := fmac g.beta2 x.m t1
    finish u m x.v (Cnt.sum [n0, n1, n2, n3]) k.etat

/-! ### Entries -/

/-- The sections a rule uses (12 R332): section number and element bytes. -/
def ueSections (g : Group) (w : List W64) : List (Nat × Nat) :=
  [(0, fmtBits g.wfmt / 8)] ++ (if g.master then [(1, 4)] else []) ++
  (if g.rule = ruSgd then [] else [(2, fmtBits g.mfmt / 8)]) ++
  (if g.rule = ruAdam then [(3, fmtBits g.vfmt / 8)] else []) ++ [(4, fmtBits g.gfmt / 8)] ++
  (if g.rule = ruOrtho then [(5, fmtBits (ueAuxFmt w) / 8)] else [])

/-- The sections an entry writes, in fingerprint order (12 R339, R344). -/
def ueWrites (g : Group) (kind : Nat) : List Nat :=
  if kind = 1 then [2]
  else [0] ++ (if g.master then [1] else []) ++
    (if kind = 2 ∨ g.rule = ruSgd then [] else [2]) ++ (if kind = 0 ∧ g.rule = ruAdam then [3] else [])

/-- Granules of the tensor. -/
def ueGranules (w : List W64) : Nat := ceilDiv (ueElements w) (ueE w)

/-- Byte ranges of sections are disjoint. -/
def disjointRuns : List (Nat × Nat) → Bool
  | [] => true
  | p :: t => t.all (fun q => p.1 + p.2 ≤ q.1 || q.1 + q.2 ≤ p.1) && disjointRuns t

/-- The checks of R343. -/
def Dev.ueOk (d : Dev) (g : Group) (w : List W64) : Bool :=
  let runs := (ueSections g w).map (fun s => (ueOff w s.1, ueE w * s.2))
  let last_ := ueState w + 4096 * ueGranules w
  32 ≤ ueE w && ueE w ≤ 2048 && ueE w % 32 = 0 && ueState w % 4096 = 0 && decide (g.rule ≤ 4) &&
  (if g.rule = ruOrtho then ueKind w = 1 || ueKind w = 2 else ueKind w = 0) &&
  (g.rule ≠ ruOrtho || ueAuxFmt w = fmtFP32 || ueAuxFmt w = fmtBF16) &&
  runs.all (fun r => r.1 + r.2 ≤ 4096) && disjointRuns runs &&
  (ueElements w = 0 || (List.range ((last_ - 1) / 2 ^ 30 + 1 - ueState w / 2 ^ 30)).all (fun i =>
    match d.xlate ((ueState w / 2 ^ 30 + i) * 2 ^ 30) with
    | some x => x.view = 1
    | none => false))

/-- Read byte ranges of physical memory, or meet the first uncorrectable word. -/
def Dev.rdAll (d : Dev) : List (Nat × Nat) → Dev × Except Nat (List (List Byte))
  | [] => (d, .ok [])
  | (a, n) :: t =>
    match d.rdPhys a n with
    | (d, .error w) => (d, .error w)
    | (d, .ok l) =>
      match Dev.rdAll d t with
      | (d, .ok r) => (d, .ok (l :: r))
      | (d, .error w) => (d, .error w)

/-- Write byte strings to physical memory, or meet the first word that cannot be written in part. -/
def Dev.wrAll (d : Dev) : List (Nat × List Byte) → Dev × Option Nat
  | [] => (d, none)
  | (a, l) :: t =>
    match d.wrPhys a l with
    | (d, none) => Dev.wrAll d t
    | (d, some w) => (d, some w)

/-- The format of a section of an entry. -/
def secFmt (g : Group) (w : List W64) (s : Nat) : Nat :=
  match s with | 0 => g.wfmt | 1 => fmtFP32 | 2 => g.mfmt | 3 => g.vfmt | 4 => g.gfmt | _ => ueAuxFmt w

/-- The elements of a section's bytes as FP32 codes. No field of a group or an entry names block scaling, so FP8 gradients are
read as not block-scaled (DESIGN CHOICE, log entry 80). -/
def secVals (fmt : Nat) (l : List Byte) : List Nat :=
  (unpackElems (fmtBits fmt) (l.length / (fmtBits fmt / 8)) l).map (fun c => enc32 (decodeElem fmt false c))

/-- A floating result into a section (12 R339): MST as it is, W, M and V under their rounding with their draws. -/
def secStore (d : Dev) (g : Group) (w : List W64) (s first : Nat) (vals : List Nat) : List Byte × Cnt :=
  if s = 1 then (vals.flatMap (toLe 4), {})
  else
    let fmt := secFmt g w s
    let mode := rndOf (if s = 0 then g.wround else g.sround)
    let tensor := (ueTensor w + (if s = 0 then 0 else s)) % 2 ^ 32
    let rs := vals.zipIdx.map (fun p =>
      let r := if mode = .sr then draw (d.reg Reg.JOB_SEED).toNat tensor (ueElemOff w + first + p.2) (d.get Reg.STEP_STATE_STEP) else 0
      match fpFmt fmt with
      | some f => f.encode mode g.sat r (dec32 p.1)
      | none => (0, {}))
    (packElems (fmtBits fmt) (rs.map Prod.fst), Cnt.sum (rs.map Prod.snd))

/-- One granule (12 R328, R339, R340, R344). `c` and `q` are the physical addresses of its committed and pending views. -/
def granule (d : Dev) (k : Nat) (g : Group) (con : StepConst) (w : List W64) (gi c q : Nat) : Dev × Option Nat :=
  let n := min (ueE w) (ueElements w - gi * ueE w)
  let kind := ueKind w
  let bytes (s : Nat) : Nat := n * (fmtBits (secFmt g w s) / 8)
  let secs := (ueSections g w).map Prod.fst
  let writes := ueWrites g kind
  let at_ (s : Nat) : Nat × Nat := ((if 4 ≤ s then q else c) + ueOff w s, bytes s)
  -- ORTHO_MOMENTUM reads M and G; ORTHO_APPLY reads W or MST and A, and G to decide on a carry
  let reads := secs.filter (fun s =>
    if kind = 1 then s = 2 || s = 4
    else if kind = 2 then s = 0 || s = 1 || s = 5 || (s = 4 && g.skipIdle)
    else true)
  match d.rdAll (reads.map at_) with
  | (d, .error a) => (d, some a)
  | (d, .ok ls) =>
    let data := List.zip reads ls
    let raw (s : Nat) : List Byte := ((data.find? (fun p => p.1 = s)).map Prod.snd).getD []
    let idle := g.skipIdle && (unpackElems (fmtBits g.gfmt) n (raw 4)).all (fun e => e % 2 ^ (fmtBits g.gfmt - 1) = 0)
    let (out, cnt) : List (Nat × List Byte) × Cnt :=
      if idle then (writes.map (fun s => (s, d.bytes (at_ s).1 (bytes s))), {})
      else
        let vals (s : Nat) : List Nat := secVals (secFmt g w s) (raw s)
        let p := if g.master then vals 1 else vals 0
        let get (l : List Nat) (i : Nat) : Nat := l.getD i 0
        let m := vals 2
        let v := vals 3
        let gr := vals 4
        let a := vals 5
        let rs := (List.range n).map (fun i => updElem g con kind (ueOscale w) ⟨get p i, get m i, get v i, get gr i, get a i⟩)
        let pick (s : Nat) : List Nat := rs.map (fun r => if s ≤ 1 then r.1.1 else if s = 2 then r.1.2.1 else r.1.2.2)
        let stores := writes.map (fun s => (s, secStore d g w s (gi * ueE w) (pick s)))
        (stores.map (fun x => (x.1, x.2.1)), (Cnt.sum (rs.map Prod.snd)).add (Cnt.sum (stores.map (fun x => x.2.2))))
    match d.wrAll (out.map (fun x => (q + ueOff w x.1, x.2))) with
    | (d, some a) => (d, some a)
    | (d, none) =>
      let d := d.count (144 + k) cnt
      let d := d.inc (if idle then Reg.UPD_COUNT0_CARRIED k else Reg.UPD_COUNT0_UPDATED k)
      let h := if ueFpEn w then crc64 ((ueTensor w * 2 ^ 32 + gi % 2 ^ 32) % 2 ^ 64) (out.flatMap Prod.snd) else 0
      (d.onFloor k (fun f => { f with fp := f.fp + w64 h }), none)

/-- The granules of floor k, in ascending order. -/
def granules (k : Nat) (g : Group) (con : StepConst) (w : List W64) : List Nat → Dev → Dev × Option Nat
  | [], d => (d, none)
  | gi :: t, d =>
    let a := ueState w + 4096 * gi
    match d.xlate a, d.xlate (a + d.get Reg.COMMIT_CTRL_PENDING_DELTA * 2 ^ 30) with
    | some c, some q =>
      if cellarOf c.phys = k then
        match granule d k g con w gi c.phys q.phys with
        | (d, none) => granules k g con w t d
        | r => r
      else granules k g con w t d
    | _, _ => granules k g con w t d

/-- The update engine stops at a fault of its list. -/
def updStop (d : Dev) (k : Nat) : Dev := d.onFloor k (fun f => { f with upd := .faulted, updFault := true })

/-- The entry at the head of floor k's update list. -/
def updHead (d : Dev) (k : Nat) : Dev × Option (List W64) :=
  let f := d.floor k
  if !(k < 8 && d.runs && d.get Reg.STEP_STATE_PHASE = 1 && (f.upd = .running || f.upd = .translation)) then (d, none)
  else
    let a := f.updList + 64 * f.updPos
    match d.fetch a 8 with
    | .translation =>
      if f.upd = .translation then (d, none)
      else ((d.onFloor k (fun f => { f with upd := .translation })).xlateStop (144 + k) 9 a, none)
    | .uncorrectable p => ((updStop d k).readFault (144 + k) 0 p, none)
    | .words w =>
      if recType w = 0 then (d.onFloor k (fun f => { f with upd := .idle }), none)
      else if recType w ≠ 0x80 then ((updStop d k).schedFault (144 + k) (ueId w) 0, none)
      else (d.onFloor k (fun f => { f with upd := .running }), some w)

/-- Run the entry at the head of floor k's update list, if it has the given KIND (12 R338 to R343). -/
def updRun (kind : Nat) (d : Dev) (k : Nat) : Dev :=
  match updHead d k with
  | (d, none) => d
  | (d, some w) =>
    let next (d : Dev) : Dev :=
      let d := d.readJob ((d.floor k).updList + 64 * (d.floor k).updPos) 64
      let d := d.onFloor k (fun f => { f with updPos := f.updPos + 1 })
      if ueArrive w then d.arrive (160 + k) (ueFence w) else d
    let g := d.group (ueGroup w)
    if ueKind w ≠ kind && !(kind = 0 && ueKind w = 3) then d
    else if g.frozen then
      (if ueWait w && !(d.fence (ueFence w)).released then d else next (d.inc (Reg.UPD_COUNT1_FROZEN k)))
    else if !d.ueOk g w then (updStop d k).schedFault (144 + k) (ueId w) 0
    else if ueWait w && !(d.fence (ueFence w)).released then d
    else
      match granules k g (d.constOf (ueGroup w)) w (List.range (ueGranules w)) d with
      | (d, none) => next d
      | (d, some a) => (updStop d k).memFault (144 + k) (ueId w) a

end Sys2Proof.Machine
end

