-- ==== Sys2Proof/Machine/Tree.lean ====
section
/-! DEFINITION. The domain tree, polls and their results (13 R358, R365, R366), slips and release beats (01 R33, 08 R257,
R258). -/

namespace Sys2Proof.Machine

/-! ### The tree (13 R358) -/

/-- The port to the parent. -/
def Dev.parentPort (d : Dev) : Option Nat :=
  let p := d.get Reg.LAT_DOMAIN_PARENT_PORT
  if p < 12 then some p else none

/-- The lowest-numbered port in service whose partner is the given device; a port that retrains still holds its place in the
tree, and its messages wait for it. -/
def Dev.portTo (d : Dev) (i : Nat) : Option Nat :=
  findIdx (fun p => (d.portUp p || d.get (Reg.PORT_W0_STATE p) = 5) && d.get (Reg.PORT_W0_PARTNER p) = i) 12

/-- The children: index and port. Indices are numbered depth first, so the first child is the next index and each further
child follows the subtree of the one before it. -/
def Dev.kidsFrom (d : Dev) : Nat → Nat → List (Nat × Nat)
  | 0, _ => []
  | n + 1, i =>
    if d.get Reg.LAT_DOMAIN_SUBTREE_LAST < i then []
    else match d.portTo i with
      | some p => (i, p) :: Dev.kidsFrom d n (max i (d.port p).subLast + 1)
      | none => []

/-- The children of this device. -/
def Dev.kids (d : Dev) : List (Nat × Nat) := d.kidsFrom 12 (d.index + 1)

/-- The children's subtrees follow one another and fill this device's own (13 R358). -/
def Dev.treeNests (d : Dev) : Bool :=
  d.kids.foldl (fun _ k => max k.1 (d.port k.2).subLast + 1) (d.index + 1) = d.get Reg.LAT_DOMAIN_SUBTREE_LAST + 1

/-- A message to the parent. -/
def Dev.postUp (d : Dev) (prio : Nat) (w : List W64) : Dev :=
  match d.parentPort with | some p => d.postMsg p prio w | none => d

/-- A message to every child. -/
def Dev.postDown (d : Dev) (prio : Nat) (w : List W64) : Dev := d.kids.foldl (fun d k => d.postMsg k.2 prio w) d

/-- An addressed message: down to the child whose subtree holds its target, otherwise up (13 R358). -/
def Dev.postTo (d : Dev) (target prio : Nat) (w : List W64) : Dev :=
  match d.kids.find? (fun k => k.1 ≤ target && decide (target ≤ max k.1 (d.port k.2).subLast)) with
  | some k => d.postMsg k.2 prio w
  | none => d.postUp prio w

/-! ### Release beats and slips (01 R33, 08 R257, R258) -/

abbrev feRelease (w : W64) : Nat := fld w 63 24
abbrev feParticipants (w : W64) : Nat := fld w 23 12
abbrev feDomain (w : W64) : Bool := bit w 11
abbrev feAcceptSlip (w : W64) : Bool := bit w 10
abbrev feQuiesce (w : W64) : Bool := bit w 9
abbrev feStep (w : W64) : Bool := bit w 8

/-- Entry f of the fence table (13 R364). -/
def Dev.fenceEntry (d : Dev) (f : Nat) : W64 := d.reg (Reg.FENCE f)

/-- A release beat moved by slips in their order: a slip moves its own fence and every later one. -/
def slipBeat (f due : Nat) (l : List (Nat × Nat × Nat)) : Nat :=
  l.foldl (fun due s => if s.2.2 = f ∨ s.1 < due then due + s.2.1 else due) due

/-- The release beat of a fence, slips included (12 R335, 13 R364). -/
def Dev.dueOf (d : Dev) (f : Nat) : Nat :=
  let e := d.fenceEntry f
  if feStep e then slipBeat f (d.step.start + feRelease e) d.step.slips
  else slipBeat f (d.job.start + feRelease e) d.job.slips

/-- START_FENCE, 0 when the job has no steps. -/
def Dev.startFence (d : Dev) : Nat := d.get Reg.COMMIT_FENCES_START_FENCE

/-- The fence is one whose polls do not follow RELEASE_BEAT: fence 0 and START_FENCE (12 R335, 16 R447). -/
def Dev.specialFence (d : Dev) (f : Nat) : Bool := f = 0 || f = d.startFence

/-- Fences the image names: entries of the table that are not zero. -/
def Dev.namedFences (d : Dev) : List Nat :=
  ((d.regs.filter (fun e => decide (0xFF00100000 ≤ e.1) && decide (e.1 < 0xFF00200000) && e.1 % 16 = 0)).map
    (fun e => (e.1 - 0xFF00100000) / 16)).filter (fun f => !d.specialFence f)

/-- Fences still to be released: step fences only while a step runs. -/
def Dev.openFences (d : Dev) : List Nat :=
  d.namedFences.filter (fun f => !(d.fence f).released && (!feStep (d.fenceEntry f) || d.get Reg.STEP_STATE_PHASE = 1))

/-- The poll beat of a domain fence (13 R365). -/
def Dev.pollBeat (d : Dev) (f : Nat) : Nat := d.dueOf f - d.get Reg.LAT_DOMAIN_AGREE_BEATS

/-- The first fence, by release beat, that satisfies a test. -/
def Dev.firstFence (d : Dev) (p : Nat → Bool) : Option Nat :=
  (d.openFences.filter p).foldl (fun best f =>
    match best with
    | some g => if d.dueOf f < d.dueOf g then some f else best
    | none => some f) none

/-- A slip request of `beats` reaches the root: it is kept for the first domain fence that accepts slips and is polled at or
after this beat; a DEGRADE takes any domain fence (13 R365, R372). -/
def Dev.slipRequest (d : Dev) (beats : Nat) (any : Bool) : Dev :=
  match d.firstFence (fun f => feDomain (d.fenceEntry f) && (any || feAcceptSlip (d.fenceEntry f)) &&
      decide (d.beat ≤ d.pollBeat f)) with
  | some f => d.onFence f (fun x => { x with req := max x.req beats })
  | none => d

/-- SLIP is broadcast: the fence and every later one move; so does the close of an open vote when the fence's release beat
falls at or before it (08 R258, 12 R347). -/
def Dev.slip (d : Dev) (f beats : Nat) : Dev :=
  let due := if d.specialFence f then d.beat else d.dueOf f
  let s := (due, beats, f)
  let voting := d.get Reg.STEP_STATE_PHASE = 2
  let close := d.step.close
  let d := { d with
    job := { d.job with slips := d.job.slips ++ [s] }
    step := { d.step with slips := d.step.slips ++ [s], close := if voting && due ≤ close then close + beats else close }
    slipLeft := d.slipLeft + beats }
  (d.inc Reg.SYNC_COUNT_SLIPS).logEv 0 0x021 [packFlds [(15, 0, beats), (31, 16, f)]]

/-! ### Upward events wait for their leaf's writes (08 R254) -/

/-- The location of a leaf, by its rank. -/
def locOfRank (r : Nat) : Option Nat :=
  if 16 ≤ r ∧ r < 160 then some (r - 16) else if 160 ≤ r ∧ r < 168 then some (144 + (r - 160))
  else if r = 15 then some 152 else none

/-- A write that the leaf issued before packet number `after` is still unacknowledged. -/
def Dev.writesOut (d : Dev) (rank after : Nat) : Bool :=
  match locOfRank rank with
  | some l => d.net.pkts.any (fun p => p.loc = l && decide (p.id < after) && !(p.kind = 1 || p.kind = 2))
  | none => false

/-! ### Actions that fall due on one beat (01 R37, 08 R252) -/

/-- A flood of a KIND is due and has not been acted on. -/
def Dev.floodDue (d : Dev) (kind : Nat) : Bool :=
  d.lat.floods.any (fun f => f.kind = kind && !f.done && decide (max (d.effectBeat f) f.target ≤ d.beat))

/-- A poll's result that agrees a slip is due (13 R366). -/
def Dev.slipDue (d : Dev) : Bool :=
  d.lat.polls.any (fun h => h.2.own.isSome && decide (h.2.due ≤ d.beat) &&
    (match h.2.result with | some c => !c.ok || c.num ≠ 0 | none => false))

/-- A domain-wide action that the order of R37 puts before place `c` is due: 1 freeze, 2 step abort, 3 slip, 4 pre-emption, 5 the
close of a vote; place 6 stands for every other event of the beat. -/
def Dev.dueBefore (d : Dev) (c : Nat) : Bool :=
  (decide (1 < c) && (d.floodDue 3 || (match d.frz.pending with | some p => decide (p.1 ≤ d.beat) | none => false))) ||
  (decide (2 < c) && d.floodDue 1) ||
  (decide (3 < c) && (d.floodDue 0 || !d.job.agreedSlips.isEmpty || d.slipDue)) ||
  (decide (4 < c) && d.floodDue 2) ||
  (decide (5 < c) && d.js = jsRunning && d.get Reg.STEP_STATE_PHASE = 2 && decide (d.step.close ≤ d.beat))

/-! ### Polls (13 R365, R366) -/

/-- Contributions combined: READY by AND, slips by maximum, NONFINITE by OR, VALID by AND. -/
def combinePoll (a b : Contrib) : Contrib :=
  { ok := a.ok && b.ok, num := max a.num b.num
    flags := (if a.flags % 2 = 1 ∨ b.flags % 2 = 1 then 1 else 0) + (if a.flags / 2 % 2 = 1 ∧ b.flags / 2 % 2 = 1 then 2 else 0) }

/-- The words of a POLL or RESULT message. -/
def pollMsg (type origin f : Nat) (c : Contrib) : List W64 :=
  [msgHead type origin 0 0, packFlds [(63, 48, f), (47, 47, b2n c.ok), (31, 16, c.num), (15, 8, c.flags)], 0, 0]

/-- The contribution a POLL or RESULT message carries. -/
def contribOf (w : W64) : Contrib := ⟨bit w 47, fld w 31 16, fld w 15 8⟩

/-- Change the first poll of a list that satisfies a test; none when there is no such poll. -/
def onFirst (p : Nat × Poll → Bool) (f : Poll → Poll) : List (Nat × Poll) → Option (List (Nat × Poll))
  | [] => none
  | h :: t => if p h then some ((h.1, f h.2) :: t) else (onFirst p f t).map (h :: ·)

/-- Polls of a fence whose contributions are complete go up the tree, or become the result at device 0. -/
def Dev.pollProgress (d : Dev) (f : Nat) : Dev :=
  let kids := d.kids.map Prod.fst
  let ready (h : Nat × Poll) : Bool :=
    h.1 = f && h.2.own.isSome && !h.2.sent && kids.all (fun k => h.2.kids.any (fun c => c.1 = k))
  match d.lat.polls.find? ready with
  | none => d
  | some h =>
    let c := (h.2.kids.map Prod.snd).foldl combinePoll (h.2.own.getD ⟨false, 0, 0⟩)
    let root := d.parentPort.isNone
    let mark (p : Poll) : Poll := { p with sent := true, result := if root then some c else p.result }
    let d := { d with lat := { d.lat with polls := (onFirst ready mark d.lat.polls).getD d.lat.polls } }
    if root then d.postDown 4 (pollMsg 0x06 d.index f c) else d.postUp 4 (pollMsg 0x05 d.index f c)

/-- This device polls a fence for a release at `due`. -/
def Dev.pollOwn (d : Dev) (f due : Nat) (c : Contrib) : Dev :=
  let polls := match onFirst (fun h => h.1 = f && h.2.own.isNone) (fun p => { p with own := some c, due := due }) d.lat.polls with
    | some l => l
    | none => d.lat.polls ++ [(f, { due := due, own := some c })]
  ({ d with lat := { d.lat with polls := polls } }).pollProgress f

/-- A child's contribution to the oldest poll of the fence that still lacks it. -/
def Dev.pollKid (d : Dev) (f child : Nat) (c : Contrib) : Dev :=
  let polls := match onFirst (fun h => h.1 = f && !h.2.kids.any (fun x => x.1 = child))
      (fun p => { p with kids := p.kids ++ [(child, c)] }) d.lat.polls with
    | some l => l
    | none => d.lat.polls ++ [(f, { due := 0, kids := [(child, c)] })]
  ({ d with lat := { d.lat with polls := polls } }).pollProgress f

/-- A RESULT is taken and passed down. -/
def Dev.pollResult (d : Dev) (f : Nat) (c : Contrib) : Dev :=
  let polls := (onFirst (fun h => h.1 = f && h.2.sent && h.2.result.isNone) (fun p => { p with result := some c }) d.lat.polls).getD
    d.lat.polls
  ({ d with lat := { d.lat with polls := polls } }).postDown 4 (pollMsg 0x06 0 f c)

/-- Take the oldest poll of a fence off, once its result is here and its beat has come. -/
def Dev.takeResult (d : Dev) (f : Nat) : Option (Contrib × Nat × Dev) :=
  match d.lat.polls.find? (fun h => h.1 = f && h.2.own.isSome) with
  | some h =>
    match h.2.result with
    | some c =>
      if h.2.due ≤ d.beat then
        let drop : List (Nat × Poll) := d.lat.polls.takeWhile (fun x => !(x.1 = f && x.2.own.isSome)) ++
          (d.lat.polls.dropWhile (fun x => !(x.1 = f && x.2.own.isSome))).drop 1
        some (c, h.2.due, { d with lat := { d.lat with polls := drop } })
      else none
    | none => none
  | none => none

/-- Polls of a fence are given up. -/
def Dev.dropPolls (d : Dev) (f : Nat) : Dev := { d with lat := { d.lat with polls := d.lat.polls.filter (fun h => h.1 ≠ f) } }

/-- Every flit accepted before this beat has landed, and no phase that closes at the fence holds unsent flits (13 R355, R362). -/
def Dev.latReady (d : Dev) (f : Nat) : Bool :=
  d.lat.adds.all (fun x => x.1.1 = d.beat) &&
  (List.range 12).all (fun p => match (d.port p).phase with
    | some ph => fld (wd ph.words 0) 39 24 ≠ f || (fld (wd ph.words 0) 5 3 = 4 && (d.port p).reads.isEmpty)
    | none => true)

/-- VALID of the slot of the next step (12 R335). -/
def Dev.slotValid (d : Dev) : Bool := d.get (Reg.STEP_W0_VALID d.stepSlot) = 1

/-- The flags of a contribution as they stand (13 R365). -/
def Dev.pollFlags (d : Dev) : Nat := b2n ((List.range 8).any (fun k => (d.floor k).nonfinite)) + 2 * b2n d.slotValid

/-- This device's contribution at a fence. -/
def Dev.pollContrib (d : Dev) (f : Nat) : Contrib :=
  let x := d.fence f
  { ok := decide (feParticipants (d.fenceEntry f) ≤ x.arrived.length) && d.latReady f, num := x.req, flags := d.pollFlags }

end Sys2Proof.Machine
end

