-- ==== Sys2Proof/Machine/Commit.lean ====
section
/-! DEFINITION. Steps from start to close: start, snapshot, norm, fingerprints, vote, commit, replay, the end of the job
(11 R308 to R310, 12 R333 to R348, 13 R368, R369, 17 R474 to R478). -/

namespace Sys2Proof.Machine

/-! ### Lists (12 R335, 16 R444) -/

/-- Entry i of a list table. -/
abbrev listAt (l : List Nat) (i : Nat) : Nat := l.getD i 0

/-- A channel that serves a management command or the log. -/
def mgmtChan (key : Nat) : Bool := decide (key / 32 = 152) && decide (28 ≤ key % 32)

/-- Receive channels and the log drain, which have no list, take their standing descriptors unless they hold one (09 R262, 13 R378;
log entry 40). -/
def Dev.hubDescriptors (d : Dev) : Dev :=
  let give (m : SMap Chan) (ch : Nat) : SMap Chan :=
    let c : Chan := SMap.get (fun _ => {}) m (152 * 32 + ch)
    match Config.hubDescriptor d.job.digest ch with
    | none => m
    | some a =>
      match d.fetch a 8 with
      | .words w => if c.cur.isNone ∧ c.queue.isEmpty ∧ recType w = 0x50 ∧ dmForm w = 1 ∧ dmLimAct w = 0 then
          SMap.set (fun _ => {}) m (152 * 32 + ch) { c with queue := [(w, some a)] } else m
      | _ => m
  { d with chans := (((List.range 12).map (fun p => 2 * p + 1)) ++ [31]).foldl give d.chans }

/-- Every list of a table starts at its address; a reader that a fault stopped stands at its list again. -/
def Dev.startLists (d : Dev) (l : List Nat) : Dev :=
  let rd (a : Nat) : Reader := if a = 0 then .idle else .running
  let d : Dev := { d with chans := d.chans.map (fun e => if mgmtChan e.1 then e else (e.1, { e.2 with reader := .idle })) }
  let d := (List.range 144).foldl (fun d b => d.onBn b (fun x =>
    { x with list := listAt l b, pos := 0, skip := [], seq := if listAt l b = 0 then .idle else .running })) d
  let d := (List.range 4).foldl (fun d i => d.onChan 152 (24 + i) (fun c =>
    { c with list := listAt l (144 + i), pos := 0, reader := rd (listAt l (144 + i)) })) d
  let d := (List.range 12).foldl (fun d i => d.onPort i (fun p =>
    { p with list := listAt l (148 + i), pos := 0, reader := rd (listAt l (148 + i)) })) d
  let d := d.hubDescriptors
  (List.range 8).foldl (fun d k =>
    let d := (List.range 7).foldl (fun d c => d.onChan (144 + k) c (fun x =>
      { x with list := listAt l (160 + 8 * k + c), pos := 0, reader := rd (listAt l (160 + 8 * k + c)) })) d
    let s := listAt l (160 + 8 * k + 7)
    d.onFloor k (fun f => { f with stashList := s, stashPos := 0, stashSkip := [], stash := rd s
                                   updList := listAt l (224 + k), updPos := 0, upd := .idle })) d

/-- Every list has reached its end mark (12 R335). -/
def Dev.listsDone (d : Dev) : Bool :=
  d.bench.all (fun e => e.2.seq = .idle) && d.chans.all (fun e => e.2.reader = .idle || mgmtChan e.1) &&
  d.floors.all (fun e => e.2.stash = .idle) && d.lat.ports.all (fun e => e.2.reader = .idle)

/-! ### Operations that follow the step (15 R430, R432) -/

/-- The STEP operation of the step in progress. -/
def Dev.stepOp (d : Dev) : Option LongOp :=
  d.ops.find? (fun o => o.running && decide (basicOp o.opcode = 0x401) &&
    decide (fld (wd o.params 0) 63 32 = d.get Reg.STEP_STATE_STEP))

/-- Raise PROGRESS of the step's operation. -/
def Dev.stepProgress (d : Dev) (v : Nat) : Dev := match d.stepOp with | some o => d.progress o.slot v | none => d

/-- The result record of a vote close: STEP_STATE, COMMIT_STATUS, FINGERPRINT and NORM as they stand. -/
def Dev.stepRecord (d : Dev) : Dev :=
  match d.stepOp with
  | some o => d.addResult o.slot [d.reg Reg.STEP_STATE, d.reg Reg.COMMIT_STATUS, d.reg Reg.FINGERPRINT, d.reg Reg.NORM]
  | none => d

/-- The step's operation ends. -/
def Dev.stepOpEnd (d : Dev) (state err : Nat) : Dev :=
  match d.stepOp with | some o => d.opEnd o.slot state err | none => d

/-! ### The step's start (11 R308, R310; 12 R333 to R336) -/

/-- The step snapshot. -/
def Dev.takeSnap (d : Dev) : Snap :=
  { ctrl := (List.range 8).filterMap (fun k =>
      if d.get (Reg.ATTIC_CTRL_EN k) = 1 then
        match d.jobRuns (d.get (Reg.ATTIC_CTRL_CTRL_ADDR k) + 8) 24 with
        | some l => some (k, l.flatMap (fun r => d.bytes r.1.phys r.2))
        | none => none
      else none)
    frames := d.floors.map (fun e => (e.1, e.2.frames))
    stashPos := d.floors.map (fun e => (e.1, e.2.stashPos))
    rings := d.bench.map (fun e => (e.1, e.2.lane.sRing, e.2.lane.dRing))
    tags := d.tags }

/-- Restore the step snapshot. -/
def Dev.restoreSnap (d : Dev) : Dev :=
  match d.step.snap with
  | none => d
  | some s =>
    let d := s.ctrl.foldl (fun d p =>
      match d.jobRuns (d.get (Reg.ATTIC_CTRL_CTRL_ADDR p.1) + 8) 24 with
      | some l => d.wrRuns l p.2
      | none => d) d
    let find (l : List (Nat × List Nat)) (k : Nat) : List Nat := ((l.find? (fun p => p.1 = k)).map Prod.snd).getD []
    let d := (List.range 8).foldl (fun d k => d.onFloor k (fun f => { f with frames := find s.frames k })) d
    let d := (List.range 144).foldl (fun d b =>
      let r := ((s.rings.find? (fun p => p.1 = b)).map Prod.snd).getD (0, 0)
      d.onBn b (fun x => { x with lane := { x.lane with sRing := r.1, dRing := r.2 } })) d
    { d with tags := s.tags, tagErrs := [] }

/-- Channels that an abort stopped and that have not recorded their outcome do so (17 R475). -/
def Dev.endHalted (d : Dev) : Dev :=
  d.chans.foldl (fun d e =>
    if e.2.cur.any (fun r => r.stop = some 11) then d.finishChan (e.1 / 32) (e.1 % 32) 11 else d) d

/-- What a start and a replay start share: the phase, fences re-armed, lists restarted, floors cleared, T compared. -/
def Dev.beginStep (d : Dev) (replay : Bool) : Dev :=
  let t := d.get (Reg.STEP_W0_T d.stepSlot)
  let d := (d.set Reg.STEP_STATE_PHASE 1).set Reg.STEP_STATE_STEP t
  -- a STEP that still waits for its class runs from the step's start (15 R420, R432)
  let d := match d.ops.find? (fun o => !o.running && basicOp o.opcode = 0x401 && fld (wd o.params 0) 63 32 = t) with
    | some o => (d.setStatusFld o.slot 63 60 2).onOp o.slot (fun o => { o with running := true })
    | none => d
  let d := d.set Reg.STEP_STATE_REPLAYS (if replay then min 1023 (d.get Reg.STEP_STATE_REPLAYS + 1) else 0)
  let d := d.set Reg.COMMIT_STATUS_NONFINITE 0
  let d := { d with fences := d.fences.filter (fun e => !feStep (d.fenceEntry e.1) && decide (e.1 ≠ d.startFence)) }
  let d := { d with step := { start := d.beat, snap := d.step.snap, skips := d.step.skips } }
  let d := d.endHalted.startLists d.job.lists
  let d := (List.range 8).foldl (fun d k =>
    let skew : Bool := decide (t ≠ d.get (Reg.UPD_COUNTER_T_LOCAL k) + 1)
    let d := d.onFloor k (fun f =>
      { f with accum := 0, nonfinite := false, fp := 0, vote := none, updFault := false, skewed := skew })
    if skew then d.inc (Reg.UPD_COUNT1_SKEWS k) else d) d
  d.stepProgress 100

/-- STEP_START: START_FENCE has been released for the step. -/
def Dev.stepStart (d : Dev) : Dev :=
  if !(d.js = jsRunning && !d.frozen && d.startFence ≠ 0 && d.get Reg.STEP_STATE_PHASE = 0 && d.step.replayFrom.isNone &&
      (d.fence d.startFence).released) then d
  else
    let d := { d with step := { d.step with snap := some d.takeSnap } }
    d.beginStep false

/-! ### The clip norm (12 R337, 13 R368) -/

/-- A floor's accumulator, a multiple of 2^−298, rounded once to FP32. -/
def normRound (accum : Nat) : Nat := enc32 (.fin false accum (-298))

/-- The words of a NORM message. -/
def Dev.normMsg (d : Dev) (target s : Nat) : List W64 :=
  [msgHead 0x0A d.index target 0, w64 s, w64 (d.get Reg.COMMIT_CTRL_NORM_SET), 0]

/-- S is known: the clip norm is formed and the update lists start, unless NONFINITE stands. -/
def Dev.normDone (d : Dev) (s : Nat) : Dev :=
  let n := fmul (fabs (d.get (Reg.STEP_W1_GRAD_SCALE d.stepSlot))) (fsqrt s)
  let d := (d.set Reg.NORM_S s).set Reg.NORM_N n
  let d := { d with step := { d.step with normStage := 3 } }
  if d.get Reg.COMMIT_STATUS_NONFINITE = 1 then d
  else
    let n := d.constCnt
    (List.range 8).foldl (fun d k =>
      (d.onFloor k (fun f => { f with upd := if f.updList = 0 then .idle else .running })).count (144 + k) n) d

/-- This member's turn: its sum joins the running sum, which goes on to the next member or is S. -/
def Dev.normAdd (d : Dev) (sum : Nat) : Dev :=
  let next := d.get Reg.LAT_SETS_NORM_NEXT
  let d := { d with step := { d.step with normStage := 2 } }
  if next = d.index then
    let first := d.get Reg.LAT_SETS_NORM_FIRST
    -- S goes to every other device of the domain; those of other sets pass it over
    let others := (List.range (d.get Reg.LAT_DOMAIN_DOMAIN_LAST + 1)).filter (fun i => i ≠ d.index)
    let d := if first = d.index then d else others.foldl (fun d i => d.postTo i 5 (d.normMsg i sum)) d
    d.normDone sum
  else d.postTo next 5 (d.normMsg next sum)

/-- What a floor's rounding counts: a sum beyond FP32 makes an infinity (02 R71). -/
def normCnt (accum : Nat) : Cnt := if (dec32 (normRound accum)).isInf then { infs := 1 } else {}

/-- NORM_FENCE is released: floors round, the hub adds in floor order, the set's addition begins. The hub keeps no counter of
02 R71, so its additions count nothing (log entry 81). -/
def Dev.normOpen (d : Dev) (nonfinite : Bool) : Dev :=
  let d := d.set Reg.COMMIT_STATUS_NONFINITE (b2n nonfinite)
  let vals := (List.range 8).map (fun k => normRound (d.floor k).accum)
  let d : Dev := (List.range 8).foldl (fun d k => d.count (144 + k) (normCnt (d.floor k).accum)) d
  let sum := (vals.drop 1).foldl fadd (vals.headD 0)
  let d := { d with step := { d.step with normStage := 1, normSum := sum } }
  if d.get Reg.LAT_SETS_NORM_FIRST = d.index then d.normAdd sum else d

/-- A NORM message for this device. -/
def Dev.normArrive (d : Dev) (set s : Nat) : Dev :=
  if set ≠ d.get Reg.COMMIT_CTRL_NORM_SET || d.get Reg.STEP_STATE_PHASE ≠ 1 then d
  else if d.step.normStage = 1 then d.normAdd (fadd s d.step.normSum)
  else if d.step.normStage = 2 then d.normDone s
  else d

/-! ### Fingerprints and the vote (12 R344 to R347, 13 R369) -/

/-- The lower of two causes, none being zero. -/
def lowCause (a b : Nat) : Nat := if a = 0 then b else if b = 0 then a else min a b

/-- Votes combined: YES by AND, the lowest cause, flags by OR (13 R369). -/
def combineVote (a b : Contrib) : Contrib := { ok := a.ok && b.ok, num := lowCause a.num b.num, flags := a.flags ||| b.flags }

/-- A vote's flags: FP_DIFF in bit 1; a member of a fingerprint set with its NONFINITE flag set has bit 0, one without it
bit 2, so that members that differ leave both (12 R345; bits 0 and 2 are the model's, DESIGN CHOICE, log entry 78). -/
def voteFlags (alone nonfinite diff : Bool) : Nat :=
  (if alone then 0 else if nonfinite then 1 else 4) + (if diff then 2 else 0)

/-- A vote's flags say that members of a fingerprint set differ (12 R345). -/
def flagsDiffer (f : Nat) : Bool := f / 2 % 2 = 1 || (f % 2 = 1 && f / 4 % 2 = 1)

/-- The words of a VOTE or VOTE_RESULT message. -/
def voteMsg (type origin : Nat) (c : Contrib) : List W64 :=
  [msgHead type origin 0 0, packFlds [(63, 63, b2n c.ok), (59, 56, c.num), (15, 8, c.flags)], 0, 0]

/-- The contribution of a vote's word 1. -/
def voteOf (w : W64) : Contrib := ⟨bit w 63, fld w 59 56, fld w 15 8⟩

/-- The words of an FPRINT message: ORIGIN is the member whose fingerprint it carries. -/
def Dev.fpMsg (d : Dev) (origin round : Nat) (v : W64) : List W64 :=
  [msgHead 0x0B origin (d.get Reg.LAT_SETS_FP_NEXT) 0, v,
   packFlds [(9, 0, d.get Reg.COMMIT_CTRL_FP_SET), (17, 16, round)], 0]

/-- The agreement is complete and stands (13 R369). -/
def Dev.voteComplete (d : Dev) : Bool :=
  match d.step.agreed with
  | some (_, b) => decide (max b (d.step.opening + d.get Reg.LAT_DOMAIN_AGREE_BEATS) ≤ d.beat)
  | none => false

/-- This device's own vote, once every floor has voted and FP_DIFF is known. -/
def Dev.ownVote (d : Dev) : Option Contrib :=
  let votes := (List.range 8).map (fun k => (d.floor k).vote)
  match d.step.fpDiff with
  | some diff =>
    if votes.all Option.isSome then
      let cause := votes.foldl (fun c v => lowCause c (v.getD 0)) (if d.step.faulted then 1 else 0)
      some ⟨cause = 0, cause, voteFlags (d.get Reg.LAT_SETS_FP_NEXT = d.index) (d.get Reg.COMMIT_STATUS_NONFINITE = 1) diff⟩
    else none
  | none => none

/-- Send the combination of this device's vote and its children's, or make it the result at device 0; a changed vote goes
again as long as the agreement is not complete (12 R347). -/
def Dev.voteProgress (d : Dev) : Dev :=
  if d.get Reg.STEP_STATE_PHASE ≠ 2 || d.voteComplete then d else
  match d.ownVote with
  | none => d
  | some own =>
    let d := d.set Reg.COMMIT_STATUS_LOCAL_CAUSE own.num
    if !(d.kids.map Prod.fst).all (fun k => d.step.kids.any (fun c => c.1 = k)) then d
    else
      let c := (d.step.kids.map Prod.snd).foldl combineVote own
      if d.step.sentVote = some c then d
      else
        let d := { d with step := { d.step with sentVote := some c } }
        if d.parentPort.isNone then
          let at_ := match d.step.agreed with | some (_, b) => b | none => d.beat
          ({ d with step := { d.step with agreed := some (c, at_) } }).postDown 4 (voteMsg 0x08 d.index c)
        else d.postUp 4 (voteMsg 0x07 d.index c)

/-- The vote opens at VOTE_FENCE's release. -/
def Dev.voteOpen (d : Dev) : Dev :=
  let fp := (List.range 8).foldl (fun (s : W64) k => s + (d.floor k).fp) 0
  let d := (d.set Reg.STEP_STATE_PHASE 2).set Reg.FINGERPRINT_VALUE fp.toNat
  let next := d.get Reg.LAT_SETS_FP_NEXT
  let prev := d.get Reg.LAT_SETS_FP_PREV
  let diff := if prev = d.index then some false
    else match d.step.fpSeen with | (_, v) :: _ => some (decide (v ≠ fp)) | [] => none
  let d := { d with step := { d.step with
    opening := d.beat, close := d.beat + d.get Reg.COMMIT_CTRL_VOTE_BEATS, lateMoves := 0, fpDiff := diff
    sentVote := none, agreed := none } }
  let d := if next = d.index then d else d.postTo next 5 (d.fpMsg d.index 0 fp)
  d.stepProgress 900

/-- FLOOR_VOTE: no with the floor's lowest cause, or yes, once the floor's writes are acknowledged (08 R254, 12 R346). -/
def Dev.floorVote (d : Dev) (k : Nat) : Dev :=
  let f := d.floor k
  if !(k < 8 && d.js = jsRunning && !d.frozen && d.get Reg.STEP_STATE_PHASE = 2 && f.vote.isNone) ||
      d.writesOut (160 + k) d.net.nextId then d
  else
    let bad := d.get Reg.COMMIT_STATUS_NONFINITE = 1 && d.get (Reg.STEP_W0_NONFINITE_ACTION d.stepSlot) = 0
    let cause := if f.updFault || f.upd = .faulted then 1 else if f.skewed then 2 else if bad then 3 else 0
    (d.onFloor k (fun f => { f with vote := some cause })).voteProgress

/-- A member's fingerprint is judged once every member's is known (12 R345). -/
def Dev.fpJudge (d : Dev) : Dev :=
  let own := d.reg Reg.FINGERPRINT
  let all := own :: d.step.fpSeen.map Prod.snd
  if d.step.fpHeld || !d.step.fpSeen.any (fun p => p.1 = d.get Reg.LAT_SETS_FP_NEXT) then d
  else
    let d := { d with step := { d.step with fpHeld := true } }
    let major := all.find? (fun v => decide (all.length < 2 * (all.filter (· = v)).length))
    let minority := match major with | some v => decide (own ≠ v) | none => decide (∃ v ∈ all, v ≠ own)
    if minority then
      let d := (d.set Reg.COMMIT_STATUS_FP_MINORITY 1).set Reg.FAULT_STATUS_FP_MINORITY_SEEN 1
      d.fault { kind := fkFpMinority, unit := 152 } dAbort
    else d

/-- Round 1 begins on this device: every fingerprint received goes on around the ring. -/
def Dev.fpRound (d : Dev) : Dev :=
  let next := d.get Reg.LAT_SETS_FP_NEXT
  if d.step.fpRound1 || next = d.index then d
  else
    let d := { d with step := { d.step with fpRound1 := true } }
    let d := d.step.fpSeen.foldl (fun d p => if p.1 = next then d else d.postTo next 5 (d.fpMsg p.1 1 p.2)) d
    d.fpJudge

/-- An FPRINT message for this device (13 R369). -/
def Dev.fpArrive (d : Dev) (origin set round : Nat) (v : W64) : Dev :=
  if set ≠ d.get Reg.COMMIT_CTRL_FP_SET || origin = d.index then d
  else
    let seen := d.step.fpSeen.any (fun p => p.1 = origin)
    let d := if seen then d else { d with step := { d.step with fpSeen := d.step.fpSeen ++ [(origin, v)] } }
    if round = 0 then
      if d.get Reg.STEP_STATE_PHASE = 2 then
        ({ d with step := { d.step with fpDiff := some (decide (v ≠ d.reg Reg.FINGERPRINT)) } }).voteProgress
      else d
    else
      let begun := d.step.fpRound1
      let next := d.get Reg.LAT_SETS_FP_NEXT
      let d := d.fpRound
      let d := if begun && !seen && origin ≠ next then d.postTo next 5 (d.fpMsg origin 1 v) else d
      d.fpJudge

/-! ### Abort, replay, close (12 R348, 17 R475, R476) -/

/-- Every record, stash record, entry and phase of the step is abandoned where it stands; every channel issues no further
burst and stops with HALT, bursts that wait on a tag being given up; routers discard their matched sets (17 R475). Leave of
the abandoned records returns (18 R490). -/
def Dev.abandonWork (d : Dev) : Dev :=
  let granted := d.granted
  let eng (s : EngSt) : EngSt := { s with queue := [], cur := none }
  let d := d.chans.foldl (fun d e => d.abandonWaits (e.1 / 32) (e.1 % 32)) d
  let d : Dev := { d with
    granted := [], maxNeed := []
    bench := d.bench.map (fun e => (e.1, { e.2 with
      seq := .idle, skip := [], raggedSt := none, raggedWait := none
      lane := { e.2.lane with queue := [], cur := none, pre := none, drains := [], packets := [], chunkMasks := [] }
      awl := eng e.2.awl, last := eng e.2.last, vec := eng e.2.vec }))
    chans := d.chans.map (fun (e : Nat × Chan) =>
      (e.1, { e.2 with queue := [], reader := .idle, cur := e.2.cur.map (fun r => { r with stop := some 11, wait := none }) }))
    floors := d.floors.map (fun e => (e.1, { e.2 with stash := .idle, stashCur := none, stashSkip := [], upd := .idle }))
    net := { d.net with sets := [] }
    lat := { d.lat with
      ports := d.lat.ports.map (fun e => (e.1, { e.2 with reader := .idle, phase := none, lastBeat := none }))
      polls := [] }
    leaveQ := d.leaveQ.filter (fun r => decide (144 ≤ r.who)) }
  if granted = [] then d else d.refreshLeave

/-- A step is abandoned: the job ends, and JOB_RUN and the STEP operation end FAILED with 0x30 + DOMAIN_CAUSE (12 R348,
15 R430, R432). -/
def Dev.abandonStep (d : Dev) (cause : Nat) : Dev :=
  let d := d.abandonWork
  let d := (((d.set Reg.STEP_STATE_PHASE 0).set Reg.STEP_STATE_LAST_OUTCOME 2).set Reg.COMMIT_STATUS_DOMAIN_CAUSE cause)
  let d := { d with step := { d.step with replayFrom := none, replayAt := none, startPoll := none } }
  let d := (d.stepRecord).stepOpEnd stFailed (0x30 + cause)
  d.endJob stFailed (0x30 + cause) stAborted 0

/-- The first replay poll after an effect beat (17 R476). -/
def Dev.replayPollBeat (d : Dev) (e : Nat) : Nat :=
  max e (e + d.get Reg.INTEG_CTRL_REPLAY_GAP - d.get Reg.LAT_DOMAIN_AGREE_BEATS)

/-- The limit on replays has been met. -/
def Dev.replaysSpent (d : Dev) : Bool :=
  decide (d.get (Reg.STEP_W0_REPLAY_LIMIT d.stepSlot) ≤ d.get Reg.STEP_STATE_REPLAYS)

/-- The step is aborted with effect beat `e`: replayed, or abandoned when its replays are spent. -/
def Dev.abortStep (d : Dev) (e cause : Nat) : Dev :=
  if d.replaysSpent then d.abandonStep cause
  else
    let d := d.abandonWork
    { d with step := { d.step with replayFrom := some e, replayPoll := d.replayPollBeat e, replayAt := none } }

/-- ABORT takes effect: in a step, at once; with the job set aside, at its resume (17 R475, R479). -/
def Dev.abortEffect (d : Dev) (e : Nat) : Dev :=
  let phase := d.get Reg.STEP_STATE_PHASE
  if d.js = jsPreempting || d.js = jsPreempted || d.js = jsResuming then { d with job := { d.job with abortHeld := true } }
  else if d.js = jsRunning && (phase = 1 || phase = 2) && d.step.replayFrom.isNone then
    (d.set Reg.STEP_STATE_PHASE 1).abortStep e 1
  else d

/-- STEP_REPLAY_START: at the agreed beat the snapshot is restored and the step runs again (11 R310, 17 R476). -/
def Dev.replayStart (d : Dev) : Dev :=
  match d.step.replayAt with
  | some at_ =>
    if d.js = jsRunning && !d.frozen && decide (at_ ≤ d.beat) && !d.dueBefore 6 then (d.restoreSnap).beginStep true else d
  | none => d

/-- The commit record takes T_COMMITTED and COMMIT_PARITY in all three copies (17 R478). -/
def Dev.commitRecord (d : Dev) : Dev :=
  let c := (d.get Reg.COMMIT_STATUS_T_COMMITTED, d.get Reg.COMMIT_STATUS_COMMIT_PARITY)
  { d with boot := { d.boot with commitCopies := [c, c, c] } }

/-- The close is logged (21 R541). -/
def Dev.closeLog (d : Dev) (outcome : Nat) (abandoned : Bool) : Dev :=
  d.logEv 0 0x030 [packFlds [(1, 0, outcome), (2, 2, b2n abandoned), (7, 4, d.get Reg.COMMIT_STATUS_DOMAIN_CAUSE),
    (63, 32, d.get Reg.STEP_STATE_STEP)]]

/-- The image's end: JOB_RUN ends DONE (12 R335, 15 R430). -/
def Dev.imageEnd (d : Dev) : Dev := d.endJob stDone 0 stAborted 0

/-- A COMMITTED close (12 R334, R348). -/
def Dev.closeCommitted (d : Dev) : Dev :=
  let t := d.get Reg.STEP_STATE_STEP
  let slot := d.stepSlot
  let d := (d.set Reg.COMMIT_STATUS_COMMIT_PARITY (1 - d.get Reg.COMMIT_STATUS_COMMIT_PARITY)).set Reg.COMMIT_STATUS_T_COMMITTED t
  let d := (List.range 8).foldl (fun d k => d.set (Reg.UPD_COUNTER_T_LOCAL k) t) d
  let d := (d.set (Reg.STEP_W0_VALID slot) 0).commitRecord
  let d := ((d.set Reg.STEP_STATE_PHASE 0).set Reg.STEP_STATE_LAST_OUTCOME 1).set Reg.COMMIT_STATUS_SKIPPED 0
  let d := d.set Reg.COMMIT_STATUS_DOMAIN_CAUSE 0
  let d := { d with faults := { d.faults with suspects := [] }
                    step := { d.step with skips := 0, startPoll := some d.beat }
                    job := { d.job with committed := d.job.committed + 1 } }
  let d := (d.closeLog 0 false).stepRecord.stepOpEnd stDone 0
  let d : Dev := match d.runningOp 0x302 with | some o => d.setStatusFld o.slot 49 34 d.job.committed | none => d
  if d.job.steps ≠ 0 ∧ d.job.steps ≤ d.job.committed then d.imageEnd else d

/-- A SKIPPED close (12 R348). -/
def Dev.closeSkipped (d : Dev) : Dev :=
  let limit := d.get (Reg.STEP_W0_SKIP_LIMIT d.stepSlot)
  let d := d.set Reg.COMMIT_STATUS_SKIPPED 1
  if limit ≠ 0 ∧ limit ≤ d.step.skips then
    (d.set Reg.COMMIT_STATUS_DOMAIN_CAUSE 3 |>.closeLog 1 true).abandonStep 3
  else
    let d := (d.set Reg.STEP_STATE_PHASE 0).set Reg.STEP_STATE_LAST_OUTCOME 1
    let d := d.set Reg.COMMIT_STATUS_DOMAIN_CAUSE 0
    let d := { d with step := { d.step with skips := d.step.skips + 1, startPoll := some d.beat } }
    (d.closeLog 1 false).stepRecord

/-- An ABORTED close (12 R348). -/
def Dev.closeAborted (d : Dev) (cause : Nat) : Dev :=
  let d := (d.set Reg.COMMIT_STATUS_DOMAIN_CAUSE cause).set Reg.COMMIT_STATUS_SKIPPED 0
  let d : Dev := { d with step := { d.step with skips := 0 } }
  if d.replaysSpent then (d.closeLog 2 true).abandonStep cause
  else
    let d := (d.set Reg.STEP_STATE_PHASE 0).set Reg.STEP_STATE_LAST_OUTCOME 2
    (d.closeLog 2 false).stepRecord.abortStep d.beat cause

/-- VOTE_CLOSE at the close beat, behind every other action that falls due on it (01 R37; 12 R347, R348). -/
def Dev.voteClose (d : Dev) : Dev :=
  if !(d.js = jsRunning && !d.frozen && d.get Reg.STEP_STATE_PHASE = 2 && decide (d.step.close ≤ d.beat)) || d.dueBefore 5 then d
  else
    let d := d.set Reg.COMMIT_STATUS_FP_MINORITY 0
    match if d.voteComplete then d.step.agreed else none with
    | some (c, _) =>
      let diff := flagsDiffer c.flags
      let cause := lowCause c.num (if diff then 4 else 0)
      if c.ok ∧ ¬ diff then
        if d.get Reg.COMMIT_STATUS_NONFINITE = 1 ∧ d.get (Reg.STEP_W0_NONFINITE_ACTION d.stepSlot) = 1 then d.closeSkipped
        else d.closeCommitted
      else
        let own := d.step.fpDiff = some true
        let d := d.closeAborted (if cause = 0 then 1 else cause)
        if own then d.fpRound else d
    | none =>
      if d.step.lateMoves < d.get Reg.COMMIT_CTRL_VOTE_LATE_LIMIT then
        { d with step := { d.step with close := d.step.close + 1, lateMoves := d.step.lateMoves + 1 } }
      else d.closeAborted 5

end Sys2Proof.Machine
end

