-- ==== Sys2Proof/Machine/Sync.lean ====
section
/-! DEFINITION. The sync root: arrivals, releases, late fences, slips, polls and results; pre-emption from its flood to the
quiesce point; the join beat (08 R249 to R259, 13 R364 to R366, 16 R447 to R449, R454). -/

namespace Sys2Proof.Machine

/-! ### Arrivals (08 R254, R257) -/

/-- The rank an upward event comes from. -/
def UpEvent.from_ : UpEvent → Nat
  | .arrive r _ _ => r
  | .slipReq r _ _ _ => r

/-- Take the oldest upward event of a rank, if it is the given one. -/
def Dev.takeUp (d : Dev) (rank : Nat) (p : UpEvent → Bool) : Option (UpEvent × Dev) :=
  match d.upq.find? (fun e => e.from_ = rank) with
  | some e => if p e then some (e, { d with upq := d.upq.erase e }) else none
  | none => none

/-- SYNC_ARRIVE: the root accepts a leaf's ARRIVE; one that comes after the release has no effect. -/
def Dev.syncArrive (d : Dev) (rank fence : Nat) : Dev :=
  if d.paused || d.js = jsPreempted then d
  else match d.takeUp rank (fun e => match e with | .arrive _ f _ => f = fence | _ => false) with
    | some (.arrive _ _ after, d') =>
      if d.writesOut rank after then d
      else if (d'.fence fence).released then d'
      else d'.onFence fence (fun x => { x with arrived := if x.arrived.contains rank then x.arrived else x.arrived ++ [rank] })
    | _ => d

/-! ### Quiesce (08 R259, 09 R287, 16 R449) -/

/-- A descriptor that runs to completion at a pre-emption: a reduction, or one with a REMOTE end (09 R287). -/
def runsOut (w : List W64) : Bool := dmOp w ≠ 0 || dmDstSp w = spRemote || dmSrcSp w = spRemote

/-- The quiesce fence is released: PREEMPTING, channels stop with PREEMPT and give up the bursts that wait on a tag, open
batches close. -/
def Dev.enterPreempting (d : Dev) (f : Nat) : Dev :=
  let d := (d.setJs jsPreempting).set Reg.JOB_STATE_QUIESCE_FENCE f
  let d : Dev := { d with
    job := { d.job with quiesced := [], quiesceBeat := d.beat, preempt := false, preemptFence := none, preemptAt := none }
    chans := d.chans.map (fun (e : Nat × Chan) => (e.1, { e.2 with cur := e.2.cur.map (fun r =>
      if runsOut r.words || r.stop.isSome then r else { r with stop := some 9, wait := none }) })) }
  let d := d.chans.foldl (fun d (e : Nat × Chan) => match e.2.cur with
    | some r => if runsOut r.words || r.stop ≠ some 9 then d else d.abandonWaits (e.1 / 32) (e.1 % 32)
    | none => d) d
  (d.bench.map Prod.fst).foldl (fun d b => batchTimeout d b true) d

/-- A fence is released, and what waits on its release begins. -/
def Dev.releaseFence (d : Dev) (f : Nat) (nonfinite : Bool) : Dev :=
  let d := d.onFence f (fun x => { x with released := true, relBeat := d.beat })
  let phase := d.get Reg.STEP_STATE_PHASE
  let d := if f ≠ 0 && f = d.get Reg.COMMIT_FENCES_NORM_FENCE && phase = 1 && d.step.normStage = 0 then d.normOpen nonfinite else d
  let d := if f ≠ 0 && f = d.get Reg.COMMIT_FENCES_VOTE_FENCE && phase = 1 then d.voteOpen else d
  if d.job.preemptFence = some f && d.js = jsRunning then d.enterPreempting f else d

/-- Fences move only while the job runs, behind every domain-wide action that falls due on the beat (01 R37, 08 R252). -/
def Dev.fencesMove (d : Dev) : Bool := d.js = jsRunning && !d.paused && !d.dueBefore 6

/-- A fence is still to be released: a step fence only in a running step. -/
def Dev.fenceOpen (d : Dev) (f : Nat) : Bool :=
  !(d.fence f).released && (!feStep (d.fenceEntry f) || (d.get Reg.STEP_STATE_PHASE = 1 && d.step.replayFrom.isNone))

/-- A fence of the given entry can be released now. -/
def Dev.fenceLive (d : Dev) (f : Nat) : Bool := d.fencesMove && d.fenceOpen f

/-- FENCE_RELEASE of a local fence: released, or late (08 R257, 13 R364). -/
def Dev.fenceRelease (d : Dev) (f : Nat) : Dev :=
  let e := d.fenceEntry f
  if feDomain e || d.specialFence f || !d.fenceLive f || decide (d.beat < d.dueOf f) then d
  else
    let x := d.fence f
    if feParticipants e ≤ x.arrived.length then
      d.releaseFence f ((List.range 8).any (fun k => (d.floor k).nonfinite))
    else
      let first := x.firstDue.getD d.beat
      let d := if x.firstDue.isNone then d.inc Reg.SYNC_COUNT_LATE_FENCES else d
      (d.onFence f (fun x => { x with firstDue := some first })).slipRequest (d.beat - first + 1) false

/-- SYNC_TIMEOUT: a fence unreleased FENCE_LATE_LIMIT beats after its first release beat is a fault, once (08 R257). -/
def Dev.syncTimeout (d : Dev) (f : Nat) : Dev :=
  let x := d.fence f
  match x.firstDue with
  | some t =>
    if d.fenceLive f && !x.timedOut && decide (t + d.get Reg.SYNC_CTRL_FENCE_LATE_LIMIT ≤ d.beat) then
      (d.onFence f (fun x => { x with timedOut := true })).fault { kind := fkSyncTimeout, unit := 152, addr := f } dAbort
    else d
  | none => d

/-- SLIP_REQ: an overrun notice reaches the root (13 R365). -/
def Dev.slipReq (d : Dev) (rank beats record : Nat) : Dev :=
  if d.paused then d
  else match d.takeUp rank (fun e => match e with | .slipReq _ b r _ => b = beats && r = record | _ => false) with
    | some (.slipReq _ _ _ after, d') =>
      if d.writesOut rank after then d else if d'.js = jsRunning then d'.slipRequest beats false else d'
    | _ => d

/-- SLIP: an agreed slip is broadcast, behind a freeze or an abort due on the beat (01 R37). -/
def Dev.slipOut (d : Dev) (fence beats : Nat) : Dev :=
  if d.paused || !d.job.agreedSlips.contains (fence, beats) || d.dueBefore 3 then d
  else
    ({ d with job := { d.job with agreedSlips := d.job.agreedSlips.erase (fence, beats) } }).slip fence beats

/-! ### Polls and results (13 R365, R366; 12 R335; 16 R447; 17 R476) -/

/-- The fence of a join: fence 0 for a start, the quiesce fence for a resume or after a thaw (16 R447, 21 R534). -/
def Dev.joinFence (d : Dev) : Nat := if d.job.joinKind = 0 then 0 else d.get Reg.JOB_STATE_QUIESCE_FENCE

/-- The next poll beat for a join: AGREE_BEATS before a multiple of 1,024 beats, later than this beat. -/
def Dev.nextJoinPoll (d : Dev) : Nat :=
  let a := d.get Reg.LAT_DOMAIN_AGREE_BEATS
  (d.beat + a) / 1024 * 1024 + 1024 - a

/-- A network is empty of a location's packets and of the routers' own, and no reduction holds a partial set (08 R259). -/
def Dev.leafClear (d : Dev) (l : Nat) : Bool :=
  !d.net.pkts.any (fun p => p.loc = l || p.loc = noLoc || p.targets.any (fun t => t.2.1 = l)) && d.net.sets.isEmpty

/-- Every leaf meets R259's condition and every accepted flit has landed (17 R476). -/
def Dev.replayReady (d : Dev) : Bool := d.net.pkts.isEmpty && d.net.sets.isEmpty && d.lat.adds.isEmpty

/-- The beat residual lies within 8 ns (21 R534); device 0 has none. -/
def Dev.aligned (d : Dev) : Bool :=
  match d.parentPort with
  | some p => let e := d.get (Reg.PORT_W0_BEAT_ERROR p); decide (e ≤ 64) || decide (65536 - 64 ≤ e)
  | none => true

/-- The device is ready to join: its die and floor PLLs are locked, and after a thaw every used port is UP or DEGRADED and
the beat is aligned (16 R447, 18 R496, 21 R534). -/
def Dev.readyToJoin (d : Dev) : Bool :=
  d.job.joinReady && d.unlocked.isEmpty &&
  (d.job.joinKind ≠ 2 ||
    ((List.range 12).all (fun p => let s := d.get (Reg.PORT_W0_STATE p); s = 0 || s = 3 || s = 4 || s = 7) && d.aligned))

/-- DOMAIN_FENCE_POLL. -/
def Dev.fencePoll (d : Dev) (f : Nat) : Dev :=
  let agree := d.get Reg.LAT_DOMAIN_AGREE_BEATS
  if d.frozen then d
  else match d.job.joinPoll with
  | some b =>
    if f = d.joinFence ∧ b ≤ d.beat then
      ({ d with job := { d.job with joinPoll := none } }).pollOwn f (d.beat + agree) ⟨d.readyToJoin, 0, d.pollFlags⟩
    else d
  | none =>
    if !d.fencesMove then d
    else if f ≠ 0 && f = d.startFence then
      match d.step.replayFrom, d.step.startPoll with
      | some _, _ =>
        if d.step.replayPoll ≤ d.beat ∧ d.step.replayAt.isNone then
          ({ d with step := { d.step with replayPoll := d.beat + 1 } }).pollOwn f (d.beat + agree) ⟨d.replayReady, 0, d.pollFlags⟩
        else d
      | none, some b =>
        if b ≤ d.beat ∧ d.get Reg.STEP_STATE_PHASE = 0 then
          let c := d.pollContrib f
          ({ d with step := { d.step with startPoll := some (d.beat + 1) } }).pollOwn f (d.beat + agree) { c with ok := c.ok && d.slotValid }
        else d
      | none, none => d
    else if f ≠ 0 && feDomain (d.fenceEntry f) && d.fenceLive f && decide (d.pollBeat f ≤ d.beat) &&
        !d.lat.polls.any (fun h => h.1 = f && h.2.own.isSome) then
      let c := d.pollContrib f
      (d.onFence f (fun x => { x with req := 0 })).pollOwn f (max (d.dueOf f) d.beat) c
    else d

/-- DOMAIN_FENCE_RESULT: a slip takes its place behind freeze and abort, a release behind every action of R37; the fence of a
step that has been aborted is passed over. -/
def Dev.fenceResult (d : Dev) (f : Nat) : Dev :=
  if d.frozen then d
  else match d.takeResult f with
  | none => d
  | some (c, due, d') =>
    let joining : Bool := (d.js = jsLoaded || d.js = jsPreempted || d.js = jsResuming || d.frz.wasRunning) && f = d.joinFence && d.job.joinAt.isNone
    if joining then
      if c.ok then { d' with job := { d'.job with joinAt := some due } }
      else { d' with job := { d'.job with joinPoll := some d'.nextJoinPoll } }
    else if !(d.js = jsRunning && !d.paused) || !d.job.agreedSlips.isEmpty || d.dueBefore 3 || d.floodDue 0 ||
        (c.num = 0 && c.ok && (d'.dueBefore 6 || d.floodDue 2)) then d
    else if f ≠ 0 && f = d.startFence then
      match d.step.replayFrom with
      | some _ => if c.ok then ({ d' with step := { d'.step with replayAt := some due } }).dropPolls f else d'
      | none =>
        if c.ok ∧ c.num = 0 ∧ c.flags / 2 % 2 = 1 then
          (({ d' with step := { d'.step with startPoll := none } }).dropPolls f).releaseFence f false
        else if c.num = 0 then d'
        else { d' with job := { d'.job with agreedSlips := d'.job.agreedSlips ++ [(f, max c.num (d.get Reg.LAT_DOMAIN_AGREE_BEATS))] } }
    else if !d'.fenceOpen f then d'
    else if c.ok ∧ c.num = 0 then d'.releaseFence f (c.flags % 2 = 1)
    else
      let n := max c.num (d.get Reg.LAT_DOMAIN_AGREE_BEATS)
      let d' := d'.onFence f (fun x => { x with firstDue := some (x.firstDue.getD due) })
      { d' with job := { d'.job with agreedSlips := d'.job.agreedSlips ++ [(f, n)] } }

/-! ### Pre-emption's effect and the leaves' reports (13 R370, 16 R449, 08 R259) -/

/-- PREEMPT takes effect: the quiesce fence is chosen, the first polled at or after this beat, or the one a command named. -/
def Dev.preemptEffect (d : Dev) : Dev :=
  if d.js ≠ jsRunning || d.job.preemptFence.isSome then d
  else
    let quiet (f : Nat) : Bool := feDomain (d.fenceEntry f) && feQuiesce (d.fenceEntry f) && decide (d.beat ≤ d.pollBeat f)
    let named := match d.job.preemptAt with
      | some f => if quiet f && !(d.fence f).released then some f else none
      | none => none
    let pick := match named with
      | some f => some f
      | none => d.firstFence quiet
    { d with job := { d.job with preempt := true, preemptFence := pick } }

/-- With a pre-emption pending and no fence to stop at yet, the next quiesce fence is chosen when one opens. -/
def Dev.preemptRetry (d : Dev) : Dev :=
  if d.job.preempt && d.job.preemptFence.isNone && d.js = jsRunning then d.preemptEffect else d

/-- A channel has stopped, or holds nothing. -/
def Dev.chanQuiet (d : Dev) (l ch : Nat) : Bool :=
  match (d.chan l ch).cur with
  | none => true
  | some r => r.stop.isSome && d.get (Reg.CH_STATE_STATE l ch) = 3

/-- A ragged loop is in progress: no quiesce point lies inside it (05 R175, 07 R227). -/
def Bench.looping (x : Bench) : Bool := x.raggedSt.isSome || x.raggedWait.isSome

/-- A leaf has stopped at the quiesce point with its networks empty. -/
def Dev.leafQuiet (d : Dev) (rank : Nat) : Bool :=
  match locOfRank rank with
  | none => true
  | some l =>
    d.leafClear l && (List.range (channelsOf l)).all (d.chanQuiet l) &&
    (144 ≤ l || (let x := d.bn l
      x.lane.cur.isNone && x.lane.drains.isEmpty && x.awl.cur.isNone && x.last.cur.isNone && x.vec.cur.isNone && !x.looping))

/-- The leaves of the sync network but the root (08 R250, R251). -/
def leafRanks : List Nat := (List.range 167).map (· + 1)

/-- Every leaf has reported. -/
def Dev.allQuiet (d : Dev) : Bool := leafRanks.all (fun r => d.job.quiesced.contains r)

/-- QUIESCED of a leaf; with the last one the save begins, and the save record is made invalid first (16 R453). -/
def Dev.leafQuiesced (d : Dev) (rank : Nat) : Dev :=
  if !(d.js = jsPreempting && !d.frozen && decide (1 ≤ rank) && decide (rank ≤ 167) && !d.job.quiesced.contains rank &&
      d.leafQuiet rank) then d
  else
    let d := { d with job := { d.job with quiesced := d.job.quiesced ++ [rank] } }
    if d.allQuiet then
      match d.xlate (d.get Reg.JOB_SAVE_SAVE_ADDR) with
      | some x => d.wrWord x.phys 0
      | none => d
    else d

end Sys2Proof.Machine
end

