-- ==== Sys2Proof/Machine/RegWrite.lean ====
section
/-! DEFINITION. Writes of device control space: which address, which mask, which value, and when it takes effect
(00 R13 to R20, 15 R425, and the field maps of the chapters). -/

namespace Sys2Proof.Machine

/-- Result codes (15 R403). -/
abbrev rcOk : Nat := 0x00
abbrev rcAccepted : Nat := 0x01
abbrev rcBusy : Nat := 0x10
abbrev rcParameter : Nat := 0x11
abbrev rcAccess : Nat := 0x12
abbrev rcFormat : Nat := 0x13
abbrev rcAlignment : Nat := 0x14
abbrev rcOverlap : Nat := 0x15
abbrev rcWidth : Nat := 0x16
abbrev rcState : Nat := 0x17
abbrev rcTagInUse : Nat := 0x18
abbrev rcSeqAhead : Nat := 0x19
abbrev rcSeqStale : Nat := 0x1A
abbrev rcSession : Nat := 0x1B
abbrev rcBadVersion : Nat := 0x1C
abbrev rcUnknown : Nat := 0x1D
abbrev rcLength : Nat := 0x1E
abbrev rcAuth : Nat := 0x1F
abbrev rcUncorrectable : Nat := 0x20
abbrev rcTranslation : Nat := 0x21
abbrev rcTally : Nat := 0x22
abbrev rcLink : Nat := 0x23
abbrev rcFault : Nat := 0x24
abbrev rcReset : Nat := 0x25

/-- The register blocks that chapters define, as offsets of an area: first and beyond the last (15 R425). -/
def regBlocks : Area → List (Nat × Nat)
  | .hub => [(0x1000, 0x1300), (0x2000, 0x2100), (0x3000, 0x3500), (0x4000, 0x4200), (0x5000, 0xAA00), (0xB000, 0xB300),
      (0xC000, 0xC100), (0xD000, 0xD100), (0xE000, 0xE100), (0xF000, 0xF100), (0x10000, 0x11200), (0x100000, 0x200000)]
  | .bench => [(0x200, 0x318), (0x380, 0x398), (0x400, 0x480), (0x500, 0x508), (0x580, 0x800), (0x900, 0xA00),
      (0xB00, 0xC00), (0xD00, 0xE00)]
  | .floor => [(0x600, 0x1C00)]

/-- An address that a register command may name (15 R425). -/
def regAddrOk (a : Nat) : Bool :=
  a % 8 = 0 && (match areaOf a with
    | some (ar, o) => (regBlocks ar).any (fun p => p.1 ≤ o && decide (o < p.2))
    | none => false)

/-- The bench or floor of a control address. -/
def unitOfAddr (a : Nat) : Nat := a / 0x10000 % 0x100

/-- Bits of a word under a mask, taken from another. -/
def overlay (base v m : W64) : W64 := (base &&& ~~~m) ||| (v &&& m)

/-- A register with its staged writes laid over it (00 R18). -/
def Dev.stagedReg (d : Dev) (a : Nat) : W64 :=
  d.staged.foldl (fun w s => if s.1 = a then overlay w s.2.1 s.2.2 else w) (d.reg a)

/-- The bits of a mask that cover a field. -/
def FieldDesc.covered (f : FieldDesc) (m : W64) : W64 := m &&& fldMask f.hi f.lo

/-- A mask touches a field. -/
def FieldDesc.touched (f : FieldDesc) (m : W64) : Bool := f.covered m ≠ 0

/-! ### Busy blocks (00 R19) -/

/-- A bench has a record or descriptor in progress (07 R235). -/
def Dev.benchBusy (d : Dev) (b : Nat) : Bool :=
  let x := d.bn b
  x.lane.cur.isSome || !x.lane.drains.isEmpty || x.awl.cur.isSome || x.last.cur.isSome || x.vec.cur.isSome ||
    x.raggedSt.isSome || (List.range 8).any (fun c => (d.chan b c).cur.isSome)

/-- The location of a control address: bench, floor 144 + k, hub 152. -/
def locOfAddr (a : Nat) : Nat :=
  match areaOf a with
  | some (.bench, _) => unitOfAddr a
  | some (.floor, _) => 144 + unitOfAddr a
  | _ => 152

/-- The block of a register is busy. -/
def Dev.busyReg (d : Dev) (r : RegDesc) (a : Nat) : Bool :=
  match r.busy with
  | .never => false
  | .job => d.jobLoaded
  | .bench => d.benchBusy (unitOfAddr a)
  | .location => (List.range (channelsOf (locOfAddr a))).any (fun c => (d.chan (locOfAddr a) c).cur.isSome)
  | .group => decide (d.get Reg.STEP_STATE_PHASE = 1 ∨ d.get Reg.STEP_STATE_PHASE = 2)
  | .form => d.ops.any (fun o => decide (basicOp o.opcode = 0x103))
  | .stepSlot => false

/-! ### Values (00 R16 and the field maps) -/

/-- Some granule of an entry's tensor lies in a paired segment. -/
def Dev.entryPaired (d : Dev) (w : List W64) : Bool :=
  let a := ueState w
  let n := if ueE w = 0 then 1 else max 1 (ueGranules w)
  (List.range ((a + 4096 * n - 1) / 2 ^ 30 + 1 - a / 2 ^ 30)).any (fun i =>
    match d.xlate ((a / 2 ^ 30 + i) * 2 ^ 30) with | some x => decide (x.view ≠ 0) | none => false)

/-- A group's tensors in paired segments: some update list of a table holds an entry of the group with a granule in one (12 R330).
The lists are read as far as their end mark; an entry that cannot be read is passed over (log entry 86). -/
def Dev.groupPaired (d : Dev) (lists : List Nat) (g : Nat) : Bool :=
  let rec scan : Nat → Nat → Bool
    | 0, _ => false
    | n + 1, a =>
      match d.fetch a 8 with
      | .words w => if recType w = 0 then false else (ueGroup w = g && d.entryPaired w) || scan n (a + 64)
      | _ => scan n (a + 64)
  (List.range 8).any (fun k => let a := lists.getD (224 + k) 0; decide (a ≠ 0) && scan 65536 a)

/-- The refusal, if any, of a new value `v` of a register, of which the bits of `m` are written. -/
def Dev.valueBad (d : Dev) (r : RegDesc) (a : Nat) (v m : W64) : Option Nat :=
  let t (hi lo : Nat) : Bool := (m &&& fldMask hi lo) ≠ 0
  let f (hi lo : Nat) : Nat := fld v hi lo
  let bad (b : Bool) : Option Nat := if b then some rcParameter else none
  let zero (hi lo : Nat) : Bool := t hi lo && f hi lo = 0
  let out (hi lo x y : Nat) : Bool := t hi lo && !(decide (x ≤ f hi lo) && decide (f hi lo ≤ y))
  match r.name with
  | "LR_WIDTH" => bad (out 25 17 1 (d.get (Reg.LR_WIDTH_PRESENTED_WIDTH (unitOfAddr a))))
  | "SP_CTRL" => bad (zero 15 0)
  | "SYNC_CTRL" => bad (zero 31 16 || zero 15 0)
  | "DMA_CTRL" => bad (zero 15 0)
  | "CELLAR_CTRL" => bad (out 4 0 10 20)
  | "ATTIC_CTRL" =>
    bad (((t 63 63 || t 62 57) && f 63 63 = 1 && !(decide (20 ≤ f 62 57) && decide (f 62 57 ≤ 36))) || (t 47 0 && f 47 0 % 64 ≠ 0))
  | "GROUP_W0" =>
    if (t 54 51 && decide (4 < f 54 51)) || (t 50 47 && decide (4 < f 50 47)) || (t 46 43 && decide (4 < f 46 43)) ||
        (t 42 39 && decide (4 < f 42 39)) then some rcFormat
    else bad (out 63 60 0 4 || out 38 37 0 2 || out 36 35 0 2 || ((t 57 57 || t 63 60) && f 57 57 = 1 && f 63 60 ≠ 1) ||
      (t 59 59 && f 59 59 = 1 && d.groupPaired d.job.lists ((a - 0xFF00006000) / 64)))
  | "COMMIT_CTRL" => bad (zero 25 18 || zero 17 10)
  | "WIN_W0" =>
    bad (f 63 63 = 1 && (!(decide (12 ≤ f 59 54) && decide (f 59 54 ≤ 37)) || f 47 0 % 2 ^ f 59 54 ≠ 0))
  | "WIN_W1" => bad (bit (d.stagedReg (a - 8)) 63 && f 43 34 = 0)
  | "LAT_DOMAIN" =>
    bad (out 39 30 0 1023 || (t 43 40 && decide (12 ≤ f 43 40) && f 43 40 ≠ 15) || out 29 24 2 63 ||
      ((t 23 18 || t 29 24) && !(decide (1 ≤ f 23 18) && decide (f 23 18 < f 29 24))) || out 17 8 400 1023)
  | "HP_CTRL" =>
    bad (out 63 62 0 1 || ((t 61 61 || t 60 49) && f 61 61 = 1 && !(decide (1 ≤ f 60 49) && decide (f 60 49 ≤ 4094))) ||
      out 48 35 1518 9216 || (t 34 19 && (f 34 19 = 319 || f 34 19 = 320)))
  | "HP_MAC" => bad (t 47 0 && (bit v 40 || (d.get Reg.HP_CTRL_MODE = 1 && bit v 0)))
  | "INTEG_CTRL" => bad (zero 7 0)
  | "PWR_CTRL" =>
    bad (out 39 32 70 105 || out 28 16 4000 8000 ||
      (t 28 16 && decide (f 28 16 - d.get Reg.PWR_STATUS_BASE_RESERVE < d.standing)))
  | "LEAVE_TABLE" => bad (t 15 0 && decide (f 15 0 < f 47 32))
  | "BENCH_LEAVE" =>
    bad (t 63 48 && decide (d.poolCapacity < d.standing - d.get (Reg.BENCH_LEAVE_STANDING (unitOfAddr a)) + f 63 48))
  | "FRZ_CTRL" => bad ((t 63 62 && f 63 62 = 3) || (t 61 60 && f 61 60 = 3) || zero 26 11)
  | _ => none

/-- The bits of a register that a write may change, among those of a mask. -/
def RegDesc.writable (r : RegDesc) (m : W64) : W64 :=
  r.fields.foldl (fun w f => if f.acc = .ro then w else w ||| f.covered m) 0

/-- The value of a register after a write: W1C bits clear where a 1 is written (00 R13). -/
def RegDesc.after (r : RegDesc) (base v m : W64) : W64 :=
  r.fields.foldl (fun w f =>
    let c := f.covered m
    match f.acc with
    | .ro => w
    | .rw => overlay w v c
    | .w1c => w &&& ~~~(v &&& c)) base

/-- The refusal, if any, of a write of `v` under mask `m`; a load's own writes are never refused with BUSY (00 R13 to R20,
15 R414, R425, 16 R438). -/
def Dev.writeBad (d : Dev) (a : Nat) (v m : W64) (loading : Bool) : Option Nat :=
  if !regAddrOk a then some rcParameter
  else if (0xFF00005000 ≤ a ∧ a ≤ 0xFF00005FFF) ∨ (0xFF00010000 ≤ a ∧ a < 0xFF00010000 + 8 * 576) then some rcAccess
  else match findReg a with
  | none => none
  | some r =>
    if r.fields.any (fun f => f.touched m && f.covered m ≠ fldMask f.hi f.lo) then some rcParameter
    else if r.fields.any (fun f => f.touched m && f.acc = .ro) then some rcAccess
    else
      let staged := r.fields.any (fun f => f.cls = .s)
      match d.valueBad r a (r.after (if staged then d.stagedReg a else d.reg a) v m) (r.writable m) with
      | some c => some c
      | none => if !loading && r.fields.any (fun f => f.touched m && f.cls = .k) && d.busyReg r a then some rcBusy else none

/-- What follows a write of some registers: the pool, HELD, and MATCHES (18 R500, 21 R543). -/
def Dev.afterWrite (d : Dev) (r : RegDesc) (m : W64) : Dev :=
  match r.name with
  | "PWR_CTRL" => d.refreshLeave
  | "BENCH_LEAVE" => d.refreshLeave
  | "FRZ_CTRL" =>
    if r.fields.any (fun f => f.touched m && f.name ≠ "PIN_ACTION") then d.set Reg.FRZ_STATUS_MATCHES 0 else d
  | _ => d

/-- A write that no check refuses: classes L and K take effect at once, class S is staged (00 R17, R18). A register that
is not listed ignores it. -/
def Dev.writeReg (d : Dev) (a : Nat) (v m : W64) : Dev :=
  match findReg a with
  | none => d
  | some r =>
    let s := r.fields.foldl (fun w f => if f.cls = .s then w ||| f.covered m else w) 0
    let d := d.setReg a (r.after (d.reg a) v (m &&& ~~~s))
    let d := if s = 0 then d else { d with staged := d.staged ++ [(a, v &&& s, s)] }
    d.afterWrite r m

/-- Staged writes of a range of addresses take effect, for the bits of a mask (00 R17). -/
def Dev.takeStaged (d : Dev) (lo hi : Nat) (mask : Nat → W64) : Dev :=
  let mine := d.staged.filter (fun s => decide (lo ≤ s.1) && decide (s.1 < hi))
  let d := mine.foldl (fun d s => d.setReg s.1 (overlay (d.reg s.1) s.2.1 (s.2.2 &&& mask s.1))) d
  { d with staged := d.staged.filterMap (fun s =>
      if lo ≤ s.1 ∧ s.1 < hi then
        (let m := s.2.2 &&& ~~~(mask s.1); if m = 0 then none else some (s.1, s.2.1, m))
      else some s) }

/-- Several writes in listed order, all or none: the index of the first refused, or the state after all (00 R20). -/
def Dev.writeAll (d : Dev) (loading : Bool) : Nat → List (Nat × W64 × W64) → Except (Nat × Nat) Dev
  | _, [] => .ok d
  | i, (a, v, m) :: t =>
    match d.writeBad a v m loading with
    | some c => .error (i, c)
    | none => Dev.writeAll (d.writeReg a v m) loading (i + 1) t

/-- A window record takes its staged words at the start of a beat (13 R379). -/
def Dev.takeWindows (d : Dev) : Dev := d.takeStaged 0xFF0000A000 0xFF0000A800 (fun _ => ~~~0)

end Sys2Proof.Machine
end

