-- ==== Sys2Proof/Machine/Jobs.lean ====
section
/-! DEFINITION. Jobs: segment table writes, load, start and join, save, restore, unload (16 R437 to R458). -/

namespace Sys2Proof.Machine

/-! ### The segment table (16 R438, R439) -/

/-- A raw entry's reserved bits, and PHYS_B when unpaired. -/
def rawBad (w : W64) : Bool := fld w 43 20 ≠ 0 || (!segPaired w && segB w ≠ 0)

/-- A raw entry with its job segment filled in. -/
def rawEntry (seg : Nat) (w : W64) : W64 := putFld w 61 44 seg

/-- Job segments of the aperture and beyond. -/
abbrev apertureSeg : Nat := 0x3FC00

/-- No element twice. -/
def distinct (l : List Nat) : Bool := l.length = (uniq l).length

/-- Whether a set of valid entries breaks R439. -/
def tableBad (delta : Nat) (l : List W64) : Bool :=
  let segs := l.map segJob
  let phys := l.flatMap (fun w => if segPaired w then [segA w, segB w] else [segA w])
  !distinct segs || !distinct phys || phys.any (573 < ·) || segs.any (apertureSeg ≤ ·) ||
    l.any (fun w => segPaired w && (segs.contains (segJob w + delta) || decide (apertureSeg ≤ segJob w + delta)))

/-- Install a table. -/
def Dev.setTable (d : Dev) (l : List W64) : Dev :=
  let d := { d with regs := SMap.eraseRange d.regs 0xFF00010000 (0xFF00010000 + 8 * 576) }
  l.zipIdx.foldl (fun d p => d.setReg (Reg.SEGTAB p.2) p.1) d

/-- Busy entries may not change or go (16 R439). -/
def Dev.tableBusy (d : Dev) : Bool :=
  d.js = jsLoading || d.js = jsRunning || d.js = jsPreempting || d.js = jsResuming

/-- The table after one entry is written: entry `w` for a job segment, or none. -/
def putEntry (l : List W64) (seg : Nat) (w : Option W64) : List W64 :=
  match w with
  | some w => if l.any (fun e => segJob e = seg) then l.map (fun e => if segJob e = seg then w else e) else l ++ [w]
  | none => l.filter (fun e => segJob e ≠ seg)

/-- The burst at which a descriptor stopped on translation still has none (16 R441). -/
def Dev.stillUnmapped (d : Dev) (loc : Nat) (r : ChanRun) : Bool :=
  let lost {α : Type} (x : Except Nat α) : Bool := match x with | .error c => c = 1 | .ok _ => false
  (dmLimit r.words ≠ 0 && lost (d.readLimit r.words)) ||
  (match nextBurst r with
   | (r, some (pos, len)) => lost ((d.takeBurst loc r none pos len).mapError Prod.fst)
   | (_, none) => false)

/-- Channels stopped on translation try their burst again (16 R441); readers that wait on translation try theirs when they
next run (16 R565). -/
def Dev.retryTranslation (d : Dev) : Dev :=
  d.chans.foldl (fun d e =>
    let loc := e.1 / 32
    let ch := e.1 % 32
    match e.2.cur with
    | some r =>
      if r.stop = some 1 ∧ d.get (Reg.CH_STATE_STATE loc ch) = 3 then
        let d' := d.resumeChan loc ch
        match (d'.chan loc ch).cur with
        | some r' => if d'.stillUnmapped loc r' then d else d'
        | none => d
      else d
    | none => d) d

/-- A whole set of entry writes: the refusal, or the new table (16 R439). -/
def Dev.tableWrite (d : Dev) (l : List (Nat × Option W64)) : Except Nat (List W64) :=
  let old := d.segTable
  let new := l.foldl (fun t p => putEntry t p.1 p.2) old
  if tableBad (d.get Reg.COMMIT_CTRL_PENDING_DELTA) new then .error rcParameter
  else if d.tableBusy && old.any (fun e => !new.contains e) then .error rcBusy
  else .ok new

/-! ### The schedule image (16 R443 to R445) -/

/-- A load item. -/
structure LoadItem where
  kind : Nat
  addr : Nat
  len : Nat
  data : List Byte
  deriving DecidableEq, Repr

/-- Read `n` load items; none when one is malformed. -/
def readItems : Nat → List Byte → Option (List LoadItem)
  | 0, _ => some []
  | n + 1, l =>
    if l.length < 16 then none else
    let h := w64 (ofLe (l.take 8))
    let len := ofLe ((l.drop 8).take 8)
    let kind := fld h 63 56
    let addr := fld h 47 0
    let body := if kind = 2 then 0 else len
    let rest := l.drop 16
    if 2 < kind ∨ fld h 55 48 ≠ 0 ∨ rest.length < body then none
    else if kind = 0 ∧ (addr % 8 ≠ 0 ∨ len % 8 ≠ 0 ∨ 2 ^ 40 ≤ addr) then none
    else (readItems n (rest.drop (roundUp body 16))).map (LoadItem.mk kind addr len (rest.take body) :: ·)

/-- The register writes of a REGS item: whole words, of which only fields that software may write are touched; a register
with no such field is written whole, and refuses it. -/
def LoadItem.writes (i : LoadItem) : List (Nat × W64 × W64) :=
  if i.kind ≠ 0 then [] else
  (bytesWords (i.len / 8) i.data).zipIdx.map (fun p =>
    let a := i.addr + 8 * p.2
    let m := match findReg a with
      | some r => (let m := r.writable (~~~0); if m = 0 then ~~~0 else m)
      | none => ~~~0
    (a, p.1, m))

/-- A schedule image taken apart. -/
structure Image where
  head : List W64
  items : List LoadItem
  table : List W64
  lists : List Nat
  prologue : List Nat
  deriving DecidableEq, Repr

/-- The list table at an offset. -/
def readLists (img : List Byte) (off : Nat) : List Nat := (bytesWords 232 (img.drop off)).map BitVec.toNat

/-- The image's own table: job-segment words and raw entries; none when one is malformed. -/
def readTable : Nat → List Byte → Option (List W64)
  | 0, _ => some []
  | n + 1, l =>
    if l.length < 16 then none else
    let s := ofLe (l.take 8)
    let w := w64 (ofLe ((l.drop 8).take 8))
    if 2 ^ 18 ≤ s ∨ rawBad w then none
    else (readTable n (l.drop 16)).map (fun t => if bit w 63 then rawEntry s w :: t else t)

/-- A list table whose entries are aligned (16 R444). -/
def listsOk (img : List Byte) (off : Nat) : Bool :=
  decide (off + 8 * 232 ≤ img.length) && (readLists img off).all (fun a => a % 64 = 0 && decide (a < 2 ^ 48))

/-- The image, when its form, its reserved fields and its digest are right (16 R445, first check). -/
def readImage (img : List Byte) : Option Image :=
  let h := bytesWords 16 img
  let w (i : Nat) : W64 := wd h i
  let zeroed := img.take 64 ++ List.replicate 64 0 ++ img.drop 128
  let itemOff := fld (w 4) 39 0
  let segOff := fld (w 5) 39 0
  let listOff := fld (w 6) 39 0
  let proOff := fld (w 7) 39 0
  if img.length < 128 ∨ fld (w 0) 63 32 ≠ 0x4A4C3949 ∨ fld (w 0) 31 24 ≠ 1 ∨ 1 < fld (w 0) 3 2 ∨ fld (w 0) 1 0 ≠ 0 ∨
      fld (w 1) 44 0 ≠ 0 ∨ fld (w 3) 63 48 ≠ 0 ∨ fld (w 3) 11 0 ≠ 0 then none
  else if itemOff % 16 ≠ 0 ∨ segOff % 16 ≠ 0 ∨ listOff % 16 ≠ 0 ∨ proOff % 16 ≠ 0 then none
  else if fld (w 1) 54 45 = 0 ∨ 576 < fld (w 1) 54 45 then none
  else if shake256 64 zeroed ≠ (img.drop 64).take 64 then none
  else if !listsOk img listOff || (proOff ≠ 0 && !listsOk img proOff) then none
  else
    match readItems (fld (w 4) 63 40) (img.drop itemOff), readTable (fld (w 1) 54 45) (img.drop segOff) with
    | some items, some table =>
      some { head := h, items := items, table := table, lists := readLists img listOff
             prologue := if proOff = 0 then [] else readLists img proOff }
    | _, _ => none

/-- The census digest as a word (03 R108). -/
def Dev.censusDigest (d : Dev) : W64 :=
  w64 (ofLe (shake256 8 ((List.range 144).flatMap (fun b => toLe 32 (d.bypassMap b)))))

/-- A width declaration that this device cannot serve (03 R111). -/
def Dev.widthBad (d : Dev) (mode u : Nat) (census : W64) : Bool :=
  if mode = 0 then (List.range 144).any (fun b => decide (d.get (Reg.LR_WIDTH_PRESENTED_WIDTH b) < u))
  else decide (census ≠ d.censusDigest)

/-- The save area's size (16 R451). -/
abbrev saveSize : Nat := 0x51A81000

/-- Segments that a job range touches. -/
def segsOf (a n : Nat) : List Nat := if n = 0 then [] else (List.range ((a + n - 1) / 2 ^ 30 + 1 - a / 2 ^ 30)).map (· + a / 2 ^ 30)

/-- Quiesce points too far apart (16 R448): release beats in order, from 0. -/
def quiesceBad (beats : List Nat) : Bool :=
  let s := beats.mergeSort (· ≤ ·)
  (List.zip (0 :: s) s).any (fun p => decide (2000 < p.2 - p.1))

/-- Whether the fence table and COMMIT_FENCES break the load's rules (16 R445, R448). -/
def Dev.fencesBad (d : Dev) : Bool :=
  let sf := d.startFence
  let nf := d.get Reg.COMMIT_FENCES_NORM_FENCE
  let vf := d.get Reg.COMMIT_FENCES_VOTE_FENCE
  let step (f : Nat) : Bool := feStep (d.fenceEntry f)
  let quiet := d.namedFences.filter (fun f => feDomain (d.fenceEntry f) && feQuiesce (d.fenceEntry f))
  let beats (s : Bool) : List Nat := (quiet.filter (fun f => step f == s)).map (fun f => feRelease (d.fenceEntry f))
  quiesceBad (beats false) || quiesceBad (beats true) ||
  (sf ≠ 0 && (nf = 0 || vf = 0 || nf = sf || vf = sf || nf = vf || !step nf || !step vf)) ||
  step 0 || (sf ≠ 0 && step sf)

/-- Register ranges that no REGS item may write (16 R445). -/
def regsForbidden (a : Nat) : Bool :=
  (decide (0xFF0000C000 ≤ a) && decide (a < 0xFF0000C100)) || (decide (0xFF0000D000 ≤ a) && decide (a < 0xFF0000D100)) ||
  a = Reg.LAT_DOMAIN || (decide (0xFF00005000 ≤ a) && decide (a < 0xFF00006000)) ||
  (decide (0xFF00010000 ≤ a) && decide (a < 0xFF00010000 + 8 * 576))

/-- The save record at a physical address, when it is valid. -/
def Dev.saveRecord (d : Dev) (phys : Nat) : Option (List W64) :=
  let w := bytesWords 14 (d.bytes phys 112)
  if fld (wd w 0) 63 56 = 0x5A ∧ bit (wd w 0) 55 = true then some w else none

/-- A checked load: the image, the table in force, the register writes, and the save record of a parked job. -/
structure LoadPlan where
  img : Image
  table : List W64
  writes : List (Nat × W64 × W64)
  parked : Option (List W64)
  deriving DecidableEq, Repr

/-- The image's bytes, or the codes of a bad range and an uncorrectable word. -/
def Dev.readChecked (d : Dev) (a n : Nat) : Except Nat (List Byte) :=
  match d.badPhys a n with
  | some _ => .error rcUncorrectable
  | none => .ok (d.bytes a n)

/-- The table that JOB_LOAD_EX supplies: 576 raw entries (15 R429, 16 R438). -/
def Dev.suppliedTable (d : Dev) (a : Nat) : Except Nat (List W64) :=
  if cellarEnd < a + 4608 then .error rcParameter
  else match d.readChecked a 4608 with
    | .error c => .error c
    | .ok l =>
      let t := (bytesWords 576 l).filter (fun w => bit w 63)
      if t.any rawBad then .error rcParameter else .ok t

/-- The device as its registers and table would stand after a load's register writes, for the checks that look at them. -/
def Dev.afterLoad (d : Dev) (table : List W64) (writes : List (Nat × W64 × W64)) : Dev :=
  (writes.foldl (fun d w => d.writeReg w.1 w.2.1 w.2.2) (d.setTable table)).set Reg.COMMIT_STATUS_COMMIT_PARITY 0

/-- Apply one load item. -/
def Dev.applyItem (d : Dev) (i : LoadItem) : Dev :=
  if i.kind = 0 then i.writes.foldl (fun d w => d.writeReg w.1 w.2.1 w.2.2) d
  else match d.jobRuns i.addr i.len with
    | some l => if i.kind = 1 then d.wrRuns l i.data else l.foldl (fun d r => d.zeroRange r.1.phys r.2) d
    | none => d

/-- A group record write of a load that sets FROZEN on a group with tensors in paired segments, by the lists of the image
(12 R330). -/
def Dev.freezesPaired (d : Dev) (lists : List Nat) (writes : List (Nat × W64 × W64)) : Bool :=
  (List.range 256).any (fun g => writes.any (fun w => w.1 = Reg.GROUP_W0 g && bit w.2.1 59 && bit w.2.2 59) && d.groupPaired lists g)

/-- Two valid entries of a floor's norm table overlap (12 R336). -/
def Dev.normOverlap (d : Dev) (k : Nat) : Bool :=
  let l := ((List.range 256).filter (fun i => d.get (Reg.NORMTAB_W1_VALID k i) = 1)).map (fun i =>
    (d.get (Reg.NORMTAB_W0_TALLY_LO k i), d.get (Reg.NORMTAB_W0_TALLY_HI k i) - d.get (Reg.NORMTAB_W0_TALLY_LO k i)))
  !disjointRuns (l.filter (fun r => r.2 ≠ 0))

/-- The checks of a load, in the order of R445, and R457's (words of JOB_LOAD or JOB_LOAD_EX). -/
def Dev.loadCheck (d : Dev) (p : List W64) : Except Nat LoadPlan :=
  let a := fld (wd p 0) 39 0
  let n := fld (wd p 1) 39 0
  match d.readChecked a n with
  | .error c => .error c
  | .ok bytes =>
  match readImage bytes with
  | none => .error rcParameter
  | some img =>
    let h (i : Nat) : W64 := wd img.head i
    let writes := img.items.flatMap LoadItem.writes
    if fld (h 0) 23 14 ≠ d.index ∨ fld (h 0) 13 4 ≠ d.get Reg.LAT_DOMAIN_DOMAIN_LAST ∨ fld (wd p 3) 63 32 = 0 then .error rcParameter
    else if fld (h 0) 3 2 = 0 ∧ (fld (h 1) 63 55 = 0 ∨ 256 < fld (h 1) 63 55) then .error rcParameter
    else if d.widthBad (fld (h 0) 3 2) (fld (h 1) 63 55) (h 2) then .error rcWidth
    else
      match if p.length = 5 ∧ fld (wd p 4) 39 0 ≠ 0 then d.suppliedTable (fld (wd p 4) 39 0) else .ok img.table with
      | .error c => .error c
      | .ok table =>
        let d1 := d.afterLoad table writes
        let save := fld (h 3) 47 0
        let phys := table.flatMap (fun w => if segPaired w then [segA w, segB w] else [segA w])
        let data := img.items.filter (fun i => i.kind ≠ 0)
        if tableBad (d1.get Reg.COMMIT_CTRL_PENDING_DELTA) table then .error rcParameter
        else if (segsOf a n).any phys.contains then .error rcParameter
        else if !(segsOf save saveSize).all (fun s => table.any (fun w => segJob w = s && !segPaired w)) then .error rcParameter
        else if writes.any (fun w => regsForbidden w.1) then .error rcParameter
        else if data.any (fun i => (d1.jobRuns i.addr i.len).isNone) then .error rcParameter
        else if (data.foldl Dev.applyItem d1).freezesPaired img.lists writes then .error rcParameter
        else if (List.range 8).any d1.normOverlap then .error rcParameter
        else if d1.fencesBad then .error rcParameter
        else if (img.prologue.drop 224).any (· ≠ 0) then .error rcParameter
        else if (List.range 144).any (fun b =>
            !redTableOk b ((List.range 16).map (fun i => d1.reg (Reg.REDUCE b i)))) then .error rcParameter
        else match d.writeAll true 0 writes with
        | .error e => .error e.2
        | .ok _ =>
          if data.any (fun i => match d1.jobRuns i.addr i.len with
              | some l => l.any (fun r => (d.badWrite r.1.phys r.2).isSome)
              | none => false) then .error rcUncorrectable
          else
            match d1.xlate save with
            | none => .error rcParameter
            | some x =>
              match d.saveRecord x.phys with
              | some w =>
                if fld (wd w 1) 63 32 ≠ fld (wd p 3) 63 32 then .ok ⟨img, table, writes, none⟩
                else if wd w 2 ≠ wd p 2 ∨ wordsBytes ((w.drop 4).take 8) ≠ wordsBytes ((img.head.drop 8).take 8) ∨
                    fld (wd w 0) 54 45 ≠ fld (h 0) 23 14 ∨ fld (wd w 0) 44 35 ≠ fld (h 0) 13 4 then .error rcParameter
                else .ok ⟨img, table, writes, some w⟩
              | none => .ok ⟨img, table, writes, none⟩

/-! ### Installing a job (16 R446) -/

/-- Counters documented as cleared at job load. -/
def Dev.clearCounters (d : Dev) : Dev :=
  let d : Dev := { d with
    regs := d.regs.filter (fun e => match findReg e.1 with | some r => decide (r.clear ≠ .job) | none => true), arith := [] }
  (List.range 144).foldl (fun d b => d.set (Reg.BENCH_LEAVE_LEAVE_WAIT_CYCLES b) 0) d

/-- Windows are closed (13 R379). -/
def Dev.closeWindows (d : Dev) : Dev :=
  let d := { d with staged := d.staged.filter (fun s => !(decide (0xFF0000A000 ≤ s.1) && decide (s.1 < 0xFF0000A800))) }
  (List.range 64).foldl (fun d w => d.set (Reg.WIN_W0_VALID w) 0) d

/-- What a job leaves in the engines, networks and lists goes: every queued record and descriptor (16 R458). -/
def Dev.discardWork (d : Dev) : Dev :=
  let eng (s : EngSt) : EngSt := { s with queue := [], cur := none }
  { d with
    bench := d.bench.map (fun e => (e.1, { e.2 with
      list := 0, pos := 0, seq := .idle, skip := [], raggedSt := none, raggedWait := none, routed := []
      lane := { e.2.lane with queue := [], cur := none, pre := none, pred := none, starts := 0, drains := [], packets := [],
                              chunkMasks := [], sRing := 0, dRing := 0 }
      awl := eng e.2.awl, last := eng e.2.last, vec := eng e.2.vec }))
    chans := d.chans.map (fun (e : Nat × Chan) =>
      if mgmtChan e.1 && (e.2.slot.isSome || e.2.cur.isNone) then e
      else (e.1, { e.2 with queue := [], list := 0, pos := 0, reader := .idle, cur := none, slot := none }))
    floors := d.floors.map (fun e => (e.1, { e.2 with
      stashList := 0, stashPos := 0, stash := .idle, stashSkip := [], stashCur := none, frames := []
      updList := 0, updPos := 0, upd := .idle }))
    net := { d.net with sets := [] }
    lat := { d.lat with
      ports := d.lat.ports.map (fun e =>
        (e.1, { e.2 with list := 0, pos := 0, reader := .idle, phase := none, lastBeat := none, reads := [] }))
      polls := [], adds := [] }
    fences := [], step := {}, upq := []
    leaveQ := d.leaveQ.filter (fun r => decide (144 ≤ r.who)) }

/-- The load in the order of R446; a parked job takes its counters and parity from the record (16 R457). No tag is full when a job
starts: the last clear emptied them, and what a descriptor did since in the absence of a job does not last (07 R228, R232; log entry
87). An image that is not uniform leaves UNIFORM_WIDTH as it is (03 R111: DESIGN CHOICE, log entry 88). -/
def Dev.install (d : Dev) (p : List W64) (l : LoadPlan) : Dev :=
  let h (i : Nat) : W64 := wd l.img.head i
  let d : Dev := { d.discardWork.clearCounters.closeWindows with tags := [], tagErrs := [] }
  -- ABORT and PREEMPT floods count from job load (13 R370)
  let d : Dev := { d with lat := { d.lat with
    floods := d.lat.floods.filter (fun f => decide (f.kind ≠ 1 ∧ f.kind ≠ 2)), aborts := 0, preempts := 0 } }
  let d := (d.setTable l.table).set Reg.COMMIT_STATUS_COMMIT_PARITY 0
  let d := (List.range 144).foldl (fun d b =>
    let d := d.set (Reg.LR_WIDTH_UNIFORM_EN b) (if fld (h 0) 3 2 = 0 then 1 else 0)
    if fld (h 0) 3 2 = 0 then d.set (Reg.LR_WIDTH_UNIFORM_WIDTH b) (fld (h 1) 63 55) else d) d
  let d := l.img.items.foldl Dev.applyItem d
  let d := ((d.setReg Reg.JOB_SEED (wd p 2)).set Reg.JOB_STATE_JOB_ID (fld (wd p 3) 63 32)).set Reg.JOB_SAVE_SAVE_ADDR (fld (h 3) 47 0)
  let (t, parity, qf) := match l.parked with
    | some w => (fld (wd w 12) 63 32, fld (wd w 12) 31 31, fld (wd w 1) 31 16)
    | none => (fld (wd p 3) 31 0, 0, 0)
  let d := ((d.set Reg.COMMIT_STATUS_T_COMMITTED t).set Reg.COMMIT_STATUS_COMMIT_PARITY parity).set Reg.JOB_STATE_QUIESCE_FENCE qf
  let d := (List.range 8).foldl (fun d k => d.set (Reg.UPD_COUNTER_T_LOCAL k) t) d.commitRecord
  { d with job :=
    { lists := l.img.lists, prologue := l.img.prologue, steps := fld (h 7) 63 40
      digest := wordsBytes ((l.img.head.drop 8).take 8) } }

/-- The image and a supplied table are read: what is found correctable or uncorrectable is counted (10 R294). -/
def Dev.readImageRange (d : Dev) (p : List W64) : Dev :=
  let image := (d.rdPhys (fld (wd p 0) 39 0) (fld (wd p 1) 39 0)).1
  if p.length = 5 ∧ fld (wd p 4) 39 0 ≠ 0 then (image.rdPhys (fld (wd p 4) 39 0) 4608).1 else image

/-- The load's checks and, if they pass, its writes; a failed check leaves the device in NONE (16 R445). -/
def Dev.loadRun (d : Dev) (o : LongOp) : Dev :=
  let d := d.readImageRange o.params
  match d.loadCheck o.params with
  | .error c => (d.opEnd o.slot stFailed c).setJs jsNone
  | .ok l =>
    (d.install o.params l).onOp o.slot (fun o => { o with ready := true, note := if l.parked.isSome then [1] else [0] })

/-- JOB_LOAD_DONE: LOADED, or PREEMPTED for a parked job (16 R446, R457). -/
def Dev.loadDone (d : Dev) : Dev :=
  match d.runningOp 0x301 with
  | some o =>
    if !o.ready || d.frozen || d.js ≠ jsLoading then d
    else
      let parked := o.note = [1]
      let d := (d.opEnd o.slot stDone 0).setJs (if parked then jsPreempted else jsLoaded)
      { d with job := { d.job with joinPoll := some d.nextJoinPoll, joinReady := false, joinKind := if parked then 1 else 0 } }
  | none => d

/-! ### Start, resume, thaw (16 R447, R454; 21 R535) -/

/-- The poll for a named beat, or the next one due (16 R447). -/
def Dev.joinPollFor (d : Dev) (beat : Nat) : Option Nat :=
  if d.beat + d.get Reg.LAT_DOMAIN_AGREE_BEATS ≤ beat then some (beat - d.get Reg.LAT_DOMAIN_AGREE_BEATS)
  else match d.job.joinPoll with | some b => some b | none => some d.nextJoinPoll

/-- The job starts: fence 0 is released, and the prologue, the steps, or the lists begin (12 R335). -/
def Dev.startJob (d : Dev) : Dev :=
  let d := (d.setJs jsRunning).onFence 0 (fun x => { x with released := true, relBeat := d.beat })
  let d : Dev := { d with job := { d.job with start := d.beat, slips := [], inPrologue := !d.job.prologue.isEmpty } }
  if d.job.inPrologue then d.startLists d.job.prologue
  else if d.startFence ≠ 0 then { d with step := { d.step with startPoll := some d.beat } }
  else d.startLists d.job.lists

/-- Fences after a beat move by a number of beats, as a slip moves them (01 R33). -/
def Dev.moveFences (d : Dev) (after beats : Nat) : Dev :=
  let s := (after, beats, 65536)
  { d with job := { d.job with slips := d.job.slips ++ [s] }
           step := { d.step with slips := d.step.slips ++ [s]
                                 close := if d.get Reg.STEP_STATE_PHASE = 2 then d.step.close + beats else d.step.close }
           fences := d.fences.map (fun e => (e.1, { e.2 with firstDue := e.2.firstDue.map (· + beats) })) }

/-- The job is taken up again at the resume beat; an abort that waited takes effect first (16 R454, 17 R479). -/
def Dev.resumeJob (d : Dev) : Dev :=
  let d := ((d.moveFences d.job.quiesceBeat (d.beat - d.job.quiesceBeat)).setJs jsRunning).inc Reg.JOB_COUNT_RESUMES
  let d := d.chans.foldl (fun d e => match e.2.cur with
    | some r => if r.stop = some 9 then d.resumeChan (e.1 / 32) (e.1 % 32) else d
    | none => d) d
  let d := d.endOps (fun o => o.running && decide (basicOp o.opcode = 0x304)) stDone 0
  if d.job.abortHeld then ({ d with job := { d.job with abortHeld := false } }).abortEffect d.beat else d

/-- JOB_JOIN_BEAT: at the agreed beat the job starts, resumes, or goes on after a thaw. -/
def Dev.joinBeat (d : Dev) : Dev :=
  match d.job.joinAt with
  | none => d
  | some j =>
    if d.frozen || decide (d.beat < j) || !d.job.joinReady then d
    else
      let kind := d.job.joinKind
      let d : Dev := { d with job := { d.job with joinAt := none, joinPoll := none, joinReady := false }
                              lat := { d.lat with polls := d.lat.polls.filter (fun h => h.1 ≠ d.joinFence) } }
      if kind = 2 then
        if d.frz.wasRunning then
          let d := d.moveFences d.frz.beat (j - d.frz.beat)
          ({ d with frz := { d.frz with wasRunning := false } }).logEv srcAon 0x011 [w64 j]
        else d
      else if kind = 1 then (if d.js = jsResuming then d.resumeJob else d)
      else if d.js = jsLoaded then d.startJob else d

/-! ### Save and restore (16 R449 to R454) -/

/-- Copy between a scratchpad and the runs of its part of the save area: in which direction `out` says. -/
def Dev.copyRuns (d : Dev) (out : Bool) : Nat → List (Xl × Nat) → Dev
  | _, [] => d
  | a, r :: t => Dev.copyRuns (if out then d.copyRange a r.1.phys r.2 else d.copyRange r.1.phys a r.2) out (a + r.2) t

/-- The runs of bench b's scratchpad in the save area (16 R451). -/
def Dev.saveScratch (d : Dev) (b : Nat) : List (Xl × Nat) :=
  (d.jobRuns (d.get Reg.JOB_SAVE_SAVE_ADDR + 0x1000 + b * spSize) spSize).getD []

/-- A range filled with words that nothing says. -/
def Dev.wrFree (d : Dev) (a n : Nat) : Dev :=
  let (l, d) := Dev.freeWords (n / 8) d
  d.wr a (wordsBytes l)

/-- A context area of the save area is written: R451 gives its place and size, and not its bytes, which are free values (log
entry 8). -/
def Dev.saveArea (d : Dev) (off n : Nat) : Dev :=
  ((d.jobRuns (d.get Reg.JOB_SAVE_SAVE_ADDR + off) n).getD []).foldl (fun d r => d.wrFree r.1.phys r.2) d

/-- The contexts of the benches, the hub and the floors (16 R451). -/
def Dev.saveContexts (d : Dev) : Dev :=
  let d := (List.range 144).foldl (fun d b => d.saveArea (0x48001000 + b * 0x110000) 0x110000) d
  (List.range 8).foldl (fun d k => d.saveArea (0x51A01000 + k * 0x10000) 0x10000) (d.saveArea 0x51901000 0x100000)

/-- The context as it stands (16 R451; log entry 8). -/
def Dev.context (d : Dev) : Saved :=
  { tags := d.tags, bench := d.bench, chans := d.chans, floors := d.floors, fences := d.fences, step := d.step, job := d.job
    windows := d.regs.filter (fun e => decide (0xFF0000A000 ≤ e.1) && decide (e.1 < 0xFF0000A800)), ports := d.lat.ports
    stepState := d.reg Reg.STEP_STATE, commit := d.reg Reg.COMMIT_STATUS }

/-- The words of the save record (16 R452). -/
def Dev.saveWords (d : Dev) : List W64 :=
  [packFlds [(63, 56, 0x5A), (55, 55, 1), (54, 45, d.index), (44, 35, d.get Reg.LAT_DOMAIN_DOMAIN_LAST)],
   packFlds [(63, 32, d.get Reg.JOB_STATE_JOB_ID), (31, 16, d.get Reg.JOB_STATE_QUIESCE_FENCE)],
   d.reg Reg.JOB_SEED, w64 (d.job.quiesceBeat - d.job.start)] ++
  bytesWords 8 d.job.digest ++
  [packFlds [(63, 32, d.get Reg.COMMIT_STATUS_T_COMMITTED), (31, 31, d.get Reg.COMMIT_STATUS_COMMIT_PARITY)], d.censusDigest]

/-- SAVE_COMPLETE: the area is written, then the record with VALID = 1; an uncorrectable word ends it (16 R453, 17 R479). -/
def Dev.saveComplete (d : Dev) : Dev :=
  if !(d.js = jsPreempting && !d.frozen && d.allQuiet) then d
  else match d.errs.find? (fun e => decide (0xF000000000 ≤ e.1) && e.2 = 3) with
  | some e => d.spUncorrectable ((e.1 - 0xF000000000) / spSize) 3 0 e.1
  | none =>
    match d.jobRuns (d.get Reg.JOB_SAVE_SAVE_ADDR) 4096 with
    | none => d
    | some rec_ =>
      let d := ((List.range 144).foldl (fun d b => d.copyRuns true (spBase b) (d.saveScratch b)) d).saveContexts
      let d := d.wrRuns rec_ (wordsBytes d.saveWords ++ List.replicate (4096 - 112) 0)
      let d : Dev := { d with
        saved := SMap.insert d.saved (d.get Reg.JOB_STATE_JOB_ID) (some d.context)
        job := { d.job with joinPoll := some d.nextJoinPoll, joinReady := false, joinKind := 1, quiesced := [] } }
      let d := (d.inc Reg.JOB_COUNT_PREEMPTIONS).setJs jsPreempted
      d.endOps (fun o => o.running && decide (basicOp o.opcode = 0x303)) stDone 0

/-- A saved context is put back; what is not a job's (scrubbers, management channels) stays. -/
def Dev.putContext (d : Dev) (s : Saved) : Dev :=
  let keepB (e : Nat × Bench) : Nat × Bench :=
    (e.1, { e.2 with scrubPtr := (d.bn e.1).scrubPtr, writeBacks := (d.bn e.1).writeBacks })
  let keepF (e : Nat × FloorSt) : Nat × FloorSt :=
    let f := d.floor e.1
    (e.1, { e.2 with scrubPos := f.scrubPos, dieCounts := f.dieCounts, writeBacks := f.writeBacks })
  let d1 : Dev := { d with
    tags := s.tags, tagErrs := [], bench := s.bench.map keepB, floors := s.floors.map keepF
    chans := s.chans.filter (fun e => !mgmtChan e.1) ++ d.chans.filter (fun e => mgmtChan e.1)
    fences := s.fences, step := s.step
    job := { s.job with joinPoll := d.job.joinPoll, joinReady := d.job.joinReady, joinAt := d.job.joinAt, joinKind := 1
                        abortHeld := s.job.abortHeld || d.job.abortHeld } }
  let phases (p : Nat) (x : PortSt) : PortSt :=
    let o : PortSt := SMap.get (fun _ => {}) s.ports p
    { x with list := o.list, pos := o.pos, reader := o.reader, phase := o.phase, lastSlots := o.lastSlots, lastBeat := o.lastBeat
             reads := o.reads }
  let d1 := (List.range 12).foldl (fun d p => d.onPort p (phases p)) d1
  let d1 := s.windows.foldl (fun d e => d.setReg e.1 e.2) d1
  let w := s.commit
  ((d1.setReg Reg.STEP_STATE s.stepState).set Reg.COMMIT_STATUS_T_COMMITTED (fld w 63 32)).setReg Reg.COMMIT_STATUS w

/-- RESTORE_COMPLETE: the area is read back, and the device is ready to join (16 R454, 17 R479). -/
def Dev.restoreComplete (d : Dev) : Dev :=
  match d.runningOp 0x304 with
  | none => d
  | some o =>
    if d.js ≠ jsResuming || d.frozen || d.job.joinReady then d
    else match d.jobRuns (d.get Reg.JOB_SAVE_SAVE_ADDR) saveSize with
    | none => d
    | some area =>
      let d := area.foldl (fun d r => (d.rdPhys r.1.phys r.2).1) d
      if area.any (fun r => (d.badPhys r.1.phys r.2).isSome) then (d.opEnd o.slot stFailed rcUncorrectable).setJs jsPreempted
      else
        let d := (List.range 144).foldl (fun d b => d.copyRuns false (spBase b) (d.saveScratch b)) d
        let d := match SMap.get (fun _ => none) d.saved (d.get Reg.JOB_STATE_JOB_ID) with
          | some s => d.putContext s
          | none => d
        { d with job := { d.job with joinReady := true } }

/-! ### Unload (16 R458) -/

/-- Physical segments an unload clears: all that the table maps but those kept. -/
def Dev.unloadSegs (d : Dev) (p : List W64) : List Nat :=
  (d.segTable.flatMap (fun w => if segPaired w then [segA w, segB w] else [segA w])).filter (fun s => !bit (wd p (s / 64)) (s % 64))

/-- Descriptors that channels hold, stopped, end with HALT: their outcomes are written, and the channels are idle (09 R285, R289). -/
def Dev.haltHeld (d : Dev) : Dev :=
  d.chans.foldl (fun d e =>
    if e.2.cur.any (fun r => r.stop.isSome) && d.get (Reg.CH_STATE_STATE (e.1 / 32) (e.1 % 32)) = 3 then
      d.finishChan (e.1 / 32) (e.1 % 32) 11
    else d) d

/-- The start of an unload: work discarded, windows closed, scratchpads cleared, STANDING grants returned (18 R489). -/
def Dev.unloadRun (d : Dev) (o : LongOp) : Dev :=
  let d := d.haltHeld
  let d := ((d.discardWork.closeWindows).clearScratchpads).set Reg.STEP_STATE_PHASE 0
  let d := (List.range 144).foldl (fun d b => d.set (Reg.BENCH_LEAVE_STANDING b) 0) d
  let d : Dev := ({ d with granted := [], maxNeed := [] }).refreshLeave
  d.onOp o.slot (fun o => { o with note := d.unloadSegs o.params })

/-- UNLOAD_COMPLETE: segments cleared, the table emptied, the job gone. -/
def Dev.unloadComplete (d : Dev) : Dev :=
  match d.runningOp 0x305 with
  | some o =>
    if !o.ready || d.frozen || d.js ≠ jsUnloading then d
    else
      let d := (o.note.foldl Dev.clearSegment d).setTable []
      let d : Dev := { (d.set Reg.JOB_STATE_JOB_ID 0) with job := {}, hubGrant := 0 }
      let d := d.refreshLeave.endOps (fun o => basicOp o.opcode = 0x401) stAborted 0
      (d.opEnd o.slot stDone 0).setJs jsNone
  | none => d

end Sys2Proof.Machine
end

