-- ==== Sys2Proof/Machine/Lattice.lean ====
section
/-! DEFINITION. The receiving side of a Wiltus port: sequence numbers, retries, arrival checks, windows, landings, service
messages; lane loss and retraining; floods at their effect beats (13 R353 to R360, R365 to R379). -/

namespace Sys2Proof.Machine

/-! ### Flits (13 R353, R354) -/

abbrev flKind (f : Flit) : Nat := fld f.word0 63 60
abbrev flPos (f : Flit) : Nat := fld f.word0 58 50
abbrev flSrc (f : Flit) : Nat := fld f.word0 49 40
abbrev flDst (f : Flit) : Nat := fld f.word0 39 30
abbrev flWindow (f : Flit) : Nat := fld f.word0 29 24
abbrev flSeq (f : Flit) : Nat := fld f.word0 19 10
abbrev flAck (f : Flit) : Nat := fld f.word0 9 0
abbrev flOffset (f : Flit) : Nat := fld f.word1 31 0

/-- Valid bytes of a flit's payload. -/
def flBytes (f : Flit) : Nat := 32 * min 8 (fld f.word0 23 20)

/-- The CRC a flit must carry. -/
def flCrc (f : Flit) : Nat :=
  crc32c 0xFFFFFFFF (wordBytes f.word0 ++ wordBytes (putFld f.word1 63 32 0) ++ f.payload)

/-- A flit whose CRC matches. -/
def flGood (f : Flit) : Bool := f.payload.length = 256 && fld f.word1 63 32 = flCrc f

/-- The state of a port changes, and the change is logged (21 R541). -/
def Dev.setPort (d : Dev) (p new : Nat) : Dev :=
  let old := d.get (Reg.PORT_W0_STATE p)
  if old = new then d
  else (d.set (Reg.PORT_W0_STATE p) new).logEv (3 + p) 0x051 [packFlds [(3, 0, p), (7, 4, old), (11, 8, new)]]

/-- A port takes flits in: it is UP or DEGRADED and its clocks run. -/
def Dev.portHears (d : Dev) (p : Nat) : Bool :=
  decide (p < 12) && d.portUp p && !d.frozen && d.boot.phase = .run && decide (d.power ≤ 2)

/-! ### Sequence numbers (13 R355, R356) -/

/-- How far a SEQ lies ahead of the next one due. -/
def seqAhead (next seq : Nat) : Nat := (seq + 1024 - next) % 1024

/-- Flits received beyond the one just taken move the next SEQ on. -/
def absorbEarly : Nat → Nat → List Nat → Nat × List Nat
  | 0, n, l => (n, l)
  | k + 1, n, l => if l.contains n then absorbEarly k ((n + 1) % 1024) (l.filter (· ≠ n)) else (n, l)

/-- RETRY_REQ of a SEQ. -/
def Dev.askRetry (d : Dev) (p seq : Nat) : Dev := d.postMsg p 2 [msgHead 0x03 d.index 0 seq, 0, 0, 0]

/-- Flits known to be missing: each is noted with its beat, and asked for once. -/
def Dev.noteMissing (d : Dev) (p : Nat) (l : List Nat) : Dev :=
  l.foldl (fun d q =>
    if (d.port p).gaps.any (fun g => g.1 = q) then d
    else (d.onPort p (fun s => { s with gaps := s.gaps ++ [(q, d.beat)] })).askRetry p q) d

/-- Take a numbered flit: whether it is new, and the beat it counts as having arrived in. -/
def Dev.takeSeq (d : Dev) (p seq : Nat) : Dev × Option Nat :=
  let s := d.port p
  let a := seqAhead s.recvNext seq
  let beat := ((s.gaps.find? (fun g => g.1 = seq)).map Prod.snd).getD d.beat
  if a = 0 then
    let (n, early) := absorbEarly 1024 ((seq + 1) % 1024) s.early
    (d.onPort p (fun s => { s with recvNext := n, early := early, gaps := s.gaps.filter (fun g => g.1 ≠ seq) }), some beat)
  else if a < 512 ∧ ¬ s.early.contains seq then
    let missing := ((List.range a).map (fun i => (s.recvNext + i) % 1024)).filter (fun q => !s.early.contains q)
    let d := d.onPort p (fun s => { s with early := s.early ++ [seq], gaps := s.gaps.filter (fun g => g.1 ≠ seq) })
    (d.noteMissing p missing, some beat)
  else (d, none)

/-- ACK_SEQ of the partner covers every held flit up to it. -/
def Dev.takeAck (d : Dev) (p ack : Nat) : Dev :=
  let s := d.port p
  if s.held.any (fun h => h.seq = ack) then
    let rest := (s.held.dropWhile (fun h => h.seq ≠ ack)).drop 1
    let gone := s.held.take (s.held.length - rest.length)
    d.onPort p (fun s => { s with held := rest, covered := s.covered ++ gone.filter (fun h => h.burst.isSome)
                                  resend := s.resend.filter (fun r => rest.any (fun h => h.seq = r.1))
                                  replay := s.replay.filter (fun q => rest.any (fun h => h.seq = q)) })
  else d

/-- Bursts whose flits ACK_SEQ covers and that no NACK has refused are acknowledged, once the partner's next service flit
has come (13 R355). -/
def Dev.settleCovered (d : Dev) (p : Nat) : Dev :=
  let s := d.port p
  let open_ (b : Nat) : Bool := s.held.any (fun h => h.burst = some b)
  let bursts := uniq (s.covered.filterMap HeldFlit.burst)
  let fly := match (d.chan 152 (2 * p)).cur with | some r => r.fly | none => []
  let done := fly.filter (fun b => b.sent && bursts.contains b.pos && !open_ b.pos)
  let d := d.onPort p (fun s => { s with covered := s.covered.filter (fun h => match h.burst with
    | some b => !done.any (fun x => x.pos = b) && fly.any (fun x => x.pos = b)
    | none => false) })
  done.foldl (fun d b => d.burstAcked 152 (2 * p) b.pos b.len) d

/-- FLIT_CRC_MISMATCH: counted where the CRC differed, and each missing flit is asked for (13 R356). -/
def Dev.crcMismatch (d : Dev) (p : Nat) (missing : List Nat) (crcBad : Bool) : Dev :=
  if !d.portHears p then d
  else
    let s := d.port p
    let want := missing.filter (fun q => decide (q < 1024) && decide (seqAhead s.recvNext q < 512) && !s.early.contains q)
    let again := if crcBad then want.filter (fun q => s.gaps.any (fun g => g.1 = q)) else []
    let d := if crcBad then d.inc (Reg.PORT_W1_CRC_ERRORS p) else d
    again.foldl (fun d q => d.askRetry p q) (d.noteMissing p want)

/-! ### Arrival checks (13 R375, R377) -/

/-- Length of a READ_REQ, in bytes, and its place on the requester (13 R377). -/
def readReqOf (f : Flit) : Nat × Nat × Nat :=
  let w := w64 (ofLe (f.payload.take 8))
  (32 * (fld w 59 48 + 1), fld w 5 0, fld w 47 16)

/-- The range of its window that a flit names: offset and length in bytes. -/
def flRange (f : Flit) : Nat × Nat :=
  (32 * flOffset f, if flKind f = 3 then (readReqOf f).1 else flBytes f)

/-- The window permits a KIND. -/
def windowPermits (w : W64) (kind : Nat) : Bool :=
  match kind with
  | 1 => bit w 62
  | 2 => bit w 60
  | 3 => bit w 61
  | 4 => bit w 62
  | _ => false

/-- The cause for which a payload flit is refused, in the order of R375; a STREAM flit meets only the first check here. In
Safe and while the job is set aside every payload flit finds no window (16 R450, 17 R484). -/
def Dev.flitCause (d : Dev) (p : Nat) (f : Flit) : Option Nat :=
  let w0 := d.reg (Reg.WIN_W0 (flWindow f))
  let w1 := d.reg (Reg.WIN_W1 (flWindow f))
  let shut := d.safe || d.js = jsPreempted
  let step := fld w1 43 34
  let src := flSrc f
  let (off, len) := flRange f
  let stream := flKind f = 5
  let checks : List (Bool × Nat) := [
    (flDst f = d.index && src = d.get (Reg.PORT_W0_PARTNER p), 8),
    (!shut && (stream || bit w0 63), 1),
    (stream || (fld w1 63 54 ≤ src && src ≤ fld w1 53 44 &&
      (src = fld w1 63 54 || (step ≠ 0 && (src - fld w1 63 54) % step = 0))), 2),
    (stream || windowPermits w0 (flKind f), 3),
    (stream || decide (off + len ≤ 2 ^ fld w0 59 54), 4),
    (flKind f ≠ 2 || len % (if bit f.word0 59 then 2 else 4) = 0, 7),
    (stream || (d.jobRuns (fld w0 47 0 + off) len).isSome, 5)]
  firstFail checks

/-- A refused flit is dropped, counted, and answered by a NACK (13 R375). -/
def Dev.refuseFlit (d : Dev) (p : Nat) (f : Flit) (cause : Nat) : Dev :=
  let d := d.inc (Reg.PORT_W2_REFUSED p)
  let d := if flKind f = 5 then d else d.inc (Reg.WIN_W2_REFUSED (flWindow f))
  d.postMsg p 3 [msgHead 0x04 d.index 0 (flSeq f + flWindow f * 2 ^ 10 + cause * 2 ^ 16), 0, 0, 0]

/-! ### Landings (13 R355, R376, R378) -/

/-- The first word of a set of runs that a read, or a write in part, finds uncorrectable. -/
def Dev.runsBad (d : Dev) (l : List (Xl × Nat)) (write : Bool) : Option Nat :=
  l.findSome? (fun r => if write then d.badWrite r.1.phys r.2 else d.badPhys r.1.phys r.2)

/-- Codewords that a write of a set of runs covers only in part are read (10 R294). -/
def Dev.metRuns (d : Dev) (l : List (Xl × Nat)) : Dev := l.foldl (fun d r => d.metPartly r.1.phys r.2) d

/-- A write that reaches a committed view while a step runs (12 R329). -/
def Dev.runsBarred (d : Dev) (l : List (Xl × Nat)) : Bool :=
  d.get Reg.STEP_STATE_PHASE = 1 && l.any (fun r => r.1.view = 1)

/-- Bytes of an accepted flit land in its window; a committed view refuses them as a schedule fault (12 R329). -/
def Dev.landFlit (d : Dev) (f : Flit) (bytes : List Byte) : Dev :=
  match d.jobRuns (d.get (Reg.WIN_W0_BASE (flWindow f)) + 32 * flOffset f) bytes.length with
  | none => d
  | some l =>
    if d.runsBarred l then d.schedFault 152 0 (d.get (Reg.WIN_W0_BASE (flWindow f)) + 32 * flOffset f)
    else match d.runsBad l true with
      | some w => d.readFault 152 0 w
      | none => (d.metRuns l).wrRuns l bytes

/-- The sum of a stored element and an arriving one: in FP32, rounded once into FP32 or BF16 (02 R59). -/
def addElem (bf16 : Bool) (a b : Nat) : Nat :=
  if bf16 then
    match fpFmt fmtBF16 with
    | some t => (t.encode .rne false 0 (Val.sum [t.decode a, t.decode b])).1
    | none => a
  else fadd a b

/-- The elements of an accepted REDUCE_ADD flit are added into its window. Benches and floors alone keep the counters of 02 R71,
so the additions of a window count nothing (DESIGN CHOICE, log entry 81). -/
def Dev.addFlit (d : Dev) (f : Flit) : Dev :=
  let n := flBytes f
  let a := d.get (Reg.WIN_W0_BASE (flWindow f)) + 32 * flOffset f
  match d.jobRuns a n with
  | none => d
  | some l =>
    if d.runsBarred l then d.schedFault 152 0 a
    else match d.runsBad l false with
      | some w => d.readFault 152 0 w
      | none =>
        let d := d.readPhys (l.map (fun r => (r.1.phys, r.2)))
        let bf := bit f.word0 59
        let k := if bf then 2 else 4
        let old := l.flatMap (fun r => d.bytes r.1.phys r.2)
        let sum := List.zipWith (addElem bf) (unpackElems (8 * k) (n / k) old) (unpackElems (8 * k) (n / k) (f.payload.take n))
        d.wrRuns l (sum.flatMap (toLe k))

/-- The order of additions: beat, position, port (13 R376). -/
def addBefore (a b : Nat × Nat × Nat) : Bool :=
  decide (a.1 < b.1) || (a.1 == b.1 && (decide (a.2.1 < b.2.1) || (a.2.1 == b.2.1 && decide (a.2.2 ≤ b.2.2))))

/-- Waiting REDUCE_ADD flits of beats that have ended, and that precede every missing flit, are added, in scheduled order. -/
def Dev.drainAdds (d : Dev) : Dev :=
  let gaps := d.lat.ports.flatMap (fun e => e.2.gaps.map (fun g => g.2))
  let first (x : (Nat × Nat × Nat) × Flit) : Bool := x.1.1 ≠ d.beat && gaps.all (fun b => decide (x.1.1 < b))
  let ready := (d.lat.adds.filter first).mergeSort (fun a b => addBefore a.1 b.1)
  let d : Dev := { d with lat := { d.lat with adds := d.lat.adds.filter (fun x => !first x) } }
  ready.foldl (fun d x => d.addFlit x.2) d

/-- Bytes of a STREAM flit go to consecutive places of the ring; an uncorrectable word `w` answers 1024 + w. -/
def Dev.ringWrite (d : Dev) (r : ChanRun) : Nat → List (List Byte) → Except Nat Dev
  | _, [] => .ok d
  | k, l :: t =>
    match d.resolve 152 (dmDstSp r.words) (dstAt r k).1 true false with
    | .error c => .error c
    | .ok a =>
      match d.wrPhys a l with
      | (_, some w) => .error (1024 + w)
      | (d, none) => Dev.ringWrite d r (k + l.length) t

/-- A STREAM flit lands at the receive channel's stream position; beyond the limit, or with no descriptor to take it, it
is refused (13 R378). -/
def Dev.landStream (d : Dev) (p : Nat) (f : Flit) : Dev :=
  let ch := 2 * p + 1
  let n := flBytes f
  match (d.chan 152 ch).cur with
  | none => d.refuseFlit p f 6
  | some r =>
    let room (l : Option Nat) : Bool := match l with | some l => decide (r.next + n ≤ l) | none => true
    let limit : Except Nat (Option Nat) :=
      if dmLimit r.words = 0 then .ok none
      else if r.limit.isSome && room r.limit then .ok r.limit
      else match d.readLimit r.words with | .ok l => .ok (some l) | .error c => .error c
    let total := match r.total with | some t => decide (r.next + n ≤ t) | none => true
    if dmForm r.words ≠ 1 || r.stop.isSome || !total then d.refuseFlit p f 6
    else match limit with
      | .error c => ((d.limitBad r.words).ownStop 152 ch c (dmLimit r.words) r).refuseFlit p f 6
      | .ok l =>
        let d := if dmLimit r.words = 0 || (r.limit.isSome && room r.limit) then d else d.readJob (dmLimit r.words) 8
        if !room l then d.refuseFlit p f 6
        else match d.ringWrite r r.next (chunk 32 8 (f.payload.take n)) with
          | .error c =>
            if 1024 ≤ c then ((d.countBad (c - 1024)).ownStop 152 ch 4 (dstAt r r.next).1 r).refuseFlit p f 6
            else (d.ownStop 152 ch c (dstAt r r.next).1 r).refuseFlit p f 6
          | .ok d' => (d'.onRun 152 ch (fun x => { x with next := r.next + n, limit := l, begun := true })).burstAcked 152 ch r.next n

/-- An accepted payload flit takes effect (13 R375 to R378). A REDUCE_ADD waits for the end of its beat, when the beat's additions
are made in the order of their positions and ports (R376). -/
def Dev.landPayload (d : Dev) (p : Nat) (f : Flit) (beat : Nat) : Dev :=
  match d.flitCause p f with
  | some c => d.refuseFlit p f c
  | none =>
    if flKind f = 5 then d.landStream p f
    else
      let d := d.inc (Reg.WIN_W2_ACCEPTED (flWindow f))
      if flKind f = 2 then { d with lat := { d.lat with adds := d.lat.adds ++ [((beat, flPos f, p), f)] } }
      else if flKind f = 3 then
        let (len, win, off) := readReqOf f
        d.onPort p (fun s => { s with reads := s.reads ++
          [⟨flSrc f, d.get (Reg.WIN_W0_BASE (flWindow f)) + 32 * flOffset f, win, off, len⟩] })
      else d.landFlit f (f.payload.take (flBytes f))

/-- A flit reaches a port: its number and ACK_SEQ are taken, and a new flit has its effect (13 R355). A flit whose CRC
differs is for FLIT_CRC_MISMATCH and changes nothing here. -/
def Dev.recvFlit (d : Dev) (p : Nat) (f : Flit) (effect : Dev → Nat → Dev) : Dev :=
  if !d.portHears p || !flGood f then d
  else
    let d := d.takeAck p (flAck f)
    match d.takeSeq p (flSeq f) with
    | (d, none) => d
    | (d, some beat) => (effect d beat).drainAdds

/-- A payload flit of a KIND. -/
def Dev.recvKind (d : Dev) (kind : Nat) (p : Nat) (f : Flit) : Dev :=
  if flKind f = kind then d.recvFlit p f (fun d beat => d.landPayload p f beat) else d

/-! ### Service messages (13 R357 to R360, R365, R368 to R370) -/

/-- The eight messages of a SERVICE flit, four words each. -/
def flMessages (f : Flit) : List (List W64) := (chunk 32 8 f.payload).map (fun l => bytesWords 4 l)

/-- TYPE of a message. -/
abbrev msType (m : List W64) : Nat := fld (wd m 0) 63 56
abbrev msOrigin (m : List W64) : Nat := fld (wd m 0) 55 46
abbrev msTarget (m : List W64) : Nat := fld (wd m 0) 45 36

/-- TYPEs of R357. -/
def listedType (t : Nat) : Bool := t ≤ 0x0B

/-- BEAT from a partner: its SUBTREE_LAST, and from the parent the beat number and the residual (13 R357, R359, R360). -/
def Dev.takeBeat (d : Dev) (p : Nat) (m : List W64) (residual : Option Int) : Dev :=
  let d := d.onPort p (fun s => { s with subLast := fld (wd m 3) 9 0 })
  if d.parentPort ≠ some p then d
  else
    let d := { d.set Reg.SYNC_BEAT_BEAT (wd m 1).toNat with aonBeat := (wd m 1).toNat }
    match residual with
    | none => d
    | some r =>
      let d := d.set (Reg.PORT_W0_BEAT_ERROR p) (unsigned 16 (max (-32768) (min 32767 r)))
      d.onPort p (fun s => { s with skewBeats := if 128 < r ∨ r < -128 then s.skewBeats + 1 else 0 })

/-- A NACK stops the sender's descriptor, and the refused burst is not acknowledged (13 R375). -/
def Dev.takeNack (d : Dev) (p : Nat) (m : List W64) : Dev :=
  let seq := fld (wd m 0) 9 0
  let s := d.port p
  let burst := ((s.held ++ s.covered).find? (fun h => h.seq = seq)).bind HeldFlit.burst
  let id := match (d.chan 152 (2 * p)).cur with | some r => dmId r.words | none => 0
  let d := match burst with
    | some b =>
      let drop (l : List HeldFlit) : List HeldFlit := l.filter (fun h => h.burst ≠ some b)
      ((d.onPort p (fun s => { s with covered := drop s.covered })).burstLost 152 (2 * p) b 0).stopChan 152 (2 * p) 2
    | none => d
  d.schedFault 152 id 0

/-- The domain formation that runs, if one does (15 R434). Its notes: the beat of its acceptance, then for each port the
beat at which calibration began (plus one) and the least and largest delay measured. -/
def Dev.forming (d : Dev) : Option LongOp := d.runningOp 0x103

/-- A note of a domain formation on port p. -/
def formNote (o : LongOp) (p i : Nat) : Nat := o.note.getD (1 + 3 * p + i) 0

/-- Change a note of a domain formation. -/
def Dev.setFormNote (d : Dev) (p i v : Nat) : Dev :=
  match d.forming with
  | some o => d.onOp o.slot (fun o => { o with note := o.note.set (1 + 3 * p + i) v })
  | none => d

/-- A calibration exchange measures the one-way delay; one beyond 150 ns, or a spread over more than 2 ns, fails the port.
After 1,024 beats of it the port is UP, and its record is written (13 R359, 15 R434). -/
def Dev.takeCal (d : Dev) (p delay : Nat) : Dev :=
  match d.forming with
  | none => d
  | some o =>
    if d.get (Reg.PORT_W0_STATE p) ≠ 2 then d
    else
      let lo := if formNote o p 2 = 0 then delay else min delay (formNote o p 1)
      let hi := max delay (formNote o p 2)
      if 1200 < delay ∨ 16 < hi - lo then d.setPort p 6
      else
        let d := (((d.set (Reg.PORT_W0_DELAY p) delay).setFormNote p 1 lo).setFormNote p 2 hi)
        if d.ageBeats + 1 < formNote o p 0 + 1024 then d
        else
          let d := d.setPort p 3
          d.addResult o.slot [d.reg (Reg.PORT_W0 p),
            packFlds [(13, 4, d.get (Reg.PORT_W0_PARTNER p)), (3, 0, d.get (Reg.PORT_W0_PARTNER_PORT p))]]

/-- CAL from the partner: the time at which it came goes back in this device's own (13 R357; log entry 83). -/
def Dev.noteCal (d : Dev) (p : Nat) : Dev := d.onPort p (fun s => { s with calAt := 8 * d.get Reg.HP_TIME_TIME_NS })

/-- One service message takes effect. -/
def Dev.takeMsg (d : Dev) (p : Nat) (residual : Option Int) (delay : Nat) (m : List W64) : Dev :=
  let child := d.kids.find? (fun k => k.2 = p && k.1 = msOrigin m)
  let parent := d.parentPort = some p
  let w1 := wd m 1
  match msType m with
  | 0x00 => d
  | 0x01 => d.takeBeat p m residual
  | 0x02 => (d.noteCal p).takeCal p delay
  | 0x03 =>
    let seq := fld (wd m 0) 9 0
    if (d.port p).held.any (fun h => h.seq = seq) && !(d.port p).resend.any (fun r => r.1 = seq) then
      d.onPort p (fun s => { s with resend := s.resend ++ [(seq, d.beat)] })
    else d
  | 0x04 => d.takeNack p m
  | 0x05 =>
    let f := fld w1 63 48
    let starts := f ≠ 0 && f = d.startFence && d.js = jsRunning
    if child.isNone || (starts && d.step.startPoll.isNone && d.step.replayFrom.isNone) then d
    else d.pollKid f (msOrigin m) (contribOf w1)
  | 0x06 => if parent then d.pollResult (fld w1 63 48) (contribOf w1) else d
  | 0x07 =>
    if child.isNone || d.voteComplete then d
    else ({ d with step := { d.step with kids := d.step.kids.filter (fun (k : Nat × Contrib) => k.1 ≠ msOrigin m) ++ [(msOrigin m, voteOf w1)] } }).voteProgress
  | 0x08 =>
    if !parent || d.voteComplete || d.get Reg.STEP_STATE_PHASE ≠ 2 then d
    else
      let at_ := match d.step.agreed with | some (_, b) => b | none => d.beat
      ({ d with step := { d.step with agreed := some (voteOf w1, at_) } }).postDown 4 (voteMsg 0x08 d.index (voteOf w1))
  | 0x09 => d.noteFlood (some p) (msOrigin m) (fld w1 63 60) (wd m 2) (fld w1 59 0) (wd m 3).toNat
  | 0x0A =>
    if msTarget m = d.index then d.normArrive (fld (wd m 2) 9 0) (fld w1 31 0) else d.postTo (msTarget m) 5 m
  | 0x0B =>
    if msTarget m = d.index then d.fpArrive (msOrigin m) (fld (wd m 2) 9 0) (fld (wd m 2) 17 16) w1
    else d.postTo (msTarget m) 5 m
  | _ => { d with lat := { d.lat with badTypes := d.lat.badTypes + 1 } }

/-- A SERVICE flit's messages take effect in order of place. -/
def Dev.takeService (d : Dev) (p : Nat) (f : Flit) (residual : Option Int) (delay : Nat) : Dev :=
  ((flMessages f).foldl (fun d m => d.takeMsg p residual delay m) d).settleCovered p

/-- A SERVICE flit that holds a message of a TYPE. -/
def Dev.recvService (d : Dev) (type p : Nat) (f : Flit) (residual : Option Int) (delay : Nat) : Dev :=
  if flKind f = 6 && (flMessages f).any (fun m => msType m = type) then
    d.recvFlit p f (fun d _ => d.takeService p f residual delay)
  else d

/-- CAL: a port that calibrates exchanges no numbered flits yet; an UP port takes the flit as any other. -/
def Dev.recvCal (d : Dev) (p : Nat) (f : Flit) (delay : Nat) : Dev :=
  if p < 12 ∧ d.get (Reg.PORT_W0_STATE p) = 2 ∧ flGood f ∧ flKind f = 6 ∧ ¬ d.frozen then
    ((flMessages f).filter (fun m => msType m = 1 || msType m = 2)).foldl (fun d m => d.takeMsg p none delay m) d
  else d.recvService 0x02 p f none delay

/-- BEAT_MESSAGE: on a port that trains or calibrates it shows the partner, whose device must be the one configured; then
calibration begins (13 R358, R359, 15 R434). -/
def Dev.recvBeat (d : Dev) (p : Nat) (f : Flit) (residual : Int) : Dev :=
  let s := d.get (Reg.PORT_W0_STATE p)
  if p < 12 ∧ (s = 1 ∨ s = 2) then
    if !flGood f || flKind f ≠ 6 || d.frozen then d
    else match (flMessages f).find? (fun m => msType m = 1), d.forming with
      | some m, some o =>
        if msOrigin m ≠ d.get (Reg.PORT_W0_PARTNER p) then (d.setPort p 6).opEnd o.slot stFailed 0x11
        else
          let d := d.takeBeat p m (some residual)
          if s = 1 then (d.setPort p 2).setFormNote p 0 (d.ageBeats + 1) else d
      | _, _ => d
  else d.recvService 0x01 p f (some residual) 0

/-- An IDLE flit is a pause: it repeats the SEQ of a flit that is missing, and no later one has come, so that its sender has
numbered none since (13 R356). -/
def Dev.isPause (d : Dev) (p : Nat) (f : Flit) : Bool :=
  let s := d.port p
  s.gaps.any (fun g => g.1 = flSeq f) && s.early.all (fun q => decide (512 ≤ seqAhead (flSeq f) q))

/-- The flits of no other row: IDLE and pause flits, a SERVICE flit without a listed message, and reserved KINDs, which are
refused (13 R354 to R356). -/
def Dev.recvIdle (d : Dev) (p : Nat) (f : Flit) : Dev :=
  if flKind f = 0 then
    if d.isPause p f then (if !d.portHears p || !flGood f then d else d.takeAck p (flAck f))
    else d.recvFlit p f (fun d _ => d)
  else if flKind f = 6 then
    if (flMessages f).any (fun m => msType m ≠ 0 && listedType (msType m)) then d
    else d.recvFlit p f (fun d _ => d.takeService p f none 0)
  else if 7 ≤ flKind f then d.recvFlit p f (fun d beat => d.landPayload p f beat)
  else d

/-! ### Retraining and failure (13 R359, R372, R374) -/

/-- A port retrains on its remaining lanes: it stops sending, and the link's DEGRADE is flooded; a degraded port fails. -/
def Dev.loseLane (d : Dev) (p lane : Nat) : Dev :=
  let lanes := d.get (Reg.PORT_W0_LANES p)
  let d := d.set (Reg.PORT_W0_LANES p) (if lanes.testBit lane then lanes - 2 ^ lane else lanes)
  if d.get (Reg.PORT_W0_STATE p) = 4 then
    (d.setPort p 6).fault { kind := fkPortFailed, unit := 153 + p } dLocal
  else
    let d := ((d.inc (Reg.PORT_W1_RETRAINS p)).setPort p 5).floodDegrade p
    d.fault { kind := fkPortDegraded, unit := 153 + p, lane := lane } dLocal

/-- LANE_LOSS. -/
def Dev.laneLoss (d : Dev) (p lane : Nat) : Dev :=
  if d.portHears p && decide (lane < 4) && (d.get (Reg.PORT_W0_LANES p)).testBit lane then d.loseLane p lane else d

/-- RESEND_TIMEOUT: a flit resent three times without acceptance, or a resend not sent within two beats; the highest lane
in use is given up (13 R356, R372). -/
def Dev.resendTimeout (d : Dev) (p seq : Nat) : Dev :=
  let s := d.port p
  let asked := s.resend.find? (fun r => r.1 = seq)
  let tried := s.held.any (fun h => h.seq = seq && decide (3 ≤ h.resends))
  let late := match asked with | some r => decide (r.2 + 2 < d.beat) | none => false
  if d.portHears p && (late || (tried && asked.isSome)) then
    d.loseLane p ((findIdx (fun i => (d.get (Reg.PORT_W0_LANES p)).testBit (3 - i)) 4).elim 0 (fun i => 3 - i))
  else d

/-- PORT_FAILED. -/
def Dev.portFailed (d : Dev) (p : Nat) : Dev :=
  let s := d.get (Reg.PORT_W0_STATE p)
  if p < 12 ∧ (s = 3 ∨ s = 4 ∨ s = 5) ∧ ¬ d.frozen then
    ((d.set (Reg.PORT_W0_LANES p) 0).setPort p 6).fault { kind := fkPortFailed, unit := 153 + p } dLocal
  else d

/-- BEAT_SKEW: the residual has exceeded 16 ns for 16 beats (13 R359, 17 R465). -/
def Dev.beatSkew (d : Dev) (p : Nat) : Dev :=
  if d.parentPort = some p && decide (16 ≤ (d.port p).skewBeats) && !d.frozen then
    ((d.inc Reg.LAT_COUNT_BEAT_SKEWS).onPort p (fun s => { s with skewBeats := 0 })).fault
      { kind := fkBeatSkew, unit := 153 + p } dAbort
  else d

/-! ### Floods at their effect beats (13 R370 to R372) -/

/-- Floods of a KIND that are due and not yet acted on. -/
def Dev.dueFloods (d : Dev) (kind : Nat) : List Flood :=
  d.lat.floods.filter (fun f => f.kind = kind && !f.done && decide (d.effectBeat f ≤ d.beat))

/-- Floods of a KIND that are due are acted on, and counted. -/
def Dev.takeFloods (d : Dev) (kind : Nat) : Dev :=
  let n := (d.dueFloods kind).length
  let d : Dev := { d with lat := { d.lat with floods := d.lat.floods.map (fun f =>
    if f.kind = kind && decide (d.effectBeat f ≤ d.beat) then { f with done := true } else f) } }
  d.addTo Reg.LAT_COUNT_FLOODS n

/-- The vote begins to gather again. -/
def Dev.voteReset (d : Dev) : Dev := { d with step := { d.step with agreed := none, kids := [], sentVote := none } }

/-- Agreements polled shortly before the event beat are void: a fence slips by RETRAIN_SLIP, a vote is incomplete. -/
def Dev.voidNear (d : Dev) (event : Nat) : Dev :=
  let agree := d.get Reg.LAT_DOMAIN_AGREE_BEATS
  let near (poll : Nat) : Bool :=
    decide (poll ≤ event) && decide (event ≤ poll + (agree - d.get Reg.LAT_DOMAIN_FLOOD_BEATS))
  let hit (h : Nat × Poll) : Bool := h.2.own.isSome && near (h.2.due - agree)
  let n := (d.lat.polls.filter hit).length
  let slip := d.get Reg.LAT_DOMAIN_RETRAIN_SLIP
  let d : Dev := { d with lat := { d.lat with polls := d.lat.polls.map (fun h =>
    if hit h then (h.1, { h.2 with sent := true, result := some ⟨false, slip, 0⟩ }) else h) } }
  let d := d.addTo Reg.LAT_COUNT_VOID_AGREEMENTS n
  if d.get Reg.STEP_STATE_PHASE = 2 ∧ near d.step.opening then
    ((d.inc Reg.LAT_COUNT_VOID_AGREEMENTS).voteReset).voteProgress
  else d

/-- DEGRADE_EFFECT. -/
def Dev.degradeEffect (d : Dev) : Dev :=
  let l := d.dueFloods 0
  if l.isEmpty || d.frozen || d.dueBefore 3 then d
  else
    let d := d.takeFloods 0
    l.foldl (fun d f => (d.voidNear f.event).slipRequest (d.get Reg.LAT_DOMAIN_RETRAIN_SLIP) true) d

/-- ABORT_EFFECT. -/
def Dev.abortFlood (d : Dev) : Dev :=
  match d.dueFloods 1 with
  | [] => d
  | f :: t => if d.frozen || d.dueBefore 2 then d else (d.takeFloods 1).abortEffect (t.foldl (fun e g => min e (d.effectBeat g)) (d.effectBeat f))

/-- PREEMPT_EFFECT. -/
def Dev.preemptFlood (d : Dev) : Dev :=
  if (d.dueFloods 2).isEmpty || d.frozen || d.dueBefore 4 then d else (d.takeFloods 2).preemptEffect

end Sys2Proof.Machine
end

