-- ==== Sys2Proof/Machine/Segments.lean ====
section
/-! DEFINITION. The segments of the all-to-all phases of a routed layer: their headers, their rows in the phase's own slots
and beyond the budget in its overflow slots, and where they land (05 R162 to R165, R176, R178; log entry 82). -/

namespace Sys2Proof.Machine

open Sys2Proof.Config (RoutedPhase)

/-- Words 0 and 1 of a segment's header; the rest of its 256 B are zero (05 R162). -/
def segHeader (kind rank dest expert rows layer step : Nat) : List W64 :=
  [packFlds [(63, 56, 0x5E), (55, 54, kind), (53, 44, rank), (43, 34, dest), (33, 24, expert), (15, 0, rows)],
   packFlds [(63, 32, layer), (31, 0, step % 2 ^ 32)]]

/-- The header flit of a segment for local expert e: it lands at HDR_BASE + 256 × (s × LOCAL_EXPERTS + e) (05 R165). -/
def headerFlit (r : RoutedPhase) (e : Nat) (head : List W64) : SegFlit :=
  { off := r.headers + 256 * (r.rank * r.localExperts + e), head := head, len := 256 }

/-- The flits of one row. -/
def rowFlits (r : RoutedPhase) (src off : Nat) : List SegFlit :=
  (List.range (ceilDiv r.rowBytes 256)).map (fun i =>
    { off := off + 256 * i, src := src + 256 * i, len := min 256 (r.rowBytes - 256 * i) })

/-- Rows within a budget, whose places are kept whether a row fills them or not, and the flits of the rows beyond it (05 R164). -/
def budgeted (r : RoutedPhase) (budget : Nat) (rows : List (List SegFlit)) : List (Option SegFlit) × List SegFlit :=
  let per := ceilDiv r.rowBytes 256
  let own := (rows.take budget).flatMap (fun l => l.map some)
  (own ++ List.replicate (budget * per - own.length) none, (rows.drop budget).flatten)

/-- The sum of a list. -/
def total (l : List Nat) : Nat := l.foldl (· + ·) 0

/-- ROUTE records of a mode that completed for a layer in the present step, by routing group. -/
def Dev.routedOf (d : Dev) (mode layer : Nat) : List Routed :=
  ((d.bench.flatMap (fun e => e.2.routed)).filter (fun x => x.mode = mode && x.layer = layer && x.step = d.routeStep)).mergeSort
    (fun a b => decide (a.group ≤ b.group))

/-- The segment for one expert of the link partner: a header, then the rows of each routing group in ascending GROUP_INDEX, in
send-row order (05 R162, R163); an expert without rows gets its header alone (05 R178). -/
def dispatchSegment (r : RoutedPhase) (src dest step : Nat) (l : List Routed) (e loc : Nat) : List (Option SegFlit) × List SegFlit :=
  let entry (g : Routed) : Nat × Nat := g.table.getD e (0, 0)
  let area := r.areas + (r.rank * r.localExperts + loc) * r.areaRows * r.rowBytes
  let groups := l.zipIdx.map (fun p =>
    let before := total ((l.take p.2).map (fun g => (entry g).2))
    budgeted r p.1.budget ((List.range (entry p.1).2).map (fun i =>
      rowFlits r (src + r.groupAt p.1.group + ((entry p.1).1 + i) * r.rowBytes) (area + (before + i) * r.rowBytes))))
  let head := segHeader r.kind r.rank dest e (total (l.map (fun g => (entry g).2))) r.layer step
  (some (headerFlit r loc head) :: groups.flatMap Prod.fst, groups.flatMap Prod.snd)

/-- The segment that goes back to the link partner for local expert e: the run of rows that its return table entry names, to the
send rows they left from (05 R168, R176). -/
def returnSegment (r : RoutedPhase) (src dest step : Nat) (c : Routed) (own e : Nat) : List (Option SegFlit) × List SegFlit :=
  let (first, rows) := c.table.getD (r.peer * r.localExperts + e) (0, 0)
  let expert := (c.experts.findIdx? (fun x => x.1 = own && x.2 = e)).getD 0
  let (mine, more) := budgeted r r.returnBudget ((List.range rows).map (fun i =>
    rowFlits r (src + (first + i) * r.rowBytes) (r.landAt expert i)))
  (some (headerFlit r e (segHeader r.kind r.rank dest expert rows r.layer step)) :: mine, more)

/-- All segments that a phase sends to the link partner `dest`: KIND 0 and 2 go out by the segment tables, KIND 1 and 3 come back
by the return table (05 R162, R163). -/
def Dev.formSegments (d : Dev) (r : RoutedPhase) (s : Segments) (dest : Nat) : Segments :=
  let src := dmSrc s.desc
  let l := d.routedOf (r.kind % 2) r.layer
  let segs := if r.kind % 2 = 0 then
      match l with
      | [] => []
      | g :: _ => g.experts.zipIdx.filterMap (fun x =>
          if x.1.1 = dest then some (dispatchSegment r src dest d.routeStep l x.2 x.1.2) else none)
    else
      match l with
      | [] => []
      | c :: _ => (List.range r.localExperts).map (returnSegment r src dest d.routeStep c d.index)
  { s with own := segs.flatMap Prod.fst, more := segs.flatMap Prod.snd }

/-- The flit that a slot takes, and the segments that are left: in its own slots the next place, in an overflow slot the next
flit. -/
def Segments.take (s : Segments) (overflow : Bool) : Option SegFlit × Segments :=
  if overflow then
    match s.own.filterMap id ++ s.more with
    | [] => (none, s)
    | f :: t => (some f, { s with own := [], more := t, sent := s.sent + f.len })
  else
    match s.own with
    | [] => (none, s)
    | none :: t => (none, { s with own := t })
    | some f :: t => (some f, { s with own := t, sent := s.sent + f.len })

/-- Every segment has been sent. -/
def Segments.done (s : Segments) : Bool := s.own.all Option.isNone && s.more.isEmpty

end Sys2Proof.Machine
end

