-- ==== Sys2Proof/Machine/Frames.lean ====
section
/-! DEFINITION. The sending side of a Wiltus port: phase records, and the beat frame that a port sends (13 R351, R352,
R356, R357, R361 to R363, R367, R372, R373, R377). The frame of a beat is formed when the beat ends (log entry 41). -/

namespace Sys2Proof.Machine

/-! ### Phase records (13 R361, R362) -/

abbrev phStart (w : List W64) : Nat := fld (wd w 0) 55 40
abbrev phClose (w : List W64) : Nat := fld (wd w 0) 39 24
abbrev phFirst (w : List W64) : Nat := fld (wd w 0) 23 15
abbrev phSlots (w : List W64) : Nat := fld (wd w 0) 14 6
abbrev phKind (w : List W64) : Nat := fld (wd w 0) 5 3
abbrev phOverflow (w : List W64) : Bool := bit (wd w 0) 2
abbrev phBeats (w : List W64) : Nat := fld (wd w 1) 63 48
abbrev phDesc (w : List W64) : Nat := fld (wd w 1) 47 0
abbrev phId (w : List W64) : Nat := fld (wd w 2) 63 48

/-- The fields of a phase record that its layout bounds (13 R361). -/
def phaseOk (w : List W64) : Bool :=
  decide (1 ≤ phKind w) && decide (phKind w ≤ 5) && decide (phFirst w ≤ 358) && decide (2 ≤ phSlots w) &&
  decide (phFirst w + phSlots w ≤ 360) && (phKind w ≠ 4 || phDesc w = 0) && phDesc w % 64 = 0

/-- A phase's descriptor: its destination is REMOTE on the link partner, and its source is REMOTE just for READ_REQ
(13 R362, R377). -/
def phaseDescOk (partner kind : Nat) (v : List W64) : Bool :=
  fld (wd v 0) 63 56 = 0x50 && dmDstSp v = spRemote && fld (wd v 2) 63 54 = partner &&
  (decide (dmSrcSp v = spRemote) == decide (kind = 3)) && (kind ≠ 3 || fld (wd v 1) 63 54 = partner)

/-- A slot number on a degraded port (13 R373). -/
def scaleSlot (deg : Bool) (x : Nat) : Nat := if deg then x * 269 / 360 else x

/-- The payload slots of a phase: the first, and the first beyond. -/
def phaseRange (deg : Bool) (w : List W64) : Nat × Nat := (scaleSlot deg (phFirst w), scaleSlot deg (phFirst w + phSlots w))

/-- The beats a phase lasts on its port: stretched when degraded (13 R373). -/
def phaseLength (deg : Bool) (w : List W64) : Nat :=
  let (lo, hi) := phaseRange deg w
  if deg then ceilDiv (phBeats w * phSlots w) (hi - lo) else phBeats w

/-- The port is degraded. -/
def Dev.degraded (d : Dev) (p : Nat) : Bool := d.get (Reg.PORT_W0_STATE p) = 4

/-- A record of a phase list is refused: a schedule fault, after which the list goes no further (13 R362, 17 R470). -/
def Dev.refusePhase (d : Dev) (p id a : Nat) : Dev :=
  (d.onPort p (fun s => { s with reader := .faulted })).schedFault 152 id (a % 2 ^ 40)

/-- A read of a phase list finds no segment: the reader waits (16 R565). -/
def Dev.phaseStop (d : Dev) (p a : Nat) : Dev :=
  if (d.port p).reader = .translation then d
  else (d.onPort p (fun s => { s with reader := .translation })).xlateStop 152 (2 * p) a

/-- The slip a phase asks for at its CLOSE_FENCE on a degraded port (13 R373). -/
def Dev.stretch (d : Dev) (w : List W64) : Dev :=
  d.onFence (phClose w) (fun x => { x with req := max x.req (phaseLength true w - phBeats w) })

/-- PHASE_RECORD: a send channel takes its next record, when its phase has ended. -/
def Dev.phaseRecord (d : Dev) (p : Nat) : Dev :=
  let s := d.port p
  let a := s.list + 64 * s.pos
  if !(decide (p < 12) && d.runs && s.list ≠ 0 && (s.reader = .running || s.reader = .translation) && s.phase.isNone) then d
  else match d.fetch a 8 with
  | .translation => d.phaseStop p a
  | .uncorrectable w => (d.onPort p (fun s => { s with reader := .faulted })).readFault 152 0 w
  | .words w =>
    let d := d.readJob a 64
    let type := fld (wd w 0) 63 56
    let next (s : PortSt) : PortSt := { s with pos := s.pos + 1, reader := .running }
    if type = 0 then d.onPort p (fun s => { s with reader := .idle })
    else if type ≠ 0x90 || !phaseOk w then d.refusePhase p (phId w) a
    else
      let begin_ (d : Dev) : Dev :=
        let d := d.onPort p (fun s => { next s with phase := some { words := w } })
        if d.degraded p then d.stretch w else d
      if phKind w = 4 then begin_ d
      else match d.fetch (phDesc w) 8 with
        | .translation => d.phaseStop p (phDesc w)
        | .uncorrectable x => (d.onPort p (fun s => { s with reader := .faulted })).readFault 152 (phId w) x
        | .words v =>
          if !phaseDescOk (d.get (Reg.PORT_W0_PARTNER p)) (phKind w) v then d.refusePhase p (phId w) a
          else if (Config.routedPhase d.index w).isSome && phKind w = 1 then
            (begin_ (d.readJob (phDesc w) 64)).onPort p (fun s => { s with
              phase := s.phase.map (fun ph => { ph with segs := some { desc := v, place := phDesc w } }) })
          else
            (begin_ (d.readJob (phDesc w) 64)).onChan 152 (2 * p) (fun c => { c with queue := c.queue ++ [(v, some (phDesc w))] })

/-- RETRAIN_COMPLETE: the port runs degraded, or with all its lanes after a thaw, and resends every held flit, in order; a
phase that has not begun asks for its stretch (13 R372, R373, 21 R534). -/
def Dev.retrainComplete (d : Dev) (p : Nat) : Dev :=
  if p < 12 ∧ d.get (Reg.PORT_W0_STATE p) = 5 ∧ ¬ d.frozen then
    let deg := decide (d.get (Reg.PORT_W0_LANES p) ≠ 15)
    let d := (d.setPort p (if deg then 4 else 3)).onPort p (fun s => { s with
      replay := s.held.map HeldFlit.seq, resend := [], held := s.held.map (fun h => { h with resends := 0 }) })
    match (d.port p).phase with
    | some ph => if deg && ph.used.isNone then d.stretch ph.words else d
    | none => d
  else d

/-! ### Which slots a phase has in this beat (13 R362, R363, R367) -/

/-- Beats that slips of a fence itself have added. -/
def Dev.ownSlip (d : Dev) (f : Nat) : Nat :=
  let l := if feStep (d.fenceEntry f) then d.step.slips else d.job.slips
  (l.filter (fun s => s.2.2 = f)).foldl (fun n s => n + s.2.1) 0

/-- The domain fence before whose release this beat is a slip beat. -/
def Dev.slipFence (d : Dev) : Option Nat :=
  d.openFences.find? (fun f => feDomain (d.fenceEntry f) && decide (d.dueOf f ≤ d.beat + d.ownSlip f) && decide (d.beat < d.dueOf f))

/-- The payload slots in which a phase sends in a beat. -/
inductive Sending where
  | none
  | slots (lo hi : Nat)
  | overflow
  deriving DecidableEq, Repr

/-- What the phase of a port sends in this beat, and the phase with its beats counted. -/
def Dev.phaseTurn (d : Dev) (p : Nat) (slip : Option Nat) (ph : Phase) : Phase × Sending :=
  let w := ph.words
  let x := d.fence (phStart w)
  if !x.released || decide (d.beat ≤ x.relBeat) then (ph, .none)
  else
    let used := ph.used.getD (d.beat - (x.relBeat + 1))
    let form (s : Segments) : Segments := match Config.routedPhase d.index w with
      | some r => if ph.used.isNone then d.formSegments r s (d.get (Reg.PORT_W0_PARTNER p)) else s
      | none => s
    let ph := { ph with used := some used, segs := ph.segs.map form }
    let (lo, hi) := phaseRange (d.degraded p) w
    let nominal : Phase × Sending :=
      if used < phaseLength (d.degraded p) w then ({ ph with used := some (used + 1) }, .slots lo hi) else (ph, .none)
    match slip with
    | none => nominal
    | some f => if phClose w ≠ f then (ph, .none) else if phOverflow w then (ph, .overflow) else nominal

/-- Every flit of a phase's descriptor has been sent. -/
def Dev.phaseSent (d : Dev) (p : Nat) : Bool :=
  let c := d.chan 152 (2 * p)
  c.queue.isEmpty && (match c.cur with
    | none => true
    | some r => some r.next = r.total && r.fly.all Burst.sent)

/-- The descriptor of an all-to-all phase ends with its segments (05 R163; log entry 82). -/
def Dev.segmentsEnd (d : Dev) (p : Nat) (ph : Phase) : Dev :=
  match ph.segs with
  | some s => (d.onChan 152 (2 * p) (fun c => { c with
      cur := some { words := s.desc, place := some s.place, next := s.sent, head := s.sent } })).finishChan 152 (2 * p) 0
  | none => d

/-- A phase ends when its flits are all sent; a RESPONSE phase at its nominal end, unless requests are left and it may
overflow. -/
def Dev.phaseEnd (d : Dev) (p : Nat) : Dev :=
  match (d.port p).phase with
  | none => d
  | some ph =>
    let w := ph.words
    let used := ph.used.getD 0
    let len := phaseLength (d.degraded p) w
    let past := ph.used.isSome && decide (len ≤ used) && ((d.port p).reads.isEmpty || !phOverflow w)
    let sent := match ph.segs with
      | some s => ph.used.isSome && s.done && d.phaseSent p
      | none => if phKind w = 4 then past else d.phaseSent p
    if sent then
      (d.segmentsEnd p ph).onPort p (fun s =>
        { s with phase := none, lastSlots := phaseRange (d.degraded p) w, lastBeat := some (d.beat + (len - used)) })
    else d

/-! ### Forming flits (13 R353) -/

/-- Form a flit, number it, hold it and send it. -/
def Dev.sendFlit (d : Dev) (p kind red pos window bytes offset : Nat) (payload : List Byte) (burst : Option Nat) : Dev :=
  let s := d.port p
  let w0 := packFlds [(63, 60, kind), (59, 59, red), (58, 50, pos), (49, 40, d.index), (39, 30, d.get (Reg.PORT_W0_PARTNER p)),
    (29, 24, window), (23, 20, ceilDiv bytes 32), (19, 10, s.sendSeq), (9, 0, (s.recvNext + 1023) % 1024)]
  let f : Flit := { word0 := w0, word1 := w64 offset, payload := payload ++ List.replicate (256 - payload.length) 0 }
  let f : Flit := { f with word1 := putFld f.word1 63 32 (flCrc f) }
  (d.onPort p (fun s => { s with sendSeq := (s.sendSeq + 1) % 1024, held := s.held ++ [{ seq := s.sendSeq, flit := f, burst := burst }] })).send
    (.flit p f)

/-- A pause flit: IDLE with the last SEQ repeated, neither numbered nor held (13 R356). -/
def Dev.sendPause (d : Dev) (p pos : Nat) : Dev :=
  let s := d.port p
  let w0 := packFlds [(58, 50, pos), (49, 40, d.index), (39, 30, d.get (Reg.PORT_W0_PARTNER p)),
    (19, 10, (s.sendSeq + 1023) % 1024), (9, 0, (s.recvNext + 1023) % 1024)]
  let f : Flit := { word0 := w0, word1 := 0, payload := List.replicate 256 0 }
  d.send (.flit p { f with word1 := putFld f.word1 63 32 (flCrc f) })

/-- A held flit goes out again with its original header (13 R356, R372). -/
def Dev.sendHeld (d : Dev) (p seq : Nat) : Dev :=
  match (d.port p).held.find? (fun h => h.seq = seq) with
  | some h => d.send (.flit p h.flit)
  | none => d

/-- BEAT, the first message of a frame (13 R357). -/
def Dev.beatMsg (d : Dev) : List W64 :=
  [msgHead 0x01 d.index 0 0, w64 d.beat, w64 (8 * d.get Reg.HP_TIME_TIME_NS), w64 (d.get Reg.LAT_DOMAIN_SUBTREE_LAST)]

/-- A service slot: the `k`-th of its frame carries a requested resend when it may, and otherwise messages by priority. -/
def Dev.serviceSlot (d : Dev) (p pos k : Nat) : Dev :=
  let s := d.port p
  match (if k = 2 ∨ k = 4 ∨ k = 5 then s.resend else []) with
  | r :: t =>
    let d := d.onPort p (fun s => { s with resend := t, held := s.held.map (fun h =>
      if h.seq = r.1 then { h with resends := h.resends + 1 } else h) })
    (d.inc (Reg.PORT_W1_RESENDS p)).sendHeld p r.1
  | [] =>
    let msgs := s.msgs.mergeSort (fun a b => decide (a.1 ≤ b.1))
    let n := if k = 0 then 7 else 8
    let out := (if k = 0 then [d.beatMsg] else []) ++ (msgs.take n).map Prod.snd
    (d.onPort p (fun s => { s with msgs := msgs.drop n })).sendFlit p 6 0 pos 0 256 0 (wordsBytes (out.flatMap id)) none

/-- The next READ_DATA of a RESPONSE phase: the oldest request is answered (13 R377). -/
def Dev.responseFlit (d : Dev) (p pos : Nat) : Option Dev :=
  match (d.port p).reads with
  | [] => none
  | r :: t =>
    let n := min 256 r.left
    let drop (d : Dev) : Dev := d.onPort p (fun s => { s with reads := t })
    match d.jobRuns r.addr n with
    | none => some ((drop d).sendFlit p 0 0 pos 0 0 0 [] none)
    | some l =>
      match d.runsBad l false with
      | some w => some (((drop d).readFault 152 0 w).sendFlit p 0 0 pos 0 0 0 [] none)
      | none =>
        let d := d.readPhys (l.map (fun x => (x.1.phys, x.2)))
        let bytes := l.flatMap (fun x => d.bytes x.1.phys x.2)
        let rest := if r.left ≤ n then t
          else { r with addr := r.addr + n, offset := r.offset + n / 32, left := r.left - n } :: t
        some ((d.onPort p (fun s => { s with reads := rest })).sendFlit p 4 0 pos r.window n r.offset bytes none)

/-- The next flit of a phase's descriptor, when its burst has been read (13 R362, R376, R377). -/
def Dev.burstFlit (d : Dev) (p pos : Nat) (ph : Phase) : Option Dev :=
  match (d.chan 152 (2 * p)).cur with
  | none => none
  | some r =>
    match r.fly.find? (fun b => !b.sent) with
    | none => none
    | some b =>
      let kind := phKind ph.words
      if r.stop.isSome || (kind ≠ 3 && (r.pieces b).isNone) then none
      else
        let win := fld (wd r.words 2) 53 48
        let go (last_ : Bool) (d : Dev) : Dev :=
          let d := d.onPort p (fun s => { s with phase := s.phase.map (fun ph => { ph with sub := if last_ then 0 else ph.sub + 1 }) })
          if last_ then d.onRun 152 (2 * p) (fun r => { r with fly := r.fly.map (fun x => if x.pos = b.pos then { x with sent := true } else x) })
          else d
        if kind = 3 then
          match b.parts.drop ph.sub with
          | [] => none
          | x :: t =>
            let before := (b.parts.take ph.sub).foldl (fun n y => n + y.2.2) 0
            let from_ := ((r.reads.find? (fun q => q.key = x.1)).map ReadBurst.addr).getD 0 + x.2.1
            let w := packFlds [(59, 48, x.2.2 / 32 - 1), (47, 16, (b.dst + before) / 32), (5, 0, win)]
            some (go t.isEmpty (d.sendFlit p 3 0 pos (fld (wd r.words 1) 53 48) 32 (from_ / 32) (wordBytes w) (some b.pos)))
        else
          let bytes := ((d.burstBytes r b).drop (256 * ph.sub)).take 256
          let last_ := decide (b.len ≤ 256 * (ph.sub + 1))
          let (window, off) := if kind = 5 then (0, 0) else (win, (b.dst + 256 * ph.sub) / 32)
          some (go last_ (d.sendFlit p kind (if kind = 2 then dmFmt r.words else 0) pos window bytes.length off bytes (some b.pos)))

/-- The next flit of an all-to-all phase; an empty place of its own slots carries IDLE (05 R163, R164, 13 R362). -/
def Dev.segmentFlit (d : Dev) (p pos : Nat) (ph : Phase) (s : Segments) (overflow : Bool) : Option Dev :=
  let (flit, s) := s.take overflow
  let d := d.onPort p (fun x => { x with phase := some { ph with segs := some s } })
  let win := fld (wd s.desc 2) 53 48
  match flit with
  | none => some (d.sendFlit p 0 0 pos 0 0 0 [] none)
  | some f =>
    let off := (dmDst s.desc + f.off) / 32
    if !f.head.isEmpty then some (d.sendFlit p 1 0 pos win 256 off (wordsBytes f.head) none)
    else match d.jobRuns f.src f.len with
      | none => some (d.sendFlit p 0 0 pos 0 0 0 [] none)
      | some l =>
        match d.runsBad l false with
        | some w => some ((d.readFault 152 (dmId s.desc) w).sendFlit p 0 0 pos 0 0 0 [] none)
        | none =>
          let d := d.readPhys (l.map (fun x => (x.1.phys, x.2)))
          some (d.sendFlit p 1 0 pos win f.len off (l.flatMap (fun x => d.bytes x.1.phys x.2)) none)

/-- A payload slot: flits to be replayed, then the phase's own, IDLE where none is ready, and a pause once 480 are held. -/
def Dev.payloadSlot (d : Dev) (p pos slot : Nat) (turn : Sending) (shut : Nat × Nat) : Dev :=
  let s := d.port p
  let from_ := match turn with | .slots lo _ => lo | _ => 0
  match s.replay with
  | q :: t =>
    if from_ ≤ slot then (d.onPort p (fun s => { s with replay := t })).sendHeld p q
    else d.sendPause p pos
  | [] =>
    if 480 ≤ s.held.length then d.sendPause p pos
    else
      let mine := match turn with
        | .none => false
        | .slots lo hi => decide (lo ≤ slot) && decide (slot < hi) && !(decide (shut.1 ≤ slot) && decide (slot < shut.2))
        | .overflow => true
      let flit : Option Dev := match (if mine then s.phase else none) with
        | none => none
        | some ph => match ph.segs with
          | some s => d.segmentFlit p pos ph s (decide (turn = Sending.overflow))
          | none => if phKind ph.words = 4 then d.responseFlit p pos else d.burstFlit p pos ph
      match flit with
      | some d' =>
        if turn = .overflow && (d'.port p).held.getLast?.any (fun h => flKind h.flit ≠ 0) then d'.inc (Reg.PORT_W2_OVERFLOW_FLITS p) else d'
      | none => d.sendFlit p 0 0 pos 0 0 0 [] none

/-- The slots that this phase shares with the one before it while both may send: a collision, counted and reported once
(13 R363). -/
def Dev.collide (d : Dev) (p : Nat) (turn : Sending) : Dev × (Nat × Nat) :=
  match turn, (d.port p).lastBeat, (d.port p).phase with
  | .slots lo hi, some b, some ph =>
    let (a, c) := (d.port p).lastSlots
    let shut := (max lo a, min hi c)
    if d.beat ≤ b ∧ shut.1 < shut.2 then
      if ph.collided then (d, shut)
      else
        let d := d.onPort p (fun s => { s with phase := some { ph with collided := true } })
        ((d.inc Reg.LAT_COUNT_COLLISIONS).schedFault 152 (phId ph.words) 0, shut)
    else (d, (0, 0))
  | _, _, _ => (d, (0, 0))

/-- What a port that trains or calibrates sends: BEAT, and CAL once it calibrates, in a service flit that is not numbered (13
R357, R359; log entry 83). -/
def Dev.trainFrame (d : Dev) (p : Nat) : Dev :=
  let st := d.get (Reg.PORT_W0_STATE p)
  if !(st = 1 || st = 2) then d
  else
    let cal := if st = 2 then [msgHead 0x02 d.index 0 0, w64 (8 * d.get Reg.HP_TIME_TIME_NS), w64 (d.port p).calAt, 0] else []
    let l := wordsBytes (d.beatMsg ++ cal)
    let w0 := packFlds [(63, 60, 6), (49, 40, d.index), (39, 30, d.get (Reg.PORT_W0_PARTNER p)), (23, 20, 8), (19, 10, 1023), (9, 0, 1023)]
    let f : Flit := { word0 := w0, word1 := 0, payload := l ++ List.replicate (256 - l.length) 0 }
    d.send (.flit p { f with word1 := putFld f.word1 63 32 (flCrc f) })

/-- The beat frame of one port: 366 positions, or 275 when degraded (13 R351, R352). -/
def Dev.portFrame (d : Dev) (slip : Option Nat) (p : Nat) : Dev :=
  if !d.portHears p then (if d.frozen || d.boot.phase ≠ .run || decide (2 < d.power) then d else d.trainFrame p)
  else
    let deg := d.degraded p
    let (ph, turn) := match (d.port p).phase with
      | none => (none, Sending.none)
      | some ph => let (a, t) := d.phaseTurn p slip ph; (some a, t)
    let d := d.onPort p (fun s => { s with phase := ph })
    let (d, shut) := d.collide p turn
    let (n, step) := if deg then (275, 46) else (366, 61)
    let slot (d : Dev) (pos : Nat) : Dev :=
      if pos % step = 0 ∧ pos / step < 6 then d.serviceSlot p pos (pos / step)
      else d.payloadSlot p pos (pos - min 5 (pos / step) - 1) turn shut
    ((List.range n).foldl slot d).phaseEnd p

/-- The frames of the beat that ends, on every port. -/
def Dev.sendFrames (d : Dev) : Dev :=
  let slip := d.slipFence
  (List.range 12).foldl (fun d p => d.portFrame slip p) d

end Sys2Proof.Machine
end

