-- ==== Sys2Proof/Machine/Smiper.lean ====
section
/-! DEFINITION. The Smiper command unit: sessions, sequence and cache, the order of checks, replies, acceptance of long
operations; identity, register, status and result commands (15 R399 to R425). -/

namespace Sys2Proof.Machine

/-! ### Answers -/

/-- What a command's own checks and effect give: a refusal with its DETAIL (with what it
counted, or the fuses it blew), a wait for the vote's close, a reply block (with
what follows the reply, or with fuses blown), or acceptance as a long operation. -/
inductive Ans where
  | refuse (code detail : Nat)
  | refuseWith (d : Dev) (code detail : Nat)
  | refuseF (f : Fuses) (d : Dev) (code : Nat)
  | hold
  | ok (d : Dev) (block : List W64)
  | okThen (d : Dev) (block : List W64) (after : Fuses → Dev → Dev)
  | okF (f : Fuses) (d : Dev) (block : List W64)
  | accepted (d : Dev)

/-- A command of the opcode tables: its LENGTH, whether its row is marked n, the life-cycle states that admit it (19 R514),
its preconditions (15 R420), and its own checks and effect. -/
structure Cmd where
  op : Nat
  len : List W64 → Bool
  free : Bool := false
  states : List Nat := [0, 1, 2, 3, 4, 5]
  pre : Dev → Bool := fun _ => true
  /-- What the command changes even where the device state refuses it (19 R513). -/
  refused : Dev → Dev := id
  run : Fuses → Dev → Hdr → List W64 → Ans

/-- A parameter block of so many words. -/
def words (n : Nat) (w : List W64) : Bool := w.length = n

/-- Some bit of a word outside the listed fields is set (15 R423). -/
def reserved (w : W64) (spans : List (Nat × Nat)) : Bool := (w &&& ~~~(spans.foldl (fun m s => m ||| fldMask s.1 s.2) 0)) ≠ 0

/-- A refusal with PARAMETER that names a word. -/
abbrev badWord (i : Nat) : Ans := .refuse rcParameter i

/-- No parameter word caused the refusal. -/
abbrev noDetail : Nat := 0xFF

/-- REPLY_MAX (15 R402). -/
def Dev.replyMax (d : Dev) : Nat := (d.get Reg.HP_CTRL_MAX_FRAME - 106) / 8 * 8

/-- The life-cycle state (19 R501). -/
def Dev.life (d : Dev) : Nat := d.get Reg.LC_STATUS_STATE

/-- Commands are served: firmware runs, and the device is not in VAULT (14 R397). -/
def Dev.serving (d : Dev) : Bool := d.boot.phase = .run && decide (d.power ≤ 2)

/-- Commands that Frozen and Safe admit (15 R412). -/
def Dev.admits (d : Dev) (op : Nat) : Bool :=
  let b := basicOp op
  (!d.frozen || b / 256 = 8 || [0x101, 0x106, 0x107, 0x104, 0x102].contains b) &&
  (!d.safe || !([0x301, 0x302, 0x304, 0x401, 0x503].contains b))

/-- The check of device state, then the command's own (15 R412, steps 2 to 4; R402). -/
def Cmd.serve (c : Cmd) (f : Fuses) (d : Dev) (h : Hdr) (w : List W64) : Ans :=
  if !d.admits c.op || !c.states.contains d.life || !c.pre d then .refuseWith (c.refused d) rcState noDetail
  else match c.run f d h w with
    | .ok d' b => if d.replyMax < 8 * b.length then .refuse rcParameter noDetail else .ok d' b
    | a => a

/-! ### Replies and the cache (15 R400 to R406) -/

/-- The sequence number after the last executed. -/
def Dev.expected (d : Dev) : W32 := BitVec.ofNat 32 (d.get Reg.SM_STATE_LAST_SEQ + 1)

/-- A command's reply is kept, if the command is in the cache with none. -/
def Dev.keepReply (d : Dev) (h : Hdr) (op code detail : Nat) (block : List W64) : Dev :=
  { d with smiper := { d.smiper with cache := d.smiper.cache.map (fun e =>
      if e.seq = h.seq ∧ e.opcode = op ∧ e.reply.isNone then { e with reply := some (code, detail, block) } else e) } }

/-- Send a reply, with EXPECTED as it stands; refusals are counted (15 R436). -/
def Dev.reply (d : Dev) (op : Nat) (h : Hdr) (code detail : Nat) (block : List W64) : Dev :=
  let d := if code = rcOk ∨ code = rcAccepted then d else d.inc Reg.SM_COUNT1_REFUSED
  d.send (.reply h.src op code detail h.seq h.tag h.session d.expected block)

/-- A command is answered; a sequenced one is cached with its answer. None: it is held. -/
def answer (op : Nat) (h : Hdr) (cached : Bool) (f : Fuses) (d : Dev) (a : Ans) : Option (Fuses × Dev) :=
  let fin (d : Dev) (code detail : Nat) (block : List W64) : Dev :=
    (if cached then d.keepReply h op code detail block else d).reply op h code detail block
  match a with
  | .hold => none
  | .refuse code detail => some (f, fin d code detail [])
  | .refuseWith d' code detail => some (f, fin d' code detail [])
  | .refuseF f' d' code => some (f', fin d' code noDetail [])
  | .ok d' b => some (f, fin d' rcOk noDetail b)
  | .okThen d' b g => some (f, g f (fin d' rcOk noDetail b))
  | .okF f' d' b => some (f', fin d' rcOk noDetail b)
  | .accepted d' => some (f, fin d' rcAccepted noDetail [])

/-- A sequenced command takes its number (15 R406). -/
def Dev.takeNumber (d : Dev) (op : Nat) (h : Hdr) : Dev :=
  let d := (d.set Reg.SM_STATE_LAST_SEQ h.seq.toNat).inc Reg.SM_COUNT0_EXECUTED
  let cache := d.smiper.cache ++ [{ seq := h.seq, opcode := op, tag := h.tag, crc := h.crc, reply := none }]
  { d with smiper := { d.smiper with lastBeat := d.ageBeats, cache := cache.drop (cache.length - 64) } }

/-- A sequenced command waits for the vote's close, behind those that wait already (15 R407). -/
def Dev.hold (d : Dev) (op : Nat) (h : Hdr) (w : List W64) : Dev :=
  { d with smiper := { d.smiper with heldCmds := d.smiper.heldCmds ++ [(op, h, w)] } }

/-- A packet whose reply the cache holds is answered again; one whose reply is not yet sent is dropped. -/
def Dev.resent (d : Dev) (op : Nat) (h : Hdr) : Option Dev :=
  match d.smiper.cache.find? (fun e => e.seq = h.seq && e.opcode = op && e.tag = h.tag && e.crc = h.crc) with
  | some e =>
    let d := d.inc Reg.SM_COUNT0_DUPLICATES
    match e.reply with
    | some (code, detail, block) => some (d.send (.reply h.src op code detail h.seq h.tag h.session d.expected block))
    | none => some d
  | none => none

/-- How far a sequence number lies beyond the last executed, modulo 2^32 (15 R406). -/
def Dev.seqAhead (d : Dev) (q : W32) : Nat := (2 ^ 32 - d.get Reg.SM_STATE_LAST_SEQ + q.toNat) % 2 ^ 32

/-- A sequenced command of the current session (15 R406, R407). -/
def Cmd.next (c : Cmd) (f : Fuses) (d : Dev) (h : Hdr) (w : List W64) : Fuses × Dev :=
  let n := d.seqAhead h.seq
  let recent := n = 0 || decide (2 ^ 32 - 63 ≤ n)
  match if recent then d.resent c.op h else none with
  | some d => (f, d)
  | none =>
    if recent || decide (2 ^ 31 ≤ n) then (f, (d.inc Reg.SM_COUNT1_STALE).reply c.op h rcSeqStale noDetail [])
    else if n ≠ 1 then (f, (d.inc Reg.SM_COUNT1_AHEAD).reply c.op h rcSeqAhead noDetail [])
    else
      let d := d.takeNumber c.op h
      if !d.smiper.heldCmds.isEmpty && !d.frozen then (f, d.hold c.op h w)
      else match answer c.op h true f d (c.serve f d h w) with
        | some r => r
        | none => (f, d.hold c.op h w)

/-- SESSION_OPEN and SESSION_TAKE: the session and its sequence start anew (15 R409). A resend of the open session's own
opening is answered from the cache. -/
def Cmd.open_ (c : Cmd) (take : Bool) (f : Fuses) (d : Dev) (h : Hdr) : Fuses × Dev :=
  let old := d.get Reg.SM_STATE_SESSION
  match if h.session.toNat = old ∧ old ≠ 0 then d.resent c.op h else none with
  | some d => (f, d)
  | none =>
    if !d.admits c.op || !c.states.contains d.life then (f, d.reply c.op h rcState noDetail [])
    else if h.session = 0 then (f, d.reply c.op h rcParameter noDetail [])
    else if !take && old ≠ 0 && h.session.toNat ≠ old && decide (d.ageBeats < d.smiper.lastBeat + 10000000) then
      (f, d.reply c.op h rcSession noDetail [])
    else
      let d := d.set Reg.SM_STATE_SESSION h.session.toNat
      let d : Dev := { d with smiper := { d.smiper with cache := [] } }
      let d := d.takeNumber c.op h
      (f, (d.keepReply h c.op rcOk noDetail [w64 old]).reply c.op h rcOk noDetail [w64 old])

/-- A Smiper datagram that R401's tests have passed reaches the command unit (15 R401, R404 to R407, R412). -/
def Cmd.exec (c : Cmd) (f : Fuses) (d : Dev) (h : Hdr) (w : List W64) : Fuses × Dev :=
  if !d.serving then (f, d)
  else if h.version ≠ 1 then (f, d.reply c.op h rcBadVersion noDetail [])
  else if !c.len w || decide (1138 < w.length) then (f, d.reply c.op h rcLength noDetail [])
  else if h.noseq then
    if c.free then
      let d := d.inc Reg.SM_COUNT1_UNSEQUENCED
      (answer c.op h false f d (c.serve f d h w)).getD (f, d)
    else (f, d.reply c.op h rcParameter noDetail [])
  else if basicOp c.op = 0x102 then c.open_ (c.op ≠ 0x102) f d h
  else if h.session = 0 || h.session.toNat ≠ d.get Reg.SM_STATE_SESSION then (f, d.reply c.op h rcSession noDetail [])
  else c.next f d h w

/-- A command of the block: its effect on fuses and device. -/
def State.cmd (s : State) (c : Cmd) (h : Hdr) (w : List W64) : Host.Outcome State Fault Refusal :=
  let r := c.exec s.fuses s.dev h w
  .next { s with fuses := r.1, dev := r.2 }

/-! ### Sleeping blocks (14 R397, 18 R496, R497) -/

/-- The power state moves, and the move is logged (18 R495, 21 R541). -/
def Dev.setPower (d : Dev) (new : Nat) : Dev :=
  let old := d.power
  if old = new then d else (d.set Reg.PWR_STATUS_STATE new).logEv 2 0x090 [packFlds [(3, 0, old), (7, 4, new)]]

/-- Units that rest wake: their PLLs start to lock again. In REST the whole device wakes (18 R496, R497). -/
def Dev.wakeUnits (d : Dev) (l : List Nat) : Dev :=
  let up := if d.power = 2 && d.resting.any (fun u => l.contains u) then d.resting else d.resting.filter (fun u => l.contains u)
  let d : Dev := { d with resting := d.resting.filter (fun u => !up.contains u), unlocked := d.unlocked ++ up }
  if d.power = 2 ∧ d.resting.isEmpty then d.setPower 0 else d

/-- Every unit wakes. -/
def Dev.wakeAll (d : Dev) : Dev := d.wakeUnits (List.range 12)

/-- The units that hold a physical range: bench dies 0 to 3, floors 4 to 11. -/
def unitsOf (a n : Nat) : List Nat :=
  if cellarEnd ≤ a then (List.range ((a + n - 1 - 0xF000000000) / 0x800000 / 36 + 1)).filter (fun d => (a - 0xF000000000) / 0x800000 / 36 ≤ d)
  else (List.range 8).filter (fun k => 32768 ≤ n || (List.range 9).any (fun i => cellarOf (min (a + 4096 * i) (a + n - 1)) = k)) |>.map (· + 4)

/-- The units that hold registers wake, outside a freeze (18 R497). -/
def Dev.wakeRegs (d : Dev) (l : List Nat) : Dev :=
  if d.frozen || d.resting.isEmpty then d
  else d.wakeUnits (l.filterMap (fun a =>
    if 0xFF02000000 ≤ a then some (4 + (a - 0xFF02000000) / 0x10000)
    else if 0xFF01000000 ≤ a then some ((a - 0xFF01000000) / 0x10000 / 36) else none))

/-! ### Identity (15 R424) -/

/-- The mode that IDENTIFY reports: 0 NORMAL, 1 FROZEN, 2 SAFE. -/
def Dev.mode (d : Dev) : Nat := if d.get Reg.FRZ_STATUS_FROZEN = 1 then 1 else if d.safe then 2 else 0

/-- The words of IDENTIFY. -/
def identityWords (f : Fuses) (d : Dev) : List W64 :=
  [f.serial,
   packFlds [(63, 32, d.get Reg.LC_STATUS_FW_VERSION), (31, 28, d.life), (27, 24, d.power), (23, 20, d.mode), (19, 12, 0x41)],
   d.censusDigest,
   packFlds [(63, 32, if d.jobLoaded then d.get Reg.JOB_STATE_JOB_ID else 0), (31, 22, d.index), (21, 12, d.get Reg.LAT_DOMAIN_DOMAIN_LAST)]]

/-- IDENTIFY. -/
def cmdIdentify : Cmd :=
  { op := 0x101, len := words 0, free := true, run := fun f d _ _ => .ok d (identityWords f d) }

/-- IDENTIFY_PART. -/
def cmdIdentifyPart : Cmd :=
  { op := 0x181, len := words 1, free := true
    run := fun f d _ w =>
      let maps (lo : Nat) : List W64 := (List.range 72).flatMap (fun b => (List.range 4).map (fun i => d.reg (Reg.LR_BYPASS (lo + b) i)))
      if reserved (wd w 0) [(1, 0)] then badWord 0
      else match fld (wd w 0) 1 0 with
        | 0 => .ok d (identityWords f d ++ bytesWords 8 d.boot.fwDigest)
        | 1 => .ok d (packWords ((List.range 144).flatMap (fun b => toLe 2 (d.get (Reg.LR_WIDTH_PRESENTED_WIDTH b)))))
        | 2 => .ok d (maps 0)
        | _ => .ok d (maps 72) }

/-- SESSION_OPEN; its work is in `Cmd.open_`. -/
def cmdSessionOpen : Cmd := { op := 0x102, len := words 0, run := fun _ d _ _ => .ok d [] }

/-- SESSION_TAKE; its work is in `Cmd.open_`. -/
def cmdSessionTake : Cmd := { op := 0x182, len := words 0, run := fun _ d _ _ => .ok d [] }

/-! ### Registers (15 R425) -/

/-- REG_READ. -/
def cmdRegRead : Cmd :=
  { op := 0x104, len := words 1, free := true
    run := fun _ d _ w =>
      let a := fld (wd w 0) 39 0
      if reserved (wd w 0) [(39, 0)] || !regAddrOk a then badWord 0 else .ok (d.wakeRegs [a]) [d.reg a] }

/-- REG_READ_BLOCK. -/
def cmdRegReadBlock : Cmd :=
  { op := 0x184, len := words 1, free := true
    run := fun _ d _ w =>
      let a := fld (wd w 0) 39 0
      let n := fld (wd w 0) 63 53
      let l := (List.range n).map (fun i => a + 8 * i)
      if reserved (wd w 0) [(63, 53), (39, 0)] || n = 0 || decide (1138 < n) || !l.all regAddrOk then badWord 0
      else .ok (d.wakeRegs l) (l.map d.reg) }

/-- DETAIL of a refused register write: its ADDR, VALUE or MASK word. -/
def Dev.writeDetail (_ : Dev) (a : Nat) (m : W64) (code : Nat) : Nat :=
  if code = rcBusy then noDetail
  else if code = rcAccess || !regAddrOk a then 0
  else match findReg a with
    | some r => if r.fields.any (fun f => f.touched m && f.covered m ≠ fldMask f.hi f.lo) then 2 else 1
    | none => 0

/-- The registers of the host port, and the part of HP_CTRL that waits for a bring-up (14 R398). -/
abbrev hpLo : Nat := 0xFF0000C000
abbrev hpHi : Nat := 0xFF0000C028
def hpLater (a : Nat) : W64 := if a = Reg.HP_CTRL then fldMask 63 62 ||| fldMask 48 35 else 0

/-- A port's link is lost: counted and logged (14 R393, 21 R541). -/
def Dev.linkLost (d : Dev) (p : Nat) : Dev :=
  let l := d.get Reg.HP_STATUS_LINK
  if l.testBit p then
    ((d.set Reg.HP_STATUS_LINK (l - 2 ^ p)).inc Reg.HP_COUNT1_LINK_LOSSES).logEv 1 0x050 [packFlds [(0, 0, 0), (1, 1, p)]]
  else d

/-- PTP_STATE moves, and the move is logged (14 R396). -/
def Dev.setPtp (d : Dev) (new : Nat) : Dev :=
  if d.get Reg.HP_STATUS_PTP_STATE = new then d
  else (d.set Reg.HP_STATUS_PTP_STATE new).logEv 1 0x061 [packFlds [(1, 0, new)]]

/-- No Sync for three intervals, or Vault entered: a servo at work goes to HOLDOVER and the increment stays (14 R396, R397);
FREE_RUN, which no time transmitter has ended, stays (DEDUCED; log entry 50). -/
def Dev.ptpHoldover (d : Dev) : Dev :=
  let s := d.get Reg.HP_STATUS_PTP_STATE
  if s = 1 ∨ s = 2 then ({ d with time := { d.time with good := 0, sync := none } }).setPtp 3 else d

/-- After the reply to a command that wrote host-port registers: class S fields take effect; a write of MODE or MAX_FRAME
starts a new bring-up on both ports (14 R398). -/
def Dev.hostFields (d : Dev) : Dev :=
  let bring := d.staged.any (fun s => s.1 = Reg.HP_CTRL && (s.2.2 &&& hpLater Reg.HP_CTRL) ≠ 0)
  let d := d.takeStaged hpLo hpHi (fun a => ~~~(hpLater a))
  if bring then (d.linkLost 0).linkLost 1 else d

/-- Register writes of a command, each with its words' first index: all or none (00 R20). -/
def writeRegs (d : Dev) (at_ : Nat) (l : List (Nat × W64 × W64)) : Ans :=
  match d.writeAll false 0 l with
  | .ok d' => .okThen (d'.wakeRegs (l.map Prod.fst)) [] (fun _ d => d.hostFields)
  | .error (i, code) =>
    let x := l.getD i (0, 0, 0)
    let part := d.writeDetail x.1 x.2.2 code
    .refuse code (if part = noDetail then noDetail else at_ + 3 * i + part)

/-- The triples ADDR, VALUE, MASK of a parameter block. -/
def regTriples : Nat → List W64 → List (Nat × W64 × W64)
  | 0, _ => []
  | n + 1, w => (fld (wd w 0) 39 0, wd w 1, wd w 2) :: regTriples n (w.drop 3)

/-- REG_WRITE. -/
def cmdRegWrite : Cmd :=
  { op := 0x105, len := words 3, states := [0, 1, 2, 3, 4]
    run := fun _ d _ w => if reserved (wd w 0) [(39, 0)] then badWord 0 else writeRegs d 0 (regTriples 1 w) }

/-- REG_WRITE_MULTI. -/
def cmdRegWriteMulti : Cmd :=
  { op := 0x185, len := fun w => decide (w ≠ []) && w.length = 1 + 3 * fld (wd w 0) 6 0, states := [0, 1, 2, 3, 4]
    run := fun _ d _ w =>
      let n := fld (wd w 0) 6 0
      if reserved (wd w 0) [(6, 0)] || n = 0 || decide (64 < n) then badWord 0
      else match (List.range n).find? (fun i => reserved (wd w (1 + 3 * i)) [(39, 0)]) with
        | some i => badWord (1 + 3 * i)
        | none => writeRegs d 1 (regTriples n (w.drop 1)) }

/-! ### Status words and results (15 R416 to R419) -/

/-- STATUS_READ. -/
def cmdStatusRead : Cmd :=
  { op := 0x106, len := words 1, free := true
    run := fun _ d _ w => if reserved (wd w 0) [(7, 0)] then badWord 0 else .ok d [d.status (fld (wd w 0) 7 0)] }

/-- STATUS_PAGE_READ. -/
def cmdStatusPageRead : Cmd :=
  { op := 0x186, len := words 1, free := true
    run := fun _ d _ w =>
      if reserved (wd w 0) [(15, 0)] then badWord 0
      else .ok d ((List.range (fld (wd w 0) 15 8 + 1)).map (fun i => d.status ((fld (wd w 0) 7 0 + i) % 256))) }

/-- Record i of a slot: zeros at or beyond PARTIAL. -/
def Dev.resultRecord (d : Dev) (slot i : Nat) : List W64 :=
  if i < fld (d.status slot) 49 34 then (SMap.get (fun _ => []) d.results slot).getD i (List.replicate 8 0) else List.replicate 8 0

/-- RESULT_READ. -/
def cmdResultRead : Cmd :=
  { op := 0x107, len := words 1, free := true
    run := fun _ d _ w =>
      let n := fld (wd w 0) 41 32
      if reserved (wd w 0) [(7, 0), (25, 16), (41, 32)] || n = 0 || decide (142 < n) then badWord 0
      else .ok d ((List.range n).flatMap (fun i => d.resultRecord (fld (wd w 0) 7 0) (fld (wd w 0) 25 16 + i))) }

/-- RESULT_READ_RAW. -/
def cmdResultReadRaw : Cmd :=
  { op := 0x187, len := words 1, free := true
    run := fun _ d _ w =>
      let n := fld (wd w 0) 44 32
      if reserved (wd w 0) [(7, 0), (28, 16), (44, 32)] || decide (d.replyMax < 8 * n) then badWord 0
      else .ok d ((List.range n).map (fun i =>
        let k := fld (wd w 0) 28 16 + i
        (d.resultRecord (fld (wd w 0) 7 0) (k / 8)).getD (k % 8) 0)) }

/-! ### Acceptance of long operations (15 R415, R420) -/

/-- The class of an operation, in the row order of R420; FLASH_WRITE is FIRMWARE_UPDATE's expert form. -/
def opClass (op : Nat) : Nat :=
  match basicOp op with
  | 0x302 => 1
  | 0x303 => 2
  | 0x304 => 2
  | 0x307 => 2
  | 0x401 => 3
  | 0x203 => 4
  | 0x701 => 5
  | _ => 0

/-- A long operation whose parameters have passed: TAG_IN_USE, BUSY, or QUEUED in its slot. -/
def Dev.acceptOp (d : Dev) (op : Nat) (h : Hdr) (w : List W64) : Ans :=
  let slot := h.tag.toNat % 256
  if (d.opOf slot).isSome then .refuse rcTagInUse noDetail
  else if 32 ≤ d.ops.length then .refuse rcBusy noDetail
  else
    let d := d.setStatus slot (packFlds [(63, 60, 1), (25, 18, h.tag.toNat / 256), (17, 2, op)])
    .accepted { d with ops := d.ops ++ [{ slot := slot, opcode := op, params := w, running := false }]
                       results := SMap.set (fun _ => []) d.results slot [] }

/-- What an acceptance does beyond entering its slot. -/
def Ans.then_ (a : Ans) (f : Dev → Dev) : Ans := match a with | .accepted d => .accepted (f d) | a => a

/-- An operation of a basic opcode is queued or running. -/
def Dev.opLive (d : Dev) (c : Nat) : Bool := d.ops.any (fun o => basicOp o.opcode = c)

end Sys2Proof.Machine
end

