-- ==== Sys2Proof/Machine/MemCmd.lean ====
section
/-! DEFINITION. Commands on memory, copies, windows, segments, groups, step read-out and counters (15 R426 to R435). -/

namespace Sys2Proof.Machine

/-! ### Where a memory command may go (15 R427) -/

/-- What the checks of a range give: its physical runs, a refusal, or a wait for the close of the vote. -/
inductive MemTo where
  | runs (l : List (Nat × Nat))
  | no (code : Nat)
  | hold
  deriving DecidableEq, Repr

/-- Cut a physical run where a scratchpad ends. -/
def cutPhys : Nat → Nat → Nat → List (Nat × Nat)
  | 0, _, _ => []
  | f + 1, a, n => if n = 0 then [] else
      let m := if a < cellarEnd then n else min n (spSize - a % spSize)
      (a, m) :: cutPhys f (a + m) (n - m)

/-- A physical segment that the table maps. -/
def Dev.segMapped (d : Dev) (s : Nat) : Bool := d.segTable.any (fun w => segA w = s || (segPaired w && segB w = s))

/-- A BIST region that runs covers a byte of a physical range (20 R517, R523). -/
def Dev.inTest (d : Dev) (a n : Nat) : Bool :=
  d.bist.any (fun r => r.stage = 2 &&
    (let p : Nat × Nat :=
      if r.code < 144 then (spBase r.code, spSize)
      else if 0x200 ≤ r.code ∧ r.code ≤ 0x43D then (2 ^ 30 * (r.code - 0x200), 2 ^ 30)
      else if r.code = 0x500 then (574 * 2 ^ 30, 2 ^ 30) else (0, 0)
    rangesMeet [p] [(a, n)]))

/-- A physical range: the status page and firmware area are not read, nor a segment that is being cleared (10 R297; log entry 89);
segments 574 and 575 and a job's segments are not written; a region under test makes the command wait (20 R523). -/
def Dev.physTo (d : Dev) (a n : Nat) (write : Bool) : MemTo :=
  let cellar := decide (a < cellarEnd)
  if !physOk a n then .no rcParameter
  else if cellar && write && decide (574 * 2 ^ 30 < a + n) then .no rcParameter
  else if cellar && !write && decide (575 * 2 ^ 30 < a + n) then .no rcParameter
  else if cellar && write && d.jobLoaded && (segsOf a n).any d.segMapped then .no rcAccess
  else if cellar && !write && (segsOf a n).any d.clearing.contains then .no rcAccess
  else if d.inTest a n then .hold
  else .runs (cutPhys 146 a n)

/-- A job range: mapped whole, and its paired views as the phase of the step admits (12 R329). -/
def Dev.jobTo (d : Dev) (a n : Nat) (write : Bool) : MemTo :=
  if !d.jobLoaded then .no rcState
  else match d.jobRuns a n with
    | none => .no rcTranslation
    | some l =>
      let phase := d.get Reg.STEP_STATE_PHASE
      let views (v : Nat) : Bool := l.any (fun r => r.1.view = v)
      if phase = 2 && (views 1 || views 2) then .hold
      else if write && ((phase = 1 && views 1) || (phase = 0 && views 2)) then .no rcAccess
      else .runs (l.flatMap (fun r => cutPhys 146 r.1.phys r.2))

/-- A range of a memory command: SPACE and ADDR in a word. -/
def Dev.memTo (d : Dev) (w : W64) (off n : Nat) (write : Bool) : MemTo :=
  if n = 0 then (if bit w 63 && !d.jobLoaded then .no rcState else .runs [])
  else if bit w 63 then d.jobTo (fld w 47 0 + off) n write else d.physTo (fld w 47 0 + off) n write

/-- The runs of two ranges; the first refusal counts. -/
def MemTo.and (a b : MemTo) : MemTo :=
  match a, b with
  | .runs l, .runs m => .runs (l ++ m)
  | .runs _, b => b
  | a, _ => a

/-- Lines of a memory command. -/
def Dev.memLines (d : Dev) (w : W64) (line stride lines : Nat) (write : Bool) : MemTo :=
  (List.range (if line = 0 then 0 else lines)).foldl (fun t i => t.and (d.memTo w (i * stride) line write)) (d.memTo w 0 0 write)

/-- The units behind runs wake (18 R497). -/
def Dev.wakeRuns (d : Dev) (l : List (Nat × Nat)) : Dev := l.foldl (fun d r => d.wakeUnits (unitsOf r.1 r.2)) d

/-- Read runs: the bytes, or the first uncorrectable word, counted. -/
def Dev.readRuns (d : Dev) (l : List (Nat × Nat)) : Dev × Except Nat (List Byte) :=
  match l.findSome? (fun r => d.badPhys r.1 r.2) with
  | some w => (d.countBad w, .error w)
  | none => l.foldl (fun x r =>
      match x.2 with
      | .ok acc => (match x.1.rdPhys r.1 r.2 with
          | (d, .ok b) => (d, .ok (acc ++ b))
          | (d, .error w) => (d, .error w))
      | .error w => (x.1, .error w)) (d, .ok [])

/-- Write bytes over runs. -/
def Dev.writeRuns (d : Dev) : List (Nat × Nat) → List Byte → Dev
  | [], _ => d
  | r :: t, l => Dev.writeRuns ((d.metPartly r.1 r.2).wr r.1 (l.take r.2)) t (l.drop r.2)

/-- The bytes of runs pass the DMA ports of their scratchpads: their meetings, and a merge window for every whole slot that a read
covers (07 R229, R234). Whether STRICT refuses an access. -/
def Dev.hostMeet (d : Dev) (l : List (Nat × Nat)) (write : Bool) : Dev × Bool :=
  l.foldl (fun x r =>
    if r.1 < cellarEnd || r.2 = 0 then x
    else
      let b := (r.1 - spBase 0) / spSize
      let m := x.1.dmaMeet b write r.1 r.2
      let d := if m.2 then m.1.dmaConflict b 152 28 else m.1
      let whole := (r.1 + r.2) / 512 - ceilDiv r.1 512
      let d := if write || d.get (Reg.SP_CTRL_MERGE_EN b) ≠ 1 then d else d.addTo (Reg.SP_MERGE_WINDOWS b) whole
      (d, x.2 || m.2)) (d, false)

/-- A read command over its ranges. -/
def Dev.memRead (d : Dev) (t : MemTo) (bad : Nat) : Ans :=
  match t with
  | .hold => .hold
  | .no c => .refuse c (if c = rcState then noDetail else bad)
  | .runs l =>
    let m := (d.wakeRuns l).hostMeet l false
    if m.2 then .refuseWith m.1 rcFault noDetail
    else match m.1.readRuns l with
    | (d, .ok b) => .ok d (packWords b)
    | (d, .error _) => .refuseWith d rcUncorrectable noDetail

/-- MEM_READ. -/
def cmdMemRead : Cmd :=
  { op := 0x201, len := words 2, states := [0, 1, 2, 3, 4]
    run := fun _ d _ w =>
      let n := fld (wd w 1) 31 0
      if reserved (wd w 0) [(63, 63), (47, 0)] then badWord 0
      else if reserved (wd w 1) [(31, 0)] then badWord 1
      else if fld (wd w 0) 47 0 % 8 ≠ 0 then .refuse rcAlignment 0
      else if n % 8 ≠ 0 then .refuse rcAlignment 1
      else if d.replyMax < n then badWord 1
      else d.memRead (d.memTo (wd w 0) 0 n false) 0 }

/-- MEM_READ_EX. -/
def cmdMemReadEx : Cmd :=
  { op := 0x281, len := words 3, states := [0, 1, 2, 3, 4]
    run := fun _ d _ w =>
      let line := fld (wd w 1) 63 40
      let stride := fld (wd w 1) 39 0
      let lines := fld (wd w 2) 63 40
      if reserved (wd w 0) [(63, 63), (47, 0)] then badWord 0
      else if reserved (wd w 2) [(63, 40)] then badWord 2
      else if fld (wd w 0) 47 0 % 8 ≠ 0 then .refuse rcAlignment 0
      else if line % 8 ≠ 0 ∨ stride % 8 ≠ 0 then .refuse rcAlignment 1
      else if d.replyMax < line * lines then badWord 2
      else d.memRead (d.memLines (wd w 0) line stride lines false) 0 }

/-- Bytes written over runs, once no word that they cover in part is uncorrectable; then `after`. -/
def Dev.memWrite (d : Dev) (t : MemTo) (l : List Byte) (after : Dev → Dev) : Ans :=
  match t with
  | .hold => .hold
  | .no c => .refuse c (if c = rcState then noDetail else 0)
  | .runs rs =>
    let m := (d.wakeRuns rs).hostMeet rs true
    let d := m.1
    if m.2 then .refuseWith d rcFault noDetail
    else match rs.findSome? (fun r => d.badWrite r.1 r.2) with
    | some w => .refuseWith (d.countBad w) rcUncorrectable noDetail
    | none => .ok (after (d.writeRuns rs l)) []

/-- MEM_WRITE. -/
def cmdMemWrite : Cmd :=
  { op := 0x202, len := fun w => decide (2 ≤ w.length) && w.length = 2 + ceilDiv (fld (wd w 1) 31 0) 8, states := [0, 1, 2, 3, 4]
    run := fun _ d _ w =>
      let n := fld (wd w 1) 31 0
      if reserved (wd w 0) [(63, 63), (47, 0)] then badWord 0
      else if reserved (wd w 1) [(31, 0)] then badWord 1
      else if fld (wd w 0) 47 0 % 8 ≠ 0 then .refuse rcAlignment 0
      else if n % 8 ≠ 0 then .refuse rcAlignment 1
      else d.memWrite (d.memTo (wd w 0) 0 n true) (wordsBytes (w.drop 2)) id }

/-- Bytes of a MEM_WRITE_EX. -/
def exBytes (w : List W64) : Nat := fld (wd w 1) 63 40 * fld (wd w 2) 63 40

/-- LENGTH of a MEM_WRITE_EX, in words: the bytes, then the tallies. -/
def exLen (w : List W64) : Nat :=
  5 + ceilDiv (exBytes w) 8 + (if bit (wd w 2) 0 then ceilDiv (4 * ceilDiv (exBytes w) 4096) 8 else 0)

/-- Every host tally agrees with its block. -/
def talliesOk (base : Nat) (data tallies : List Byte) : Bool :=
  (List.range (data.length / 4096)).all (fun i =>
    crc32c ((base + i) % 2 ^ 32) ((data.drop (4096 * i)).take 4096) = ofLe ((tallies.drop (4 * i)).take 4))

/-- MEM_WRITE_EX (log entry 43: POS_ADDR is a job address). -/
def cmdMemWriteEx : Cmd :=
  { op := 0x282, len := fun w => decide (5 ≤ w.length) && w.length = exLen w, states := [0, 1, 2, 3, 4]
    run := fun _ d _ w =>
      let line := fld (wd w 1) 63 40
      let n := exBytes w
      let pos := fld (wd w 3) 47 0
      let data := wordsBytes ((w.drop 5).take (n / 8))
      if reserved (wd w 0) [(63, 63), (47, 0)] then badWord 0
      else if reserved (wd w 2) [(63, 40), (0, 0)] then badWord 2
      else if reserved (wd w 3) [(47, 0)] then badWord 3
      else if reserved (wd w 4) [(31, 0)] then badWord 4
      else if fld (wd w 0) 47 0 % 8 ≠ 0 then .refuse rcAlignment 0
      else if line % 8 ≠ 0 ∨ fld (wd w 1) 39 0 % 8 ≠ 0 then .refuse rcAlignment 1
      else if pos % 8 ≠ 0 then .refuse rcAlignment 3
      else if bit (wd w 2) 0 && n % 4096 ≠ 0 then badWord 2
      else
        let at_ : MemTo := if pos = 0 then .runs [] else d.jobTo pos 8 true
        match (d.memLines (wd w 0) line (fld (wd w 1) 39 0) (fld (wd w 2) 63 40) true), at_ with
        | .runs _, .no c => .refuse c (if c = rcState then noDetail else 3)
        | .runs _, .hold => .hold
        | .runs l, .runs p =>
          if bit (wd w 2) 0 && !talliesOk (fld (wd w 4) 31 0) data (wordsBytes (w.drop (5 + n / 8))) then .refuse rcTally noDetail
          else match p.findSome? (fun r => d.badPhys r.1 r.2) with
            | some x => .refuseWith (d.countBad x) rcUncorrectable noDetail
            | none =>
              d.memWrite (.runs l) data (fun d => match p with
                | r :: _ =>
                  let d := ((d.wakeRuns p).rdPhys r.1 8).1
                  d.wr r.1 (toLe 8 (ofLe (d.bytes r.1 8) + n))
                | [] => d)
        | t, _ => d.memWrite t [] id }

/-! ### Copies (15 R426, R428) -/

/-- The checks of R427 on the ranges of one end of a descriptor in a physical space. -/
def Dev.endRefused (d : Dev) (w : List W64) (dst : Bool) (s : Shape) : Option Nat :=
  if (if dst then dmDstSp w else dmSrcSp w) ≠ spPhys then none
  else (dmFootprint w dst s).findSome? (fun r => match d.physTo r.1 r.2 dst with | .no c => some c | _ => none)

/-- What the phase of the step makes of one end of a descriptor in job memory: VOTING holds a command on a paired view, and NO_STEP
refuses a write of a pending view (12 R329). -/
def Dev.endViews (d : Dev) (w : List W64) (dst : Bool) (s : Shape) : MemTo :=
  if (if dst then dmDstSp w else dmSrcSp w) ≠ spJob then .runs []
  else
    let views (v : Nat) : Bool := (dmFootprint w dst s).any (fun r =>
      match d.jobRuns r.1 r.2 with | some l => l.any (fun x => x.1.view = v) | none => false)
    let phase := d.get Reg.STEP_STATE_PHASE
    if phase = 2 && (views 1 || views 2) then .hold
    else if dst && phase = 0 && views 2 then .no rcAccess
    else .runs []

/-- A descriptor names job addresses. -/
def descJob (w : List W64) : Bool := dmSrcSp w = spJob || dmDstSp w = spJob

/-- The descriptor of a COPY on channel `ch`: one line of TWO_D. -/
def copyDesc (p : List W64) (ch : Nat) : List W64 :=
  let sp (w : W64) : Nat := if bit w 63 then spJob else spPhys
  let n := fld (wd p 2) 39 0
  [packFlds [(63, 56, 0x50), (49, 47, sp (wd p 0)), (46, 44, sp (wd p 1)), (33, 29, ch)],
   w64 (fld (wd p 0) 47 0), w64 (fld (wd p 1) 47 0), packFlds [(63, 40, n)], packFlds [(63, 40, n)],
   packFlds [(63, 40, 1), (39, 16, 1)], 0, 0]

/-- COPY. -/
def cmdCopy : Cmd :=
  { op := 0x203, len := words 3, states := [0, 1, 2, 3, 4]
    run := fun _ d h w =>
      let desc := copyDesc w 28
      let none_ := Shape.ofWords []
      if (bit (wd w 0) 63 || bit (wd w 1) 63) && !d.jobLoaded then .refuse rcState noDetail
      else if reserved (wd w 0) [(63, 63), (47, 0)] then badWord 0
      else if reserved (wd w 1) [(63, 63), (47, 0)] then badWord 1
      else if reserved (wd w 2) [(39, 0)] || fld (wd w 2) 39 0 = 0 || decide (2 ^ 24 ≤ fld (wd w 2) 39 0) then badWord 2
      else if fld (wd w 0) 47 0 % 32 ≠ 0 then .refuse rcAlignment 0
      else if fld (wd w 1) 47 0 % 32 ≠ 0 then .refuse rcAlignment 1
      else match d.endRefused desc false none_, d.endRefused desc true none_, dmFault 152 28 desc none_ none_ with
        | some c, _, _ => .refuse c 0
        | _, some c, _ => .refuse c 1
        | _, _, some (c, i) => .refuse c (if i = 1 then 0 else if i = 2 then 1 else 2)
        | _, _, _ => match d.endViews desc false none_, d.endViews desc true none_ with
          | .hold, _ => .hold
          | _, .hold => .hold
          | _, .no c => .refuse c 1
          | _, _ => d.acceptOp 0x203 h w }

/-- DESC_SUBMIT. -/
def cmdDescSubmit : Cmd :=
  { op := 0x283, len := words 9, states := [0, 1, 2, 3, 4]
    run := fun _ d h w =>
      let desc := w.drop 1
      let ch := 28 + fld (wd w 0) 1 0
      let shape (a : Nat) : Fetch := if dmForm desc = 2 then d.shapeWords 152 a else .words []
      if descJob desc && !d.jobLoaded then .refuse rcState noDetail
      else if reserved (wd w 0) [(1, 0)] || ch = 31 then badWord 0
      else match shape (dmSrc desc), shape (dmDst desc) with
        | .words s, .words t =>
          let s := Shape.ofWords s
          let t := Shape.ofWords t
          match dmFault 152 ch desc s t, d.endRefused desc false s, d.endRefused desc true t with
          | some (c, i), _, _ => .refuse c (1 + i)
          | _, some c, _ => .refuse c 2
          | _, _, some c => .refuse c 3
          | _, _, _ => match d.endViews desc false s, d.endViews desc true t with
            | .hold, _ => .hold
            | _, .hold => .hold
            | _, .no c => .refuse c 3
            | _, _ => d.acceptOp 0x283 h w
        | .translation, _ => .refuse rcTranslation 2
        | .uncorrectable x, _ => .refuseWith (d.countBad x) rcUncorrectable noDetail
        | _, .translation => .refuse rcTranslation 3
        | _, .uncorrectable x => .refuseWith (d.countBad x) rcUncorrectable noDetail }

/-- A free channel of the three of the COPY class (15 R420). -/
def Dev.copyChan (d : Dev) (ch : Nat) : Bool :=
  let c := d.chan 152 ch
  c.cur.isNone && c.queue.isEmpty && c.slot.isNone

/-- A COPY operation on a paired view waits for the close of the vote (12 R329). -/
def Dev.copyHeld (d : Dev) (o : LongOp) : Bool :=
  let desc := if o.opcode = 0x283 then o.params.drop 1 else copyDesc o.params 28
  let shape (a : Nat) : Shape := match (if dmForm desc = 2 then d.shapeWords 152 a else .words []) with
    | .words w => Shape.ofWords w
    | _ => Shape.ofWords []
  d.endViews desc false (shape (dmSrc desc)) = .hold || d.endViews desc true (shape (dmDst desc)) = .hold

/-- The channel that a COPY operation may start on. -/
def Dev.copyReady (d : Dev) (o : LongOp) : Option Nat :=
  if d.copyHeld o then none
  else if o.opcode = 0x283 then
    (let ch := 28 + fld (wd o.params 0) 1 0; if d.copyChan ch then some ch else none)
  else [28, 29, 30].find? d.copyChan

/-- A COPY operation starts: its descriptor goes to its channel, and the units it touches wake. -/
def Dev.copyStart (d : Dev) (o : LongOp) (ch : Nat) : Dev :=
  let desc := if o.opcode = 0x283 then o.params.drop 1 else copyDesc o.params ch
  d.wakeAll.onChan 152 ch (fun c => { c with queue := [(desc, none)], slot := some o.slot })

/-! ### Windows (15 R426, 13 R379) -/

/-- Channels stopped with WINDOW go on once a window has been opened by command (09 R285; log entry 44). -/
def Dev.resumeWindows (d : Dev) : Dev :=
  d.chans.foldl (fun d e => match e.2.cur with
    | some r => if r.stop = some 2 ∧ d.get (Reg.CH_STATE_STATE (e.1 / 32) (e.1 % 32)) = 3 then d.resumeChan (e.1 / 32) (e.1 % 32) else d
    | none => d) d

/-- The writable bits of a register, as a mask. -/
def fullMask (a : Nat) : W64 := match findReg a with | some r => r.writable (~~~0) | none => 0

/-- Whole-record writes by command: each word's DETAIL is its index in the parameter block. -/
def recordWrite (d : Dev) (at_ : Nat) (l : List (Nat × W64)) (after : Dev → Dev) : Ans :=
  match d.writeAll false 0 (l.map (fun p => (p.1, p.2, fullMask p.1))) with
  | .ok d => .ok (after d) []
  | .error (i, c) => .refuse c (if c = rcBusy then noDetail else at_ + i)

/-- WINDOW_OPEN. -/
def cmdWindowOpen : Cmd :=
  { op := 0x204, len := words 2, states := [0, 1, 2, 3, 4]
    run := fun _ d _ w =>
      let i := fld (wd w 0) 5 0
      let n := fld (wd w 0) 15 10
      let ops := fld (wd w 0) 8 6
      let v0 := packFlds [(63, 63, if ops = 0 then 0 else 1), (62, 62, ops / 4), (61, 61, ops / 2), (60, 60, ops),
        (59, 54, n), (47, 0, fld (wd w 1) 47 0)]
      let v1 := packFlds [(63, 54, 0), (53, 44, d.get Reg.LAT_DOMAIN_DOMAIN_LAST), (43, 34, 1)]
      if reserved (wd w 0) [(15, 0)] then badWord 0
      else if reserved (wd w 1) [(47, 0)] then badWord 1
      else if ops ≠ 0 && !(decide (12 ≤ n) && decide (n ≤ 37)) then badWord 0
      else if ops ≠ 0 && fld (wd w 1) 47 0 % 2 ^ n ≠ 0 then badWord 1
      else recordWrite d 0 [(Reg.WIN_W0 i, v0), (Reg.WIN_W1 i, v1)] (fun d => if ops = 0 then d else d.resumeWindows) }

/-- WINDOW_WRITE. -/
def cmdWindowWrite : Cmd :=
  { op := 0x284, len := words 3, states := [0, 1, 2, 3, 4]
    run := fun _ d _ w =>
      let i := fld (wd w 0) 5 0
      if reserved (wd w 0) [(5, 0)] then badWord 0
      else recordWrite d 1 [(Reg.WIN_W0 i, wd w 1), (Reg.WIN_W1 i, wd w 2)]
        (fun d => if bit (wd w 1) 63 then d.resumeWindows else d) }

/-! ### Segments (15 R429, 16 R438, R439) -/

/-- The job states in which the table may be written. -/
def Dev.tableOpen (d : Dev) : Bool := d.js ≠ jsNone && d.js ≠ jsUnloading

/-- Whether pair i of a set of writes is refused for its job segment (0) or its entry (1), the table being `new` after all
of them: a pair answers for what the pairs before it and the table hold (16 R439; log entry 52). -/
def pairBlame (delta : Nat) (new : List W64) (l : List (Nat × Option W64)) (i : Nat) : Option Nat :=
  match l[i]? with
  | some (seg, some e) =>
    let later := (l.drop (i + 1)).map Prod.fst
    let phys (w : W64) : List Nat := if segPaired w then [segA w, segB w] else [segA w]
    let taken := (new.filter (fun w => segJob w ≠ seg && !later.contains (segJob w))).flatMap phys
    if decide (apertureSeg ≤ seg) || new.any (fun w => segPaired w && segJob w + delta = seg) then some 0
    else if !distinct (phys e) || (phys e).any (fun a => 573 < a || taken.contains a) ||
      (segPaired e && (decide (apertureSeg ≤ seg + delta) || new.any (fun w => segJob w = seg + delta))) then some 1
    else none
  | _ => none

/-- The first word that refuses a set of writes; `raw i` is what pair i's own words are refused for. -/
def tableBlame (d : Dev) (l : List (Nat × Option W64)) (raw : Nat → Option Nat) : Nat :=
  let new := l.foldl (fun t p => putEntry t p.1 p.2) d.segTable
  ((List.range l.length).findSome? (fun i =>
    (match raw i, pairBlame (d.get Reg.COMMIT_CTRL_PENDING_DELTA) new l i with
      | some x, some y => some (min x y)
      | some x, none => some x
      | none, y => y).map (2 * i + ·))).getD 0

/-- A set of entry writes by command, its first job segment in word `at_`; stopped channels and readers then try again (16
R441). -/
def segWrite (d : Dev) (at_ : Nat) (l : List (Nat × Option W64)) : Ans :=
  match d.tableWrite l with
  | .error c => .refuse c (if c = rcBusy then noDetail else at_ + tableBlame d l (fun _ => none))
  | .ok t => .ok (d.setTable t).retryTranslation []

/-- SEGMENT_MAP. -/
def cmdSegmentMap : Cmd :=
  { op := 0x306, len := words 2, states := [1, 3, 4], pre := Dev.tableOpen
    run := fun _ d _ w =>
      let s := fld (wd w 0) 17 0
      if reserved (wd w 0) [(17, 0)] then badWord 0
      else if reserved (wd w 1) [(63, 63), (9, 0)] then badWord 1
      else segWrite d 0 [(s, if bit (wd w 1) 63 then some (packFlds [(63, 63, 1), (61, 44, s), (9, 0, fld (wd w 1) 9 0)]) else none)] }

/-- The pairs of a SEGMENT_WRITE. -/
def segPairs : Nat → List W64 → List (Nat × W64)
  | 0, _ => []
  | n + 1, w => (fld (wd w 0) 17 0, wd w 1) :: segPairs n (w.drop 2)

/-- SEGMENT_WRITE. -/
def cmdSegmentWrite : Cmd :=
  { op := 0x386, len := fun w => decide (w ≠ []) && w.length = 1 + 2 * fld (wd w 0) 6 0, states := [1, 3, 4], pre := Dev.tableOpen
    run := fun _ d _ w =>
      let n := fld (wd w 0) 6 0
      let l := segPairs n (w.drop 1)
      if reserved (wd w 0) [(6, 0)] || n = 0 || decide (64 < n) then badWord 0
      else
        let ws := l.map (fun p => (p.1, if bit p.2 63 then some (rawEntry p.1 p.2) else none))
        let raw (i : Nat) : Option Nat :=
          if reserved (wd w (1 + 2 * i)) [(17, 0)] || ((l.take i).map Prod.fst).contains (fld (wd w (1 + 2 * i)) 17 0) then some 0
          else if rawBad (wd w (2 + 2 * i)) then some 1
          else none
        if (List.range n).any (fun i => (raw i).isSome) then badWord (1 + tableBlame d ws raw) else segWrite d 1 ws }

/-- HALT_CHANNEL. -/
def cmdHaltChannel : Cmd :=
  { op := 0x387, len := words 1, states := [1, 3, 4]
    run := fun _ d _ w =>
      let loc := fld (wd w 0) 7 0
      let ch := fld (wd w 0) 12 8
      if reserved (wd w 0) [(12, 0)] || decide (152 < loc) || decide (channelsOf loc ≤ ch) then badWord 0
      else .ok (d.onRun loc ch (fun r => { r with stop := some 11, wait := none })) [] }

/-! ### Groups and step read-out (15 R431, R433) -/

/-- The words of a preset (15 R433); none for a code that the table does not list. -/
def presetWords (preset : Nat) (decay clip : Nat) (skip : Bool) : Option (List W64) :=
  let word0 (rule : Nat) : W64 := packFlds [(63, 60, rule), (58, 58, b2n skip), (56, 56, if clip = 0 then 0 else 1),
    (55, 55, 1), (54, 51, fmtBF16), (50, 47, fmtFP32), (46, 43, fmtFP32), (42, 39, fmtBF16), (34, 34, 1)]
  let rec_ (w0 : W64) (b1 b2 eps : Nat) : List W64 :=
    [w0, packFlds [(63, 32, b1), (31, 0, b2)], packFlds [(63, 32, eps), (31, 0, decay)], packFlds [(63, 32, clip)]]
  match preset with
  | 0 => some (rec_ (word0 0) 0 0 0)
  | 1 => some (rec_ (word0 1) 0x3F666666 0 0)
  | 2 => some (rec_ (word0 2) 0x3F666666 0x3F733333 0x322BCC77)
  | 3 => some (rec_ (word0 3) 0x3F666666 0x3F7D70A4 0)
  | 4 => some (rec_ (word0 4) 0x3F733333 0 0)
  | 5 => some (rec_ (packFlds [(59, 59, 1), (58, 58, b2n skip), (56, 56, if clip = 0 then 0 else 1)]) 0 0 0)
  | _ => none

/-- The writes of a group record. -/
def groupWrites (g : Nat) (w : List W64) : List (Nat × W64) :=
  [(Reg.GROUP_W0 g, wd w 0), (Reg.GROUP_W1 g, wd w 1), (Reg.GROUP_W2 g, wd w 2), (Reg.GROUP_W3 g, wd w 3)]

/-- GROUP_PRESET. -/
def cmdGroupPreset : Cmd :=
  { op := 0x402, len := words 3, states := [1, 3, 4]
    run := fun _ d _ w =>
      if reserved (wd w 0) [(11, 0)] then badWord 0
      else if reserved (wd w 2) [(0, 0)] then badWord 2
      else match presetWords (fld (wd w 0) 11 8) (fld (wd w 1) 63 32) (fld (wd w 1) 31 0) (bit (wd w 2) 0) with
        | none => badWord 0
        | some l => recordWrite d 0 (groupWrites (fld (wd w 0) 7 0) l) id }

/-- GROUP_WRITE. -/
def cmdGroupWrite : Cmd :=
  { op := 0x482, len := words 9, states := [1, 3, 4]
    run := fun _ d _ w =>
      if reserved (wd w 0) [(7, 0)] then badWord 0
      else recordWrite d 1 (groupWrites (fld (wd w 0) 7 0) (w.drop 1)) id }

/-- STEP_STATE, COMMIT_STATUS, FINGERPRINT and NORM. -/
def Dev.commitWords (d : Dev) : List W64 := [d.reg Reg.STEP_STATE, d.reg Reg.COMMIT_STATUS, d.reg Reg.FINGERPRINT, d.reg Reg.NORM]

/-- COMMIT_READ. -/
def cmdCommitRead : Cmd :=
  { op := 0x403, len := words 0, free := true, states := [1, 3, 4], run := fun _ d _ _ => .ok d d.commitWords }

/-- COMMIT_READ_EX. -/
def cmdCommitReadEx : Cmd :=
  { op := 0x483, len := words 0, free := true, states := [1, 3, 4]
    run := fun _ d _ _ => .ok (d.wakeRegs ((List.range 8).map Reg.UPD_COUNT0)) (d.commitWords ++ (List.range 8).flatMap (fun k =>
      [d.reg (Reg.UPD_COUNT0 k), d.reg (Reg.UPD_COUNT1 k), d.reg (Reg.UPD_COUNTER k)])) }

/-! ### Counters (15 R435) -/

/-- Registers summed field by field, each sum stopping at its field's largest value. -/
def Dev.sumFields (d : Dev) (n : Nat) (fields : List (Nat → Fld)) : W64 :=
  fields.foldl (fun w f =>
    let x := f 0
    putFld w x.hi x.lo (min x.max ((List.range n).foldl (fun s i => s + d.get (f i)) 0))) 0

/-- COUNTERS_READ: sums of 32-bit counters stop at 32 bits (log entry 45). -/
def cmdCountersRead : Cmd :=
  { op := 0x501, len := words 0, free := true
    run := fun _ d _ _ =>
      let arith (i : Nat) : W64 := w64 (min 0xFFFFFFFF ((List.range 152).foldl (fun s u => s + d.arithOf u i) 0))
      .ok (if d.frozen then d else d.wakeAll) [arith 0, arith 1, arith 2, arith 3,
        d.sumFields 144 [Reg.SP_ECC_CORRECTED, Reg.SP_ECC_UNCORRECTABLE],
        d.sumFields 8 [Reg.CELLAR_ECC_CORRECTED, Reg.CELLAR_ECC_DIE_CORRECTIONS, Reg.CELLAR_ECC_UNCORRECTABLE],
        d.reg Reg.SYNC_COUNT, d.reg Reg.LAT_COUNT] }

/-- The registers that count, by name (log entry 46). -/
def counterNames : List String :=
  ["LR_COUNT0", "LR_COUNT1", "AWL_COUNT0", "AWL_COUNT1", "LAYOUT_COUNT0", "LAYOUT_COUNT1", "LAYOUT_COUNT2", "SP_CONFLICT0",
   "SP_CONFLICT1", "SP_CONFLICT2", "SP_TAG", "SP_ECC", "SP_SCRUB", "SP_MERGE", "NET_COUNT", "SYNC_COUNT", "CH_COUNT",
   "DMA_OOB", "CELLAR_ECC", "ATTIC_COUNT", "SEL_COUNT", "UPD_COUNT0", "UPD_COUNT1", "LAT_COUNT", "WIN_W2", "PORT_W1",
   "PORT_W2", "HP_COUNT0", "HP_COUNT1", "SM_COUNT0", "SM_COUNT1", "JOB_COUNT", "FAULT_COUNT", "INTEG_COUNT", "LEAVE_COUNT",
   "LC_COUNT", "BIST_COUNT", "FRZ_COUNT"]

/-- The places of an array of registers. -/
def repOffsets : List (Nat × Nat) → List Nat
  | [] => [0]
  | (s, c) :: t => (List.range c).flatMap (fun i => (repOffsets t).map (· + s * i))

/-- Offsets of the counter registers of a block, ascending. -/
def counterOffsets (ar : Area) : List Nat :=
  ((catalogue.filter (fun r => r.area = ar && counterNames.contains r.name)).flatMap
    (fun r => (repOffsets r.reps).map (· + r.off))).mergeSort (· ≤ ·)

/-- COUNTERS_READ_EX. -/
def cmdCountersReadEx : Cmd :=
  { op := 0x581, len := words 1, free := true
    run := fun _ d _ w =>
      let u := fld (wd w 0) 7 0
      let ar : Area := if u < 144 then .bench else if u < 152 then .floor else .hub
      if reserved (wd w 0) [(7, 0)] || decide (152 < u) then badWord 0
      else .ok (d.wakeRegs [locBase u]) ((List.range 4).map (fun i => w64 (d.arithOf u i)) ++ (counterOffsets ar).map (fun o => d.reg (locBase u + o))) }

end Sys2Proof.Machine
end

