-- ==== Sys2Proof/Machine/Leave.lean ====
section
/-! DEFINITION. Leave: requests, grants, returns (18 R485 to R491). -/

namespace Sys2Proof.Machine

/-- The steward grants nothing beyond STANDING (18 R491, R498). -/
def Dev.leaveHeldBack (d : Dev) : Bool := d.get Reg.PWR_STATUS_OVER = 1 || d.get Reg.PWR_STATUS_THERM_WARN = 1

/-- Units a bench lacks for the record that waits on it, and the record's id (18 R487): lane row, awl, last, vector engine. -/
def leaveWanted (d : Dev) (b : Nat) : Option (Nat × Nat) :=
  let x := d.bn b
  let want (w : List W64) (c : Nat) : Option (Nat × Nat) :=
    let u := leaveUnits d c
    if leaveOk d b u then none else some (benchNeed d b + u - d.get (Reg.BENCH_LEAVE_HELD b), recId w)
  let lane := match x.lane.cur, x.lane.queue with
    | none, it :: _ => if (lrCheck d b true (codeHead d b it) it.words).isNone then want it.words (lrLeave it.words) else none
    | _, _ => none
  let eng (e : EngSt) : Option (Nat × Nat) := match e.cur with
    | some r => if r.phase = 0 then want r.item.words (engLeave r.item.words) else none
    | none => none
  (lane.orElse (fun _ => eng x.awl)).orElse (fun _ => (eng x.last).orElse (fun _ => eng x.vec))

/-- The records of a bench that waited for leave start (18 R488). -/
def runWaiting (d : Dev) (b : Nat) : Dev :=
  let d := if (d.bn b).lane.cur.isNone then laneRun d b else d
  let d := if (d.bn b).awl.cur.any (fun r => r.phase = 0) then engRun 0 d b else d
  let d := if (d.bn b).last.cur.any (fun r => r.phase = 0) then engRun 1 d b else d
  if (d.bn b).vec.cur.any (fun r => r.phase = 0) then engRun 2 d b else d

/-- Who waits for leave and how much: a bench's record, the hub's cellar-wide operation (144), BIST region i (145 + i). The
last number is the record id of a bench. -/
def Dev.leaveNeed (d : Dev) (who : Nat) : Option (Nat × Nat) :=
  if who < 144 then (if d.runs then leaveWanted d who else none)
  else if who = 144 then
    match d.ops.find? (fun o => o.running && !o.ready && (basicOp o.opcode = 0x502 || basicOp o.opcode = 0x305)) with
    | some _ => some (leaveUnits d 6, 0)
    | none => none
  else
    match d.bist[who - 145]? with
    | some r =>
      if r.stage = 0 && !r.asked && (d.bist.take (who - 145)).all (fun q => decide (2 ≤ q.stage)) then
        some (if r.code < 0x90 then 240 else if r.code < 0x108 then 160 else if r.code < 0x600 then leaveUnits d 6 else 40, 0)
      else none
    | none => none

/-- A grant reaches whoever asked (18 R488). -/
def Dev.giveLeave (d : Dev) (who units : Nat) : Dev :=
  let d := d.inc Reg.LEAVE_COUNT_GRANTS
  if who < 144 then
    let d : Dev := { d with granted := SMap.set (fun _ => 0) d.granted who (SMap.get (fun _ => 0) d.granted who + units) }
    runWaiting d.refreshLeave who
  else
    let d := ({ d with hubGrant := d.hubGrant + units }).refreshLeave
    if who = 144 then
      { d with ops := d.ops.map (fun o =>
          if o.running && (basicOp o.opcode = 0x502 || basicOp o.opcode = 0x305) then { o with ready := true } else o) }
    else { d with bist := d.bist.modify (who - 145) (fun r => { r with stage := 1, asked := true }) }

/-- A request that can never be granted (18 R488): a schedule fault of the record, or of the hub, whose operation ends. -/
def Dev.leaveNever (d : Dev) (who recordId : Nat) : Dev :=
  if who < 144 then seqFault d who recordId 0
  else
    let d := d.schedFault 152 0 0
    let d := if who = 144 then d.endOps (fun o => o.running && basicOp o.opcode = 0x502) stFailed rcFault
      else ({ d with bist := [] }).endOps (fun o => o.running && basicOp o.opcode = 0x503) stFailed rcFault
    d

/-- LEAVE_REQUEST: granted on arrival, or refused and queued (18 R488). -/
def Dev.leaveRequest (d : Dev) (who : Nat) : Dev :=
  if d.frozen || d.leaveQ.any (fun q => q.who = who) then d
  else match d.leaveNeed who with
  | none => d
  | some (units, id) =>
    if units = 0 then d.giveLeave who 0
    else if d.poolCapacity - d.standing < units then d.leaveNever who id
    else if d.leaveQ.isEmpty && !d.leaveHeldBack && decide (units ≤ d.get Reg.PWR_STATUS_FREE) then d.giveLeave who units
    else
      let d : Dev := { d with
        leaveQ := d.leaveQ ++ [⟨who, units⟩]
        bist := if 145 ≤ who then d.bist.modify (who - 145) (fun r => { r with asked := true }) else d.bist }
      d.inc Reg.LEAVE_COUNT_REFUSALS

/-- LEAVE_GRANT: the oldest waiting request is granted once the free units cover it (18 R488). -/
def Dev.leaveGrant (d : Dev) : Dev :=
  match d.leaveQ with
  | q :: rest =>
    if d.frozen || d.leaveHeldBack || decide (d.get Reg.PWR_STATUS_FREE < q.units) then d
    else ({ d with leaveQ := rest }).giveLeave q.who q.units
  | [] => d

/-- Leave of a cellar-wide operation or BIST region returns, and requests of theirs that still wait are dropped. -/
def Dev.returnHub (d : Dev) (units : Nat) : Dev := ({ d with hubGrant := d.hubGrant - units }).refreshLeave

/-- The start of a beat: benches return what they hold beyond STANDING and the largest need of the beat that ended
(18 R487). -/
def Dev.returnLeave (d : Dev) : Dev :=
  let keep (e : Nat × Nat) : Option (Nat × Nat) :=
    let s := d.get (Reg.BENCH_LEAVE_STANDING e.1)
    let n := min e.2 (SMap.get (fun _ => 0) d.maxNeed e.1 - s)
    if n = 0 then none else some (e.1, n)
  let granted := d.granted.filterMap keep
  let need := (List.range 144).filterMap (fun b => let n := benchNeed d b; if n = 0 then none else some (b, n))
  let d' : Dev := { d with granted := granted, maxNeed := need }
  if granted = d.granted then d' else d'.refreshLeave

end Sys2Proof.Machine
end

