-- ==== Sys2Proof/Machine/LongOps.lean ====
section
/-! DEFINITION. Domain formation, jobs, steps and scrubs: their commands, starts and ends (15 R429 to R435, 16 R446 to R458). -/

namespace Sys2Proof.Machine

/-- Accept a long operation when a test passes, else refuse. -/
def Ans.orElse_ (a : Option Ans) (b : Ans) : Ans := match a with | some x => x | none => b

/-- The first of a list of refusals whose condition holds. -/
def firstBad (l : List (Bool × Ans)) : Option Ans := (l.find? (fun p => p.1)).map Prod.snd

/-! ### DOMAIN_FORM (15 R434, 13 R358) -/

/-- A port word of DOMAIN_FORM. -/
abbrev pwUsed (w : W64) : Bool := bit w 63
abbrev pwPartner (w : W64) : Nat := fld w 13 4
abbrev pwPort (w : W64) : Nat := fld w 3 0

/-- What breaks R358 in a configuration: the word to name. -/
def formBad (w : List W64) : Option Ans :=
  let w0 := wd w 0
  let index := fld w0 63 54
  let last_ := fld w0 53 44
  let sub := fld w0 43 34
  let parent := fld w0 33 30
  let up := wd w (1 + parent)
  firstBad ([
    (reserved w0 [(63, 30)], badWord 0),
    (decide (last_ < index) || decide (sub < index) || decide (last_ < sub), badWord 0),
    (decide (index = 0) && !(decide (parent = 15) && decide (sub = last_)), badWord 0),
    (decide (index ≠ 0) && decide (12 ≤ parent), badWord 0)] ++
    ((List.range 12).map (fun k =>
      let p := wd w (1 + k)
      (reserved p [(63, 63), (13, 0)] ||
        (pwUsed p && (decide (last_ < pwPartner p) || decide (pwPartner p = index) || decide (12 ≤ pwPort p))), badWord (1 + k)))) ++
    [(decide (index ≠ 0) && !(pwUsed up && decide (pwPartner up < index)), badWord (1 + parent))])

/-- The minima of DOMAIN_FORM_EX that a register would refuse (13 R382). -/
def formExBad (w : List W64) : Option Ans :=
  let x := wd w 13
  firstBad [(reserved x [(29, 8)] || decide (fld x 29 24 < 2) || decide (fld x 23 18 < 1) || decide (fld x 29 24 ≤ fld x 23 18) ||
    decide (fld x 17 8 < 400), badWord 13)]

/-- The beat of acceptance and room for each port's calibration. -/
def Dev.noteForm (h : Hdr) (d : Dev) : Dev :=
  d.onOp (h.tag.toNat % 256) (fun o => { o with note := d.ageBeats :: List.replicate 36 0 })

/-- DOMAIN_FORM. -/
def cmdDomainForm : Cmd :=
  { op := 0x103, len := words 13, states := [1, 3, 4], pre := fun d => d.js = jsNone
    run := fun _ d h w => Ans.orElse_ (formBad w) ((d.acceptOp 0x103 h w).then_ (Dev.noteForm h)) }

/-- DOMAIN_FORM_EX. -/
def cmdDomainFormEx : Cmd :=
  { op := 0x183, len := words 14, states := [1, 3, 4], pre := fun d => d.js = jsNone
    run := fun _ d h w =>
      Ans.orElse_ ((formBad w).orElse (fun _ => formExBad w)) ((d.acceptOp 0x183 h w).then_ (Dev.noteForm h)) }

/-- The start: LAT_DOMAIN is written, used ports train, the others are UNUSED; floods are counted anew (13 R370). -/
def Dev.formStart (d : Dev) (o : LongOp) : Dev :=
  let w := o.params
  let d := ((d.set Reg.LAT_DOMAIN_DOMAIN_INDEX (fld (wd w 0) 63 54)).set Reg.LAT_DOMAIN_DOMAIN_LAST (fld (wd w 0) 53 44))
  let d := (d.set Reg.LAT_DOMAIN_SUBTREE_LAST (fld (wd w 0) 43 34)).set Reg.LAT_DOMAIN_PARENT_PORT (fld (wd w 0) 33 30)
  let d := if o.opcode = 0x183 then
      ((d.set Reg.LAT_DOMAIN_AGREE_BEATS (fld (wd w 13) 29 24)).set Reg.LAT_DOMAIN_FLOOD_BEATS (fld (wd w 13) 23 18)).set
        Reg.LAT_DOMAIN_RETRAIN_SLIP (fld (wd w 13) 17 8)
    else d
  let d : Dev := { d with lat := { freezes := d.lat.freezes } }
  (List.range 12).foldl (fun d k =>
    let p := wd w (1 + k)
    let d := d.setPort k (if pwUsed p then 1 else 7)
    ((((d.set (Reg.PORT_W0_LANES k) (if pwUsed p then 15 else 0)).set (Reg.PORT_W0_PARTNER k) (if pwUsed p then pwPartner p else 0)).set
      (Reg.PORT_W0_PARTNER_PORT k) (if pwUsed p then pwPort p else 0)).set (Reg.PORT_W0_DELAY k) 0).set (Reg.PORT_W0_BEAT_ERROR k) 0) d

/-- Every used port is UP. -/
def Dev.formUp (d : Dev) (o : LongOp) : Bool :=
  (List.range 12).all (fun k => !pwUsed (wd o.params (1 + k)) || d.get (Reg.PORT_W0_STATE k) = 3)

/-- DOMAIN_FORM_DONE: a tree that does not nest, or is deeper than five links, is refused (13 R358); the measured minima are set, or
compared with the caller's values (log entry 11). -/
def Dev.formDone (d : Dev) : Dev :=
  match d.forming with
  | none => d
  | some o =>
    if d.frozen || !d.formUp o then d
    else if !d.treeNests || decide (5 < Config.treeDepth (d.reg Reg.LAT_DOMAIN)) then d.opEnd o.slot stFailed rcParameter
    else
      let m := Config.formMinima (d.reg Reg.LAT_DOMAIN)
      let agree := max 2 (min 63 m.1)
      let flood := max 1 (min (agree - 1) m.2)
      let d := d.addResult o.slot [packFlds [(29, 24, agree), (23, 18, flood)]]
      if o.opcode = 0x183 then
        if d.get Reg.LAT_DOMAIN_AGREE_BEATS < agree ∨ d.get Reg.LAT_DOMAIN_FLOOD_BEATS < flood then
          d.opEnd o.slot stFailed rcParameter
        else d.opEnd o.slot stDone 0
      else
        (((d.set Reg.LAT_DOMAIN_AGREE_BEATS agree).set Reg.LAT_DOMAIN_FLOOD_BEATS flood).set
          Reg.LAT_DOMAIN_RETRAIN_SLIP 400).opEnd o.slot stDone 0

/-- DOMAIN_FORM_TIMEOUT: 10 s after acceptance a used port is not UP. -/
def Dev.formTimeout (d : Dev) : Dev :=
  match d.ops.find? (fun o => basicOp o.opcode = 0x103) with
  | some o =>
    if !d.frozen && decide (o.note.headD 0 + 10000000 ≤ d.ageBeats) && !(o.running && d.formUp o) then
      d.opEnd o.slot stFailed rcLink
    else d
  | none => d

/-! ### Loading, running, unloading (15 R429, R430) -/

/-- The checks of an image's place and identity. -/
def loadBad (w : List W64) : Option Ans :=
  let a := fld (wd w 0) 39 0
  firstBad [
    (reserved (wd w 0) [(39, 0)] || decide (cellarEnd ≤ a), badWord 0),
    (reserved (wd w 1) [(39, 0)] || decide (cellarEnd < a + fld (wd w 1) 39 0), badWord 1),
    (fld (wd w 3) 63 32 = 0, badWord 3),
    (reserved (wd w 4) [(39, 0)] || (fld (wd w 4) 39 0 ≠ 0 && decide (cellarEnd < fld (wd w 4) 39 0 + 4608)), badWord 4)]

/-- Some region is held in reset after a self-test (20 R526). -/
def Dev.held (d : Dev) : Bool :=
  (List.range 3).any (fun i => d.reg (Reg.BIST_HELD i) ≠ 0) || d.reg Reg.BIST_HELD3 ≠ 0

/-- JOB_LOAD and JOB_LOAD_EX. -/
def cmdLoad (op n : Nat) : Cmd :=
  { op := op, len := words n, states := [1, 3, 4], pre := fun d => d.js = jsNone && !d.held
    run := fun _ d h w => Ans.orElse_ (loadBad w) ((d.acceptOp op h w).then_ (fun d => d.setJs jsLoading)) }

/-- JOB_RUN and JOB_RUN_EX. -/
def cmdRun (op n : Nat) : Cmd :=
  { op := op, len := words n, states := [1, 3, 4]
    pre := fun d => (d.js = jsLoading || d.js = jsLoaded) && !d.opLive 0x302
    run := fun _ d h w => d.acceptOp op h w }

/-- JOB_RUN starts: the device is ready to join (16 R447). -/
def Dev.runStart (d : Dev) (o : LongOp) : Dev :=
  if d.js ≠ jsLoaded then d.opEnd o.slot stFailed rcState
  else
    let d := d.wakeAll
    let beat := if o.opcode = 0x382 then (wd o.params 0).toNat else 0
    { d with job := { d.job with joinReady := true, joinKind := 0, joinPoll := d.joinPollFor beat } }

/-- PREEMPT and PREEMPT_AT: a second one is refused while one is pending (16 R449, R455). -/
def cmdPreempting (op n : Nat) : Cmd :=
  { op := op, len := words n, states := [1, 3, 4]
    pre := fun d => d.js = jsRunning && !d.job.preempt && !d.opLive 0x303
    run := fun _ d h w =>
      if op = 0x383 && (reserved (wd w 0) [(15, 0)] || !feQuiesce (d.fenceEntry (fld (wd w 0) 15 0))) then badWord 0
      else d.acceptOp op h w }

/-- PREEMPT starts: its flood begins. -/
def Dev.preemptStart (d : Dev) (o : LongOp) : Dev :=
  if d.js ≠ jsRunning then d.opEnd o.slot stFailed rcState
  else
    let d : Dev := { d with job := { d.job with preemptAt := if o.opcode = 0x383 then some (fld (wd o.params 0) 15 0) else none } }
    d.floodPreempt

/-- Why a RESUME is refused (16 R454). -/
def Dev.resumeBad (d : Dev) : Option Ans :=
  let save := d.get Reg.JOB_SAVE_SAVE_ADDR
  match d.jobRuns save saveSize, d.xlate save with
  | some _, some x =>
    match d.saveRecord x.phys with
    | some w =>
      if fld (wd w 1) 63 32 ≠ d.get Reg.JOB_STATE_JOB_ID then some (.refuse rcState noDetail)
      else if d.widthBad (if d.get (Reg.LR_WIDTH_UNIFORM_EN 0) = 1 then 0 else 1) (d.get (Reg.LR_WIDTH_UNIFORM_WIDTH 0)) (wd w 13) then
        some (.refuse rcWidth noDetail)
      else none
    | none => some (.refuse rcState noDetail)
  | _, _ => some (.refuse rcTranslation noDetail)

/-- RESUME and RESUME_AT. -/
def cmdResuming (op n : Nat) : Cmd :=
  { op := op, len := words n, states := [1, 3, 4], pre := fun d => d.js = jsPreempted
    run := fun _ d h w => Ans.orElse_ d.resumeBad ((d.acceptOp op h w).then_ (fun d => d.setJs jsResuming)) }

/-- RESUME starts. -/
def Dev.resumeStart (d : Dev) (o : LongOp) : Dev :=
  let d := d.wakeAll
  let beat := if o.opcode = 0x384 then (wd o.params 0).toNat else 0
  { d with job := { d.job with joinReady := false, joinKind := 1, joinPoll := d.joinPollFor beat } }

/-- JOB_UNLOAD and JOB_UNLOAD_EX: JOB_RUN and STEP operations end; the note keeps the state to go back to. -/
def cmdUnload (op n : Nat) : Cmd :=
  { op := op, len := words n, states := [1, 3, 4], pre := fun d => d.js = jsLoaded || d.js = jsPreempted || d.js = jsEnded
    run := fun _ d h w => (d.acceptOp op h w).then_ (fun d =>
      let d := d.onOp (h.tag.toNat % 256) (fun o => { o with note := [d.js] })
      (d.endOps (fun o => basicOp o.opcode = 0x302 || basicOp o.opcode = 0x401) stAborted 0).setJs jsUnloading) }

/-- JOB_UNLOAD starts; its clears need leave (18 R486). -/
def Dev.unloadStart (d : Dev) (o : LongOp) : Dev :=
  let d := d.wakeAll.unloadRun o
  d.onOp o.slot (fun o => { o with ready := decide (leaveUnits d 6 = 0) })

/-- HALT. -/
def cmdHalt : Cmd :=
  { op := 0x307, len := words 0, states := [1, 3, 4], pre := fun d => d.js = jsRunning || d.js = jsPreempting
    run := fun _ d h w => d.acceptOp 0x307 h w }

/-- HALT starts, and ends at once: the job is ENDED (15 R429, 16 R455). -/
def Dev.haltStart (d : Dev) (o : LongOp) : Dev :=
  if d.js = jsRunning ∨ d.js = jsPreempting then (d.endJob stAborted 0 stAborted 0).opEnd o.slot stDone 0
  else d.opEnd o.slot stFailed rcState

/-! ### Steps (15 R431, R432; 12 R333) -/

/-- The slot of a step is busy (15 R413). -/
def Dev.slotBusy (d : Dev) (t : Nat) : Bool :=
  let phase := d.get Reg.STEP_STATE_PHASE
  d.get (Reg.STEP_W0_VALID (t % 2)) = 1 || ((phase = 1 || phase = 2) && d.get Reg.STEP_STATE_STEP % 2 = t % 2)

/-- Write a step descriptor: words 0 and 1 and the step sizes. -/
def Dev.writeStep (d : Dev) (t : Nat) (w0 w1 : W64) (etas : List W64) : Dev :=
  let base := Reg.STEP_W0 (t % 2)
  let d := (d.setReg base w0).setReg (base + 8) w1
  etas.zipIdx.foldl (fun d p => d.setReg (base + 64 + 8 * p.2) p.1) d

/-- A step's acceptance: its slot is written with VALID = 1. -/
def Dev.acceptStep (d : Dev) (op : Nat) (h : Hdr) (w : List W64) (t : Nat) (w0 w1 : W64) (etas : List W64) : Ans :=
  if t = 0 then badWord 0
  else match d.acceptOp op h w with
    | .accepted d' => if d.slotBusy t then .refuse rcBusy noDetail else .accepted (d'.writeStep t w0 w1 etas)
    | a => a

/-- STEP. -/
def cmdStep : Cmd :=
  { op := 0x401, len := words 2, states := [1, 3, 4], pre := Dev.jobLoaded
    run := fun _ d h w =>
      let t := fld (wd w 0) 63 32
      let eta := fld (wd w 1) 63 32
      if reserved (wd w 1) [(63, 23)] then badWord 1
      else d.acceptStep 0x401 h w t
        (packFlds [(63, 32, t), (31, 31, 1), (30, 30, fld (wd w 1) 31 31), (29, 26, fld (wd w 1) 30 27), (25, 22, fld (wd w 1) 26 23)])
        (packFlds [(63, 32, fld (wd w 0) 31 0)]) (List.replicate 128 (packFlds [(63, 32, eta), (31, 0, eta)])) }

/-- STEP_EX. -/
def cmdStepEx : Cmd :=
  { op := 0x481, len := words 136, states := [1, 3, 4], pre := Dev.jobLoaded
    run := fun _ d h w =>
      d.acceptStep 0x481 h w (fld (wd w 0) 63 32)
        (packFlds [(63, 32, fld (wd w 0) 63 32), (31, 31, 1), (30, 22, fld (wd w 0) 30 22)])
        (packFlds [(63, 32, fld (wd w 1) 63 32)]) (w.drop 8) }

/-- A STEP that ends QUEUED takes its descriptor back. -/
def Dev.withdrawStep (d : Dev) (o : LongOp) : Dev :=
  let t := fld (wd o.params 0) 63 32
  if d.get (Reg.STEP_W0_T (t % 2)) = t then d.set (Reg.STEP_W0_VALID (t % 2)) 0 else d

/-! ### SCRUB (15 R435) -/

/-- SCRUB. -/
def cmdScrub : Cmd :=
  { op := 0x502, len := words 0, states := [1, 3, 4], pre := fun d => d.js = jsNone
    run := fun _ d h w => d.acceptOp 0x502 h w }

/-- SCRUB_EX. -/
def cmdScrubEx : Cmd :=
  { op := 0x582, len := words 10, states := [1, 3, 4], pre := fun d => d.js = jsNone
    run := fun _ d h w =>
      if reserved (wd w 0) [(0, 0)] then badWord 0
      else if bit (wd w 0) 0 && (bit (wd w 9) 62 || bit (wd w 9) 63) then badWord 9
      else d.acceptOp 0x582 h w }

/-- A scrub starts: it needs leave. -/
def Dev.scrubStart (d : Dev) (o : LongOp) : Dev :=
  d.wakeAll.onOp o.slot (fun o => { o with ready := decide (leaveUnits d 6 = 0) })

/-- A patrol of one segment: each codeword in error is met; the uncorrectable ones are listed (10 R294, R296). -/
def Dev.patrol (d : Dev) (s : Nat) : Dev × List Nat :=
  (d.errIn (2 ^ 30 * s) (2 ^ 30)).foldl (fun x e =>
    let k := cellarOf e.1
    if x.1.codeError e.1 e.2 = 3 then
      (((x.1.inc (Reg.CELLAR_ECC_UNCORRECTABLE k)).fault { kind := fkLatent, unit := 144 + k, addr := e.1 } dLatent), x.2 ++ [e.1])
    else (x.1.codewordMet e.1 e.2, x.2)) (d, [])

/-- SCRUB_DONE: the pass over its segments; PARTIAL counts the uncorrectable codewords (log entry 47). -/
def Dev.scrubDone (d : Dev) : Dev :=
  match d.runningOp 0x502 with
  | none => d
  | some o =>
    if !o.ready || d.frozen then d
    else
      let d : Dev :=
        if o.opcode = 0x582 && bit (wd o.params 0) 0 then (scrubSegs o).foldl Dev.clearSegment d
        else
          let x := (scrubSegs o).foldl (fun (x : Dev × List Nat) s => let y := x.1.patrol s; (y.1, x.2 ++ y.2)) (d, [])
          let recs := (chunk 8 1024 x.2).map (fun l => l.map w64 ++ List.replicate (8 - l.length) 0)
          let d : Dev := { x.1 with results := SMap.set (fun _ => []) x.1.results o.slot recs }
          d.setStatusFld o.slot 49 34 (min 65535 x.2.length)
      (d.returnHub d.hubGrant).opEnd o.slot stDone 0

end Sys2Proof.Machine
end

