-- ==== Sys2Proof/Machine/Bist.lean ====
section
/-! DEFINITION. Built-in self-test: regions, patterns, order, results and what failures lead to (20 R517 to R528). -/

namespace Sys2Proof.Machine

/-- Kinds of region (20 R517). -/
inductive RegionKind where
  | bench | floor | segment | saveArea | port
  deriving DecidableEq, Repr

/-- The kind of a region code; none for a code that R517 does not list. -/
def regionKind (c : Nat) : Option RegionKind :=
  if c ≤ 0x8F then some .bench
  else if 0x100 ≤ c ∧ c ≤ 0x107 then some .floor
  else if 0x200 ≤ c ∧ c ≤ 0x43D then some .segment
  else if c = 0x500 then some .saveArea
  else if 0x600 ≤ c ∧ c ≤ 0x60B then some .port else none

/-- Pattern bits that a kind admits (20 R520). -/
def kindMask : RegionKind → Nat
  | .bench => 0x7F
  | .floor => 0x57
  | .segment => 0x0E
  | .saveArea => 0x06
  | .port => 0x80

/-- The field set's mask of a kind, and the full set's (20 R521); 0 when the set leaves the kind out. -/
def setMask (full : Bool) : RegionKind → Nat
  | .bench => if full then 0x7F else 0x33
  | .floor => if full then 0x57 else 0x13
  | .segment => if full then 0x0E else 0x04
  | .saveArea => if full then 0x06 else 0x04
  | .port => if full then 0x80 else 0

/-- A port may be tested: DOWN, UNUSED or FAILED (20 R519). -/
def Dev.portTestable (d : Dev) (p : Nat) : Bool :=
  let s := d.get (Reg.PORT_W0_STATE p)
  s = 0 || s = 6 || s = 7

/-- The regions of a set, in their order (20 R521, R522). -/
def Dev.setRegions (d : Dev) (full : Bool) : List Region :=
  let part (k : RegionKind) (l : List Nat) : List Region :=
    if setMask full k = 0 then [] else l.map (fun c => { code := c, mask := setMask full k, stage := 0 })
  part .bench (List.range 144) ++ part .floor ((List.range 8).map (· + 0x100)) ++ part .saveArea [0x500] ++
  part .segment ((List.range 574).map (· + 0x200)) ++
  part .port (((List.range 12).filter d.portTestable).map (· + 0x600))

/-- The full set runs in MANUFACTURE and SERVICE (20 R521). -/
def Dev.fullSet (d : Dev) : Bool := d.life ≠ 3

/-- BIST. -/
def cmdBist : Cmd :=
  { op := 0x503, len := words 0, states := [1, 3, 4], pre := fun d => d.js = jsNone
    run := fun _ d h w => d.acceptOp 0x503 h w }

/-- The code and mask of a word of BIST_EX. -/
abbrev bwCode (w : W64) : Nat := fld w 15 0
abbrev bwMask (w : W64) : Nat := fld w 47 16

/-- Why a word of BIST_EX is refused; `before` lists the codes of earlier words (20 R517, R519 to R521). -/
def Dev.bistWordBad (d : Dev) (before : List Nat) (i : Nat) (w : W64) : Option Ans :=
  match regionKind (bwCode w) with
  | none => some (badWord i)
  | some k =>
    if reserved w [(47, 0)] || before.contains (bwCode w) || bwMask w = 0 || decide (256 ≤ bwMask w) ||
        (bwMask w &&& kindMask k) ≠ bwMask w then some (badWord i)
    else if k = .port && !d.portTestable (bwCode w - 0x600) then some (.refuse rcState i)
    else none

/-- BIST_EX. -/
def cmdBistEx : Cmd :=
  { op := 0x583, len := fun w => decide (w ≠ []) && w.length = 1 + fld (wd w 0) 7 0, states := [1, 4], pre := fun d => d.js = jsNone
    run := fun _ d h w =>
      let n := fld (wd w 0) 7 0
      let codes := (w.drop 1).map (fun (x : W64) => bwCode x)
      if reserved (wd w 0) [(7, 0)] then badWord 0
      else Ans.orElse_ ((List.range n).findSome? (fun i => d.bistWordBad (codes.take i) (1 + i) (wd w (1 + i)))) (d.acceptOp 0x583 h w) }

/-- A self-test starts. Its note is empty while it runs on; [1] once it is to end ABORTED, [2, code] once it is to end
FAILED. -/
def Dev.bistStart (d : Dev) (o : LongOp) : Dev :=
  let listed := (o.params.drop 1).map (fun w => ({ code := bwCode w, mask := bwMask w, stage := 0 } : Region))
  let l := if o.opcode = 0x583 && !listed.isEmpty then listed else d.setRegions (o.opcode = 0x583 || d.fullSet)
  ({ d.wakeAll with bist := l }).inc Reg.BIST_COUNT_RUNS

/-- The self-test that runs. -/
def Dev.testing (d : Dev) : Option LongOp := d.runningOp 0x503

/-- Units of leave that a region asks (20 R517). -/
def Dev.regionUnits (d : Dev) (c : Nat) : Nat :=
  match regionKind c with
  | some .bench => 240
  | some .floor => 160
  | some .port => 40
  | _ => leaveUnits d 6

/-- A region may run beside those that run (20 R522). -/
def Dev.regionFits (d : Dev) (c : Nat) : Bool :=
  let run := d.bist.filter (fun r => r.stage = 2)
  let count (k : RegionKind) : Nat := (run.filter (fun r => regionKind r.code = some k)).length
  let alone (k : Option RegionKind) : Bool := k = some .segment || k = some .saveArea
  if alone (regionKind c) then run.isEmpty
  else !run.any (fun r => alone (regionKind r.code)) &&
    (regionKind c ≠ some .bench || decide (count .bench < 16)) && (regionKind c ≠ some .floor || decide (count .floor < 2))

/-- The physical bytes that a region saves. -/
def regionBytes (c : Nat) : Option (Nat × Nat) :=
  match regionKind c with
  | some .bench => some (spBase c, spSize)
  | some .segment => some (2 ^ 30 * (c - 0x200), 2 ^ 30)
  | _ => none

/-- Where a region that runs keeps what it covers: one of sixteen bench save slots, or the whole save area for a segment
(20 R517, R518). A floor's SRAM holds nothing but what State holds of the floor, which a test leaves as it is (log entry 63). -/
def saveSlot (r : Region) : Option Nat :=
  match regionKind r.code with
  | some .bench => some (574 * 2 ^ 30 + r.slot * spSize)
  | some .segment => some (574 * 2 ^ 30)
  | _ => none

/-- The lowest bench save slot that no running region uses. -/
def Dev.freeSlot (d : Dev) : Nat :=
  (findIdx (fun i => d.bist.all (fun r => r.stage ≠ 2 || regionKind r.code ≠ some .bench || r.slot ≠ i)) 16).getD 0

/-- The result record of a region (20 R524). -/
def regionRecord (r : Region) (outcome first die cellar lanes addr inject fails : Nat) (map : Nat) : List W64 :=
  [packFlds [(63, 48, r.code), (47, 44, outcome), (39, 8, r.mask), (7, 0, first)], w64 r.beat,
   packFlds [(63, 60, die), (59, 56, cellar), (55, 48, lanes), (39, 0, addr)], packFlds [(63, 32, inject), (31, 0, fails)]] ++
  (List.range 4).map (fun i => w64 (map / 2 ^ (64 * i)))

/-- The self-test ends once nothing of it runs: when every region has ended, or when it is to stop; regions that never
started are recorded NOT_RUN (20 R524, R526). -/
def Dev.bistSettle (d : Dev) : Dev :=
  match d.testing with
  | none => d
  | some o =>
    let past := d.bist.all (fun r => r.stage = 3)
    if d.bist.any (fun r => r.stage = 2) || (o.note = [] && !past) then d
    else
      let rest := d.bist.filter (fun r => r.stage ≠ 3)
      let d := rest.foldl (fun d r => d.addResult o.slot (regionRecord r 3 0xFF 0xF 0 0 0 0 0 0)) d
      let d := ({ d with bist := [], leaveQ := d.leaveQ.filter (fun q => decide (q.who ≤ 144)) }).returnHub d.hubGrant
      match o.note with
      | [] => d.opEnd o.slot stDone 0
      | [1] => d.opEnd o.slot stAborted 0
      | l => d.opEnd o.slot stFailed (l.getD 1 rcFault)

/-- Mark a self-test as one that is to end, unless it is already. -/
def Dev.bistStop (d : Dev) (note : List Nat) : Dev :=
  match d.testing with
  | some o => (d.onOp o.slot (fun o => if o.note = [] then { o with note := note } else o)).bistSettle
  | none => d

/-- BIST_REGION_START: a region saves, then tests; a save that meets an uncorrectable word ends the self-test (20 R480,
R522). -/
def Dev.regionStart (d : Dev) (code : Nat) : Dev :=
  match d.testing, d.bist.findIdx? (fun r => r.code = code) with
  | some o, some i =>
    match d.bist[i]? with
    | none => d
    | some r =>
      let led : Bool := (d.bist.take i).all (fun q => decide (2 ≤ q.stage))
      let leave : Bool := decide (r.stage = 1) || (decide (r.stage = 0) && decide (d.regionUnits code = 0))
      if !(o.note = [] && led && leave && d.regionFits code && !d.frozen) then d
      else
        let bad := match regionBytes code with | some p => d.badPhys p.1 p.2 | none => none
        match bad with
        | some a =>
          let d := d.addResult o.slot (regionRecord { r with beat := d.beat } 3 0xFF 0xF 0 0 a 0 0 0)
          let d := ({ d with bist := d.bist.modify i (fun r => { r with stage := 3 }) }).returnHub (d.regionUnits code)
          d.bistStop [2, rcUncorrectable]
        | none =>
          let r : Region := { r with stage := 2, beat := d.beat, slot := d.freeSlot }
          let d := match regionBytes code, saveSlot r with
            | some p, some to_ => (d.rdPhys p.1 p.2).1.copyRange p.1 to_ p.2
            | _, _ => d
          { d with bist := d.bist.set i r }
  | _, _ => d

/-- Units of a failed region are held in reset (20 R525, R528); a segment's by the cellar of its first failing word. -/
def Dev.holdRegion (d : Dev) (c addr : Nat) : Dev :=
  let orFld (d : Dev) (f : Fld) (b : Nat) : Dev := d.set f (d.get f ||| 2 ^ b)
  match regionKind c with
  | some .bench => orFld d (Reg.BIST_HELD_BENCH_HELD (c / 64)) (c % 64)
  | some .floor => orFld d Reg.BIST_HELD3_FLOOR_HELD (c - 0x100)
  | some .port => orFld d Reg.BIST_HELD3_PORT_HELD (c - 0x600)
  | _ => orFld d Reg.BIST_HELD3_FLOOR_HELD (cellarOf addr)

/-- What was found when a region's restore ended, as a test reports it: first failing pattern bit (0xFF none), die,
cellar, first failing address, injections answered, failing words, and lanes newly found bad (20 R524). -/
structure Found where
  first : Nat
  die : Nat
  cellar : Nat
  addr : Nat
  inject : Nat
  fails : Nat
  lanes : List Nat
  deriving DecidableEq, Repr

/-- Findings from a row's numbers. -/
def Found.of (l : List Nat) : Found :=
  { first := l.getD 0 0xFF, die := l.getD 1 0xF, cellar := l.getD 2 0, addr := l.getD 3 0, inject := l.getD 4 0
    fails := l.getD 5 0, lanes := (uniq (l.drop 6)).filter (· < 256) }

/-- PASS 0, FAIL 1 or REPAIRED 2 (20 R525), and a bench's bypass map with its new lanes. -/
def Dev.outcomeOf (d : Dev) (r : Region) (f : Found) : Nat × Nat :=
  let old := if r.code < 144 then d.bypassMap r.code ||| (d.repair.1.maps.getD r.code 0) else 0
  let map := f.lanes.foldl (fun m l => m ||| 2 ^ l) old
  if f.first = 0xFF then (0, old)
  else match regionKind r.code with
    | some .bench => if f.first = 5 ∧ f.lanes ≠ [] ∧ popcount 256 map ≤ 16 then (2, map) else (1, map)
    | some .segment => if f.die < 12 ∧ f.cellar < 8 ∧ d.get (Reg.CELLAR_DIE_MARK_VALID f.cellar) = 0 then (2, 0) else (1, 0)
    | _ => (1, 0)

/-- BIST_REGION_END: restore, record, leave back, consequences (20 R523 to R526). -/
def Dev.regionEnd (d : Dev) (code : Nat) (seen : List Nat) : Dev :=
  match d.testing, d.bist.findIdx? (fun r => r.code = code) with
  | some o, some i =>
    match d.bist[i]? with
    | none => d
    | some r =>
      if r.stage ≠ 2 || d.frozen then d
      else
        let f := Found.of seen
        let (outcome, map) := d.outcomeOf r f
        let back := match regionBytes code, saveSlot r with | some p, some from_ => some (p, from_) | _, _ => none
        let lost := back.bind (fun x => d.badPhys x.2 x.1.2)
        -- the restore writes every word afresh; the save area's own test keeps nothing
        let d := match back with
          | some (p, from_) => (d.rdPhys from_ p.2).1.copyRange from_ p.1 p.2
          | none => if code = 0x500 then d.zeroRange (574 * 2 ^ 30) (2 ^ 30) else d
        let d := d.addResult o.slot (regionRecord r outcome f.first f.die f.cellar f.lanes.length f.addr f.inject f.fails map)
        let d := ({ d with bist := d.bist.modify i (fun r => { r with stage := 3 }) }).returnHub (d.regionUnits code)
        if lost.isSome then (d.addResult o.slot (regionRecord r 3 0xFF 0xF 0 0 (lost.getD 0) 0 0 0)).bistStop [2, rcUncorrectable] else
        let deployed := d.life = 3
        let d :=
          if outcome = 1 then
            let d := (d.inc Reg.BIST_COUNT_FAILS).holdRegion code f.addr
            if deployed then
              let d := match regionKind code with
                | some .bench => d.enterSafe scBench
                | some .port => d
                | _ => d.enterSafe scFloor
              d.bistStop [2, rcFault]
            else d
          else if outcome = 2 then
            let d := d.inc Reg.BIST_COUNT_REPAIRS
            if regionKind code = some .bench then
              let d := d.setRepair (fun x => { x with maps := x.maps.set code map })
              if deployed then d.enterSafe scLane else d
            else d.markDie f.cellar f.die
          else d
        d.bistSettle
  | _, _ => d

end Sys2Proof.Machine
end

