-- ==== Sys2Proof/Machine/Secure.lean ====
section
/-! DEFINITION. Life cycle, certificates, firmware images, attestation (19 R501 to R515). Falcon-1024 and the keys are open
(log entry 10); the places of header fields that R509 does not give are log entry 48's. -/

namespace Sys2Proof.Machine

/-! ### Fuses (19 R502, R506) -/

/-- A state word counts as blown. -/
def Fuses.blown (f : Fuses) (n : Nat) : Bool := decide (5 ≤ f.lcWords.getD (n - 1) 0)

/-- The fused life-cycle state. -/
def Fuses.life (f : Fuses) : Nat :=
  if f.blown 5 then 5 else if f.blown 3 then 3 else if f.blown 2 then 2 else if f.blown 1 then 1 else 0

/-- Blow every fuse of state word n. -/
def Fuses.blow (f : Fuses) (n : Nat) : Fuses := { f with lcWords := f.lcWords.set (n - 1) 8 }

/-- Blow every seed fuse. -/
def Fuses.destroySeeds (f : Fuses) : Fuses := { f with banks := f.banks.map (fun _ => .destroyed) }

/-- The bank in use: the highest-numbered one whose CRC holds, with its seed. -/
def Fuses.seed (f : Fuses) : Option (Nat × List Byte) :=
  (f.banks.zipIdx.filterMap (fun p => match p.1 with | .seed b => some (p.2, b) | _ => none)).getLast?

/-- SEED_BANK of LC_STATUS (19 R516). -/
def Fuses.seedBank (f : Fuses) : Nat := match f.seed with | some (i, _) => i + 1 | none => 0

/-- The life-cycle state moves, and the move is logged (21 R541). -/
def Dev.setLife (d : Dev) (new : Nat) : Dev :=
  let old := d.life
  if old = new then d else (d.set Reg.LC_STATUS_STATE new).logEv 1 0x080 [packFlds [(3, 0, old), (7, 4, new)]]

/-- LC_CHALLENGE takes fresh random bits (19 R513; log entry 13). -/
def Dev.renewChallenge (d : Dev) : Dev :=
  let (l, d) := Dev.freeWords 4 d
  (List.range 4).foldl (fun d i => d.setReg (Reg.LC_CHALLENGE i) (wd l i)) d

/-! ### Certificates (19 R507, R508) -/

/-- Length of a Falcon-1024 public key. -/
abbrev keyLen : Nat := 1793

/-- Certificate slot i. -/
def Dev.certSlot (d : Dev) (i : Nat) : List Byte := d.flashRead (0x2110000 + 0x1000 * i) 3200

/-- Word i of a certificate. -/
def certWord (c : List Byte) (i : Nat) : W64 := w64 (ofLe ((c.drop (8 * i)).take 8))

/-- KIND of a certificate. -/
abbrev certKind (c : List Byte) : Nat := fld (certWord c 0) 31 28

/-- The subject's public key. -/
def certKey (c : List Byte) : List Byte := (c.drop 64).take keyLen

/-- TAG, reserved fields and SERIAL are as R507 lays down. -/
def certForm (c : List Byte) : Bool :=
  fld (certWord c 0) 63 32 = 0x43455254 && fld (certWord c 0) 27 0 = 0 && decide (certKind c ≤ 3) &&
  (certKind c = 1 || certWord c 1 = 0) && (List.range 4).all (fun i => certWord c (4 + i) = 0)

/-- A certificate is issued by a key. -/
def issuedBy (key c : List Byte) : Bool :=
  (c.drop 16).take 16 = shake256 16 key && Config.falconVerify key (shake256 64 (c.take 1920)) ((c.drop 1920).take 1280)

/-- The root key, when its digest is the ROM's. -/
def Dev.rootKey (d : Dev) : Option (List Byte) :=
  let k := d.flashRead 0x2000 keyLen
  if shake256 64 k = Config.rootDigest then some k else none

/-- A certificate chains to the root, through INTERMEDIATE certificates of the slots (19 R508; log entry 49). -/
def Dev.chains (d : Dev) : Nat → List Byte → Bool
  | 0, _ => false
  | n + 1, c =>
    certForm c &&
    ((match d.rootKey with | some k => issuedBy k c | none => false) ||
      (List.range 16).any (fun i =>
        let u := d.certSlot i
        certKind u = 0 && issuedBy (certKey u) c && d.chains n u))

/-- Slots 0 and 1 hold a valid chain for the device's own key and serial number (19 R503, R508). -/
def Dev.ownChain (d : Dev) (f : Fuses) : Bool :=
  let leaf := d.certSlot 0
  let mid := d.certSlot 1
  match f.seed, d.rootKey with
  | some (_, s), some root =>
    certForm leaf && certForm mid && certKind leaf = 1 && certKind mid = 0 && certWord leaf 1 = f.serial &&
    certKey leaf = Config.identityKey s && issuedBy (certKey mid) leaf && issuedBy root mid
  | _, _ => false

/-! ### Firmware images (19 R509 to R511) -/

/-- A firmware image taken apart. -/
structure FwImage where
  version : Nat
  security : Nat
  digest : List Byte
  deriving DecidableEq, Repr

/-- Verify an image under R510: its form, its length, its signer's chain, its signature, its SECURITY_VERSION. -/
def Dev.verifyImage (d : Dev) (rollback : Nat) (l : List Byte) : Option FwImage :=
  let w0 := certWord l 0
  let w1 := certWord l 1
  let body := fld w1 31 0
  let img := l.take (8192 + body)
  let zeroed := img.take 3264 ++ List.replicate 1280 0 ++ img.drop 4544
  let signer := (img.drop 64).take 3200
  let digest := shake256 64 zeroed
  if l.length < 8192 + body ∨ fld w0 63 32 ≠ 0x4657494D ∨ 64 < fld w1 63 32 then none
  else if fld w1 63 32 < rollback then none
  else if !(certKind signer = 2 && d.chains 17 signer) then none
  else if !Config.falconVerify (certKey signer) digest ((img.drop 3264).take 1280) then none
  else some { version := fld w0 31 0, security := fld w1 63 32, digest := digest }

/-- First flash byte and size of a firmware slot. -/
def fwSlot (i : Nat) : Nat := if i = 0 then 0x100000 else 0x1100000
abbrev fwSlotSize : Nat := 0x1000000

/-- The image in a firmware slot: its header and the body it names. -/
def Dev.slotImage (d : Dev) (i : Nat) : List Byte :=
  let h := d.flashRead (fwSlot i) 16
  d.flashRead (fwSlot i) (min fwSlotSize (8192 + fld (certWord h 1) 31 0))

/-- A directory copy: its sequence number and active slot. -/
def Dev.dirCopy (d : Dev) (i : Nat) : Option (Nat × Nat) :=
  let l := d.flashRead (4096 * i) 4096
  if ofLe (l.drop 4092) = crc32c 0xFFFFFFFF (l.take 4092) then some (ofLe (l.take 8), ((l.drop 8).headD 0).toNat % 2) else none

/-- The directory in force: sequence number, active slot, and the copy to be overwritten next (19 R510, R511). -/
def Dev.directory (d : Dev) : Nat × Nat × Nat :=
  match d.dirCopy 0, d.dirCopy 1 with
  | some a, some b => if a.1 ≤ b.1 then (b.1, b.2, 0) else (a.1, a.2, 1)
  | some a, none => (a.1, a.2, 1)
  | none, some b => (b.1, b.2, 0)
  | none, none => (0, 0, 0)

/-- Write the directory: the other copy takes the next sequence number and names the active slot. -/
def Dev.setDirectory (d : Dev) (slot : Nat) : Dev :=
  let (s, _, i) := d.directory
  let body := toLe 8 (s + 1) ++ [byteOf slot] ++ List.replicate 4083 0
  d.flashWrite (4096 * i) (body ++ toLe 4 (crc32c 0xFFFFFFFF body))

/-- A physical range of cellars of a firmware or flash command. -/
def cellarRange (a n : Nat) (i : Nat) : Option Ans :=
  firstBad [(decide (cellarEnd ≤ a), badWord i), (decide (cellarEnd < a + n), badWord (i + 1))]

/-- FIRMWARE_UPDATE. -/
def cmdFirmwareUpdate : Cmd :=
  { op := 0x703, len := words 2, states := [0, 1, 2, 3, 4], pre := fun d => d.js = jsNone
    run := fun _ d h w =>
      if reserved (wd w 0) [(39, 0)] then badWord 0
      else if reserved (wd w 1) [(31, 0)] || decide (fwSlotSize < fld (wd w 1) 31 0) then badWord 1
      else Ans.orElse_ (cellarRange (fld (wd w 0) 39 0) (fld (wd w 1) 31 0) 0) (d.acceptOp 0x703 h w) }

/-- The image that a FIRMWARE_UPDATE names. -/
def Dev.updateImage (d : Dev) (o : LongOp) : Except Nat (List Byte) :=
  d.readChecked (fld (wd o.params 0) 39 0) (fld (wd o.params 1) 31 0)

/-- FIRMWARE_UPDATE starts: the image is verified before any byte of flash is written. -/
def Dev.updateStart (d : Dev) (f : Fuses) (o : LongOp) : Dev :=
  let d := d.wakeAll
  match d.updateImage o with
  | .error c => d.opEnd o.slot stFailed c
  | .ok l =>
    match d.verifyImage f.rollback l with
    | none => d.opEnd o.slot stFailed rcAuth
    | some _ => d.onOp o.slot (fun o => { o with ready := true })

/-- FIRMWARE_UPDATE_DONE: slot written, read back and verified, then the directory. -/
def Dev.updateDone (d : Dev) (f : Fuses) : Dev :=
  match d.ops.find? (fun o => o.running && o.opcode = 0x703) with
  | none => d
  | some o =>
    if !o.ready || d.frozen then d
    else match d.updateImage o with
      | .error c => d.opEnd o.slot stFailed c
      | .ok l =>
        let slot := 1 - d.directory.2.1
        let d := d.flashWrite (fwSlot slot) l
        match d.verifyImage f.rollback (d.slotImage slot) with
        | none => d.opEnd o.slot stFailed rcAuth
        | some _ => (d.setDirectory slot).opEnd o.slot stDone 0

/-- The size of the serial flash that R509 lays out. -/
abbrev flashSize : Nat := 0x4000000

/-- FLASH_WRITE: in PROVISIONED only certificate slots. -/
def cmdFlashWrite : Cmd :=
  { op := 0x783, len := words 3, states := [0, 1, 2, 4], pre := fun d => d.js = jsNone
    run := fun _ d h w =>
      let a := fld (wd w 0) 31 0
      let n := fld (wd w 2) 31 0
      if d.life = 2 && !(decide (0x2110000 ≤ a) && decide (a + n ≤ 0x2120000)) then .refuse rcState noDetail
      else if reserved (wd w 0) [(31, 0)] || decide (flashSize ≤ a) then badWord 0
      else if reserved (wd w 1) [(39, 0)] then badWord 1
      else if reserved (wd w 2) [(31, 0)] || decide (flashSize < a + n) then badWord 2
      else match d.physTo (fld (wd w 1) 39 0) n false with
        | .no c => .refuse c 1
        | _ => d.acceptOp 0x783 h w }

/-- FLASH_WRITE starts. -/
def Dev.flashStart (d : Dev) (o : LongOp) : Dev := d.wakeAll.onOp o.slot (fun o => { o with ready := true })

/-- FLASH_WRITE_DONE. -/
def Dev.flashDone (d : Dev) : Dev :=
  match d.ops.find? (fun o => o.running && o.opcode = 0x783) with
  | none => d
  | some o =>
    if !o.ready || d.frozen then d
    else match d.readChecked (fld (wd o.params 1) 39 0) (fld (wd o.params 2) 31 0) with
      | .error c => d.opEnd o.slot stFailed c
      | .ok l => (d.flashWrite (fld (wd o.params 0) 31 0) l).opEnd o.slot stDone 0

/-! ### Transitions (19 R503, R504, R512, R513) -/

/-- An operation that bars a transition is queued or running. -/
def Dev.lifeBusy (d : Dev) : Bool := d.opLive 0x701 || d.opLive 0x703

/-- A refusal with AUTH, counted (19 R516). -/
def Dev.authFails (d : Dev) : Ans := .refuseWith (d.inc Reg.LC_COUNT_AUTH_FAILURES) rcAuth noDetail

/-- LIFECYCLE_ADVANCE. -/
def cmdLifecycleAdvance : Cmd :=
  { op := 0x702, len := words 1, states := [0, 1, 2, 3, 4]
    run := fun f d _ w =>
      let lo := fld (wd w 0) 31 0
      let target := fld (wd w 0) 3 0
      let life := d.life
      if fld (wd w 0) 63 32 ≠ 2 ^ 32 - 1 - lo ∨ 16 ≤ lo then badWord 0
      else if !([(0, 1), (1, 2), (2, 3), (3, 5), (4, 5)].contains (life, target)) || d.js ≠ jsNone then .refuse rcState noDetail
      else if d.lifeBusy then .refuse rcBusy noDetail
      else if target = 1 then .okF (f.blow 1) (d.setLife 1) []
      else if target = 2 then
        match f.banks.findIdx? (fun b => b = .unblown) with
        | none => .refuse rcState noDetail
        | some i =>
          -- the seed is drawn, fused and read back; a bank that fails its check is abandoned (log entry 13)
          let (v, d) := d.free?
          let (l, d) := Dev.freeWords 4 d
          let seed := wordsBytes l
          if bit v 0 then .refuseF { f with banks := f.banks.set i .abandoned } d rcState
          else
            let f := { f with banks := f.banks.set i (.seed seed) }
            let key := (Config.identityKey seed).take keyLen
            let d := (d.set Reg.LC_STATUS_SEED_BANK f.seedBank).setLife 2
            .okF (f.blow 2) d (bytesWords 225 (key ++ List.replicate (1800 - key.length) 0))
      else if target = 3 then
        if d.ownChain f then .okF (f.blow 3) (d.setLife 3) [] else d.authFails
      else
        let d : Dev := { d with boot := { d.boot with service := false } }
        .okF ((f.blow 5).destroySeeds) ((d.set Reg.LC_STATUS_SEED_BANK 0).setLife 5) [] }

/-- An authorisation is valid (19 R512, R513). -/
def Dev.authorised (d : Dev) (f : Fuses) (target : Nat) (l : List Byte) : Bool :=
  let w (i : Nat) : W64 := certWord l i
  let slot := fld (w 0) 3 0
  let cert := d.certSlot slot
  decide (1344 ≤ l.length) && fld (w 0) 63 32 = 0x41555448 && fld (w 0) 31 28 = target && fld (w 0) 27 4 = 0 &&
  decide (2 ≤ slot) && w 1 = f.serial && (List.range 4).all (fun i => w (2 + i) = d.reg (Reg.LC_CHALLENGE i)) &&
  w 6 = 0 && w 7 = 0 && certKind cert = 3 && d.chains 17 cert &&
  Config.falconVerify (certKey cert) (shake256 64 (l.take 64)) ((l.drop 64).take 1280)

/-- LIFECYCLE_AUTH: between DEPLOYED and SERVICE; every one renews LC_CHALLENGE. -/
def cmdLifecycleAuth : Cmd :=
  { op := 0x782, len := fun w => decide (1 ≤ w.length) && decide (w.length ≤ 257), states := [3, 4], refused := Dev.renewChallenge
    run := fun f d _ w =>
      let target := fld (wd w 0) 3 0
      let no (c i : Nat) : Ans := .refuseWith d.renewChallenge c i
      if reserved (wd w 0) [(3, 0)] then no rcParameter 0
      else if !([(3, 4), (4, 3)].contains (d.life, target)) || d.js ≠ jsNone then no rcState noDetail
      else if d.lifeBusy then no rcBusy noDetail
      else if !d.authorised f target (wordsBytes (w.drop 1)) then (d.renewChallenge).authFails
      else .ok (({ d.renewChallenge with boot := { d.boot with service := decide (target = 4) } }).setLife target) [] }

/-! ### Attestation (19 R515) -/

/-- ATTEST and ATTEST_EX. -/
def cmdAttesting (op n : Nat) : Cmd :=
  { op := op, len := words n, states := [2, 3, 4]
    run := fun _ d h w => if op = 0x781 && (reserved (wd w 4) [(8, 0)] || fld (wd w 4) 7 6 ≠ 0) then badWord 4 else d.acceptOp op h w }

/-- The mask of an attestation, and whether it includes the chain. -/
def attestMask (o : LongOp) : Nat := if o.opcode = 0x781 then fld (wd o.params 4) 7 0 else 0x3F
def attestChain (o : LongOp) : Bool := o.opcode = 0x781 && bit (wd o.params 4) 8

/-- Fill bytes up to a length. -/
def padTo (n : Nat) (l : List Byte) : List Byte := (l ++ List.replicate (n - l.length) 0).take n

/-- A record from bytes. -/
def recOf (l : List Byte) : List W64 := bytesWords 8 (padTo 64 l)

/-- The measurements: records 0 to 7. -/
def Dev.measure (d : Dev) (f : Fuses) (o : LongOp) : List (List W64) :=
  let m := attestMask o
  let on (i : Nat) (l : List W64) : List W64 := if m.testBit i then l else List.replicate 8 0
  let widths := (List.range 144).map (fun b => d.get (Reg.LR_WIDTH_PRESENTED_WIDTH b))
  [[packFlds [(63, 32, 0x41545354), (31, 24, 1), (23, 20, d.life), (19, 12, m), (11, 0, if attestChain o then 128 else 28)],
    f.serial,
    packFlds [(63, 32, d.get Reg.LC_STATUS_FW_VERSION), (31, 24, d.get Reg.LC_STATUS_ROLLBACK), (23, 23, d.get Reg.LC_STATUS_BOOT_SLOT),
      (22, 22, d.get Reg.LC_STATUS_SLOT_FALLBACK)],
    w64 (d.get Reg.LC_COUNT_ATTESTS), w64 d.beat, d.reg Reg.HP_TIME,
    packFlds [(63, 32, d.get Reg.JOB_STATE_JOB_ID), (31, 28, d.js)], d.lastBist],
   (o.params.take 4) ++ List.replicate 4 0,
   on 0 (recOf (shake256 64 Config.romImage)), on 1 (recOf d.boot.fwDigest), on 2 (recOf d.job.digest),
   on 3 [d.censusDigest, packFlds [(17, 9, widths.foldl min 256), (8, 0, widths.foldl max 0)], 0, 0, 0, 0, 0, 0],
   on 4 (recOf d.lastBistDigest),
   on 5 [d.reg Reg.FAULT_STATUS, d.reg Reg.FAULT_COUNT, d.reg Reg.FAULT_LAST0, d.reg Reg.FAULT_LAST1, 0, 0, 0, 0]]

/-- ATTEST starts: every measurement is taken. -/
def Dev.attestStart (d : Dev) (f : Fuses) (o : LongOp) : Dev :=
  (d.measure f o).foldl (fun d r => d.addResult o.slot r) d |>.onOp o.slot (fun o => { o with ready := true })

/-- ATTEST_DONE: the signature over records 0 to 7, and the chain. -/
def Dev.attestDone (d : Dev) (f : Fuses) : Dev :=
  match d.runningOp 0x701 with
  | none => d
  | some o =>
    if !o.ready || d.frozen then d
    else
      let recs := SMap.get (fun _ => []) d.results o.slot
      let seed := (f.seed.map Prod.snd).getD []
      let sig := padTo 1280 (Config.falconSign seed (shake256 64 (wordsBytes (recs.take 8).flatten)))
      let more := sig ++ (if attestChain o then d.certSlot 0 ++ d.certSlot 1 else [])
      let d := (chunk 64 120 more).foldl (fun d l => d.addResult o.slot (recOf l)) d
      (d.inc Reg.LC_COUNT_ATTESTS).opEnd o.slot stDone 0

end Sys2Proof.Machine
end

