-- ==== Sys2Proof/Machine/OpQueue.lean ====
section
/-! DEFINITION. Long operations in their classes: starts and aborts (15 R420, R421). -/

namespace Sys2Proof.Machine

/-! ### Starts (15 R420) -/

/-- An operation runs. -/
def LongOp.runs (c : Nat) (o : LongOp) : Bool := o.running && opClass o.opcode = c

/-- The descriptor slot of a STEP. -/
def stepParity (o : LongOp) : Nat := fld (wd o.params 0) 63 32 % 2

/-- The class of an operation is free for it. HALT does not wait for a pre-emption (16 R455); RUN and MAINTENANCE exclude
each other. -/
def Dev.classFree (d : Dev) (o : LongOp) : Bool :=
  let any (p : LongOp → Bool) : Bool := d.ops.any p
  match opClass o.opcode with
  | 0 => !any (LongOp.runs 0) && !any (LongOp.runs 1)
  | 1 => !any (LongOp.runs 1) && !any (LongOp.runs 0) && d.js ≠ jsLoading
  | 2 => !any (fun p => p.runs 2 && !(o.opcode = 0x307 && basicOp p.opcode = 0x303))
  | 3 => !any (fun p => p.runs 3 && stepParity p = stepParity o)
  | 4 => (d.copyReady o).isSome
  | _ => !any (LongOp.runs 5)

/-- The operation is the next of its class, in acceptance order; STEP operations wait by descriptor slot. -/
def Dev.opNext (d : Dev) (o : LongOp) : Bool :=
  let same (p : LongOp) : Bool := !p.running && opClass p.opcode = opClass o.opcode && (opClass o.opcode ≠ 3 || stepParity p = stepParity o)
  match d.ops.find? same with
  | some p => p.slot = o.slot
  | none => false

/-- The work of an operation at its start. -/
def Dev.opStart (d : Dev) (f : Fuses) (o : LongOp) : Dev :=
  match o.opcode with
  | 0x103 => d.formStart o
  | 0x183 => d.formStart o
  | 0x301 => d.wakeAll.loadRun o
  | 0x381 => d.wakeAll.loadRun o
  | 0x305 => d.unloadStart o
  | 0x385 => d.unloadStart o
  | 0x302 => d.runStart o
  | 0x382 => d.runStart o
  | 0x303 => d.preemptStart o
  | 0x383 => d.preemptStart o
  | 0x304 => d.resumeStart o
  | 0x384 => d.resumeStart o
  | 0x307 => d.haltStart o
  | 0x203 => match d.copyReady o with | some ch => d.copyStart o ch | none => d
  | 0x283 => match d.copyReady o with | some ch => d.copyStart o ch | none => d
  | 0x502 => d.scrubStart o
  | 0x582 => d.scrubStart o
  | 0x503 => d.bistStart o
  | 0x583 => d.bistStart o
  | 0x701 => d.attestStart f o
  | 0x781 => d.attestStart f o
  | 0x703 => d.updateStart f o
  | 0x783 => d.flashStart o
  | _ => d

/-- LONG_OP_START. -/
def Dev.longOpStart (d : Dev) (f : Fuses) (slot : Nat) : Dev :=
  match d.opOf slot with
  | none => d
  | some o =>
    if o.running || d.frozen || !d.serving || !d.opNext o || !d.classFree o then d
    else
      let d := (d.setStatusFld slot 63 60 2).onOp slot (fun o => { o with running := true })
      d.opStart f { o with running := true }

/-! ### OP_ABORT (15 R421) -/

/-- What a queued operation leaves when it ends before its start. -/
def Dev.unqueue (d : Dev) (o : LongOp) : Dev :=
  let d := d.opEnd o.slot stAborted 0
  match basicOp o.opcode with
  | 0x301 => d.setJs jsNone
  | 0x304 => d.setJs jsPreempted
  | 0x305 => d.setJs (o.note.headD jsEnded)
  | 0x401 => d.withdrawStep o
  | _ => d

/-- The descriptor of a management operation stops with HALT, or never starts. -/
def Dev.haltCopy (d : Dev) (o : LongOp) : Dev :=
  match [28, 29, 30].find? (fun ch => (d.chan 152 ch).slot = some o.slot) with
  | none => d
  | some ch =>
    if (d.chan 152 ch).cur.isSome then d.onRun 152 ch (fun r => { r with stop := some 11, wait := none })
    else (d.onChan 152 ch (fun c => { c with queue := [], slot := none })).opEnd o.slot stAborted 0

/-- A running operation is aborted; none where that is refused. -/
def Dev.abortRunning (d : Dev) (o : LongOp) : Option Dev :=
  match basicOp o.opcode with
  | 0x203 => some (d.haltCopy o)
  | 0x502 => some (({ d with leaveQ := d.leaveQ.filter (fun q => q.who ≠ 144) }).returnHub d.hubGrant |>.opEnd o.slot stAborted 0)
  | 0x503 => some (d.bistStop [1])
  | 0x701 => some (d.opEnd o.slot stAborted 0)
  | 0x103 => some ((List.range 12).foldl (fun d p => d.setPort p 0) (d.opEnd o.slot stAborted 0))
  | 0x703 => some (d.opEnd o.slot stAborted 0)
  | 0x302 =>
    if d.js = jsRunning ∨ d.js = jsPreempting then some (d.endJob stAborted 0 stAborted 0)
    else some ({ d.opEnd o.slot stAborted 0 with job := { d.job with joinReady := if d.js = jsLoaded then false else d.job.joinReady } })
  | _ => none

/-- OP_ABORT of one operation; none where it is refused. -/
def Dev.abortOp (d : Dev) (o : LongOp) : Option Dev := if o.running then d.abortRunning o else some (d.unqueue o)

/-- OP_ABORT. -/
def cmdOpAbort : Cmd :=
  { op := 0x108, len := words 1
    run := fun _ d _ w =>
      if reserved (wd w 0) [(7, 0)] then badWord 0
      else match d.opOf (fld (wd w 0) 7 0) with
        | none => .refuse rcState noDetail
        | some o => match d.abortOp o with
          | some d => .ok d []
          | none => .refuse rcState noDetail }

/-- Abort operations in order, as long as each is still live; none where one refuses. -/
def Dev.abortAll : Dev → List LongOp → Option Dev
  | d, [] => some d
  | d, o :: t =>
    match d.opOf o.slot with
    | none => Dev.abortAll d t
    | some o => match d.abortOp o with
      | some d => Dev.abortAll d t
      | none => none

/-- OP_ABORT_CLASS: newest first, all or none. -/
def cmdOpAbortClass : Cmd :=
  { op := 0x188, len := words 1
    run := fun _ d _ w =>
      let c := fld (wd w 0) 2 0
      if reserved (wd w 0) [(2, 0)] || decide (5 < c) then badWord 0
      else match d.abortAll ((d.ops.filter (fun o => opClass o.opcode = c)).reverse) with
        | some d => .ok d []
        | none => .refuse rcState noDetail }

end Sys2Proof.Machine
end

