-- ==== Sys2Proof/Machine/HostPort.lean ====
section
/-! DEFINITION. The host Ethernet port: frames in, answers out, link bring-up and loss, IEEE 1588 (14 R383 to R397), and the
Smiper packet in a datagram (15 R399 to R401). -/

namespace Sys2Proof.Machine

/-! ### Bytes of frames -/

/-- Big-endian field of n bytes at an offset. -/
def beAt (l : List Byte) (off n : Nat) : Nat := ofBe ((l.drop off).take n)

/-- The Internet checksum of bytes: the one's complement of the one's complement sum of 16-bit words. -/
def inetSum (l : List Byte) : Nat :=
  let s := (chunk 2 (l.length + 1) l).foldl (fun n p => n + beAt (padTo 2 p) 0 2) 0
  let s := s % 65536 + s / 65536
  let s := s % 65536 + s / 65536
  65535 - s

/-- The UDP and ICMPv6 pseudo-header. -/
def pseudo (v6 : Bool) (src dst : List Byte) (proto len : Nat) : List Byte :=
  if v6 then src ++ dst ++ toBe 4 len ++ [0, 0, 0, byteOf proto] else src ++ dst ++ [0, byteOf proto] ++ toBe 2 len

/-- A frame with its FCS, filled up to 64 bytes. -/
def sealFrame (l : List Byte) : List Byte :=
  let body := l ++ List.replicate (60 - l.length) 0
  body ++ toLe 4 (crcEth body)

/-! ### Addresses (14 R386, R390, R398) -/

/-- A port's MAC address. -/
def Dev.mac (d : Dev) (port : Nat) : Nat := d.get Reg.HP_MAC_MAC_ADDR + (if port = 1 then 1 else 0)

/-- IPV4_ADDR and IPV6_ADDR as bytes on the wire. -/
def Dev.ip4 (d : Dev) : List Byte := toBe 4 (d.get Reg.HP_IPV4_IPV4_ADDR)
def Dev.ip6 (d : Dev) : List Byte := toBe 8 (d.reg (Reg.HP_IPV6 0)).toNat ++ toBe 8 (d.reg (Reg.HP_IPV6 1)).toNat

/-- A protocol with an address of zero is disabled. -/
def Dev.ip4On (d : Dev) : Bool := d.get Reg.HP_IPV4_IPV4_ADDR ≠ 0
def Dev.ip6On (d : Dev) : Bool := d.reg (Reg.HP_IPV6 0) ≠ 0 || d.reg (Reg.HP_IPV6 1) ≠ 0

/-- Smiper's UDP port. -/
def Dev.smiperPort (d : Dev) : Nat := let p := d.get Reg.HP_CTRL_SMIPER_PORT; if p = 0 then 0xB7E8 else p

/-- The solicited-node group of IPV6_ADDR, and the PTP groups. -/
def Dev.solicited (d : Dev) : List Byte := [0xFF, 0x02, 0, 0, 0, 0, 0, 0, 0, 0, 0, 1, 0xFF] ++ d.ip6.drop 13
abbrev ptpGroup4 : List Byte := [224, 0, 1, 129]
def ptpGroup6 (a : List Byte) : Bool := (a.headD 0) = 0xFF && (a.drop 2) = List.replicate 12 0 ++ [1, 0x81]

/-- A port exists in the present mode. -/
def Dev.hostPortExists (d : Dev) (port : Nat) : Bool := decide (port = 0) || (decide (port = 1) && d.get Reg.HP_CTRL_MODE = 1)

/-- Frames arrive on a port: it is up and the host port is awake (14 R397). -/
def Dev.hostHears (d : Dev) (port : Nat) : Bool :=
  decide (port < 2) && (d.get Reg.HP_STATUS_LINK).testBit port && d.boot.phase = .run && decide (d.power ≤ 2)

/-! ### What a frame is (14 R384 to R388) -/

/-- A frame after the port's checks. -/
inductive FrameIs where
  | dropped
  | quiet
  | arp (sender target : List Byte)
  | solicitation (src target : List Byte)
  | echo (v6 : Bool) (src : List Byte) (body : List Byte)
  | ptp
  | smiper (s : Source) (payload : List Byte)
  deriving DecidableEq, Repr

/-- The header of a frame: destination, source, tag bytes if any, type, and what follows. -/
structure Eth where
  dst : Nat
  src : Nat
  tag : Option Nat
  type : Nat
  body : List Byte
  deriving DecidableEq, Repr

/-- Take a frame without its FCS apart. -/
def ethOf (l : List Byte) : Eth :=
  let t := beAt l 12 2
  if t = 0x8100 then { dst := beAt l 0 6, src := beAt l 6 6, tag := some (beAt l 14 2), type := beAt l 16 2, body := l.drop 18 }
  else { dst := beAt l 0 6, src := beAt l 6 6, tag := none, type := t, body := l.drop 14 }

/-- UDP: its checks and where it goes (14 R388). -/
def Dev.udpIs (d : Dev) (port : Nat) (e : Eth) (v6 : Bool) (src dst l : List Byte) : FrameIs :=
  let len := beAt l 4 2
  let seg := l.take len
  let sum := beAt l 6 2
  let dstPort := beAt l 2 2
  if len < 8 ∨ l.length < len then .dropped
  else if v6 ∧ sum = 0 then .dropped
  else if sum ≠ 0 ∧ inetSum (pseudo v6 src dst 17 len ++ seg) ≠ 0 then .dropped
  else if dstPort = d.smiperPort then
    .smiper { port := port, v6 := v6, mac := BitVec.ofNat 48 e.src, vid := e.tag
              addr := BitVec.ofNat 128 (ofBe src), udp := BitVec.ofNat 16 (beAt l 0 2) } (seg.drop 8)
  else if dstPort = 319 ∨ dstPort = 320 then
    (if d.get Reg.HP_CTRL_MODE = 1 ∧ port ≠ d.get Reg.HP_CTRL_PTP_PORT then .dropped else .ptp)
  else .dropped

/-- IPv4 (14 R387). -/
def Dev.ip4Is (d : Dev) (port : Nat) (e : Eth) (l : List Byte) : FrameIs :=
  let total := beAt l 2 2
  let src := (l.drop 12).take 4
  let dst := (l.drop 16).take 4
  let body := (l.take total).drop 20
  let proto := beAt l 9 1
  if !d.ip4On || beAt l 0 1 ≠ 0x45 || decide (total < 20) || decide (l.length < total) || inetSum (l.take 20) ≠ 0 ||
      beAt l 6 2 % 0x4000 ≠ 0 || !(dst = d.ip4 || dst = ptpGroup4) then .dropped
  else if proto = 17 then d.udpIs port e false src dst body
  else if proto = 1 ∧ beAt body 0 2 = 0x0800 ∧ dst = d.ip4 ∧ inetSum body = 0 then .echo false src body
  else .quiet

/-- IPv6 (14 R387). -/
def Dev.ip6Is (d : Dev) (port : Nat) (e : Eth) (l : List Byte) : FrameIs :=
  let n := beAt l 4 2
  let next := beAt l 6 1
  let src := (l.drop 8).take 16
  let dst := (l.drop 24).take 16
  let body := (l.drop 40).take n
  let solicits := next = 58 && beAt body 0 2 = 0x8700 && dst = d.solicited
  if !d.ip6On || beAt l 0 1 / 16 ≠ 6 || decide (l.length < 40 + n) ||
      [0, 43, 44, 50, 51, 60, 135, 139, 140].contains next || !(dst = d.ip6 || ptpGroup6 dst || solicits) then .dropped
  else if next = 17 then d.udpIs port e true src dst body
  else if next = 58 ∧ inetSum (pseudo true src dst 58 n ++ body) = 0 then
    if beAt body 0 2 = 0x8700 ∧ beAt l 7 1 = 255 ∧ (body.drop 8).take 16 = d.ip6 then .solicitation src ((body.drop 8).take 16)
    else if beAt body 0 2 = 0x8000 ∧ dst = d.ip6 then .echo true src body
    else .quiet
  else .quiet

/-- The frame's destination is one that the port accepts (14 R386). -/
def Dev.dstOk (d : Dev) (port : Nat) (e : Eth) : Bool :=
  e.dst = d.mac port ||
  (e.dst = 0xFFFFFFFFFFFF && e.type = 0x0806 && beAt e.body 6 2 = 1) ||
  e.dst = 0x01005E000181 || e.dst = 0x333300000181 || e.dst = 0x333300000001 ||
  e.dst = 0x3333FF000000 + beAt d.ip6 13 3

/-- The frame's tag is one that the port accepts (14 R385). -/
def Dev.tagOk (d : Dev) (e : Eth) : Bool :=
  e.type ≠ 0x8100 && e.type ≠ 0x88A8 &&
  (if d.get Reg.HP_CTRL_VLAN_EN = 1 then (match e.tag with | some t => t % 4096 = d.get Reg.HP_CTRL_VID | none => false)
   else e.tag.isNone)

/-- What a frame, FCS included, is to the port. -/
def Dev.frameIs (d : Dev) (port : Nat) (l : List Byte) : FrameIs :=
  let body := l.take (l.length - 4)
  let e := ethOf body
  if l.length < 64 ∨ 9216 < l.length then .dropped
  else if crcEth body ≠ ofLe (l.drop (l.length - 4)) then .dropped
  else if !d.tagOk e || !d.dstOk port e then .dropped
  else if e.type = 0x0800 then d.ip4Is port e e.body
  else if e.type = 0x86DD then d.ip6Is port e e.body
  else if e.type = 0x0806 then
    let arp := e.body
    if beAt arp 0 2 = 1 ∧ beAt arp 2 2 = 0x0800 ∧ beAt arp 4 2 = 0x0604 ∧ beAt arp 6 2 = 1 ∧ d.ip4On ∧ (arp.drop 24).take 4 = d.ip4 then
      .arp ((arp.drop 14).take 4) ((arp.drop 24).take 4)
    else .quiet
  else .dropped

/-! ### Answers (14 R385 to R387) -/

/-- The Ethernet header of an answer: to the sender, from the port, with the tag of the frame it answers. -/
def Dev.ethHead (d : Dev) (port : Nat) (e : Eth) : List Byte :=
  toBe 6 e.src ++ toBe 6 (d.mac port) ++ (match e.tag with | some t => toBe 2 0x8100 ++ toBe 2 t | none => []) ++ toBe 2 e.type

/-- An IPv4 header with TTL 64. -/
def ip4Head (src dst : List Byte) (proto n : Nat) : List Byte :=
  let h (sum : Nat) : List Byte := [0x45, 0] ++ toBe 2 (20 + n) ++ [0, 0, 0, 0, 64, byteOf proto] ++ toBe 2 sum ++ src ++ dst
  h (inetSum (h 0))

/-- An IPv6 header with a hop limit. -/
def ip6Head (src dst : List Byte) (next n hop : Nat) : List Byte :=
  [0x60, 0, 0, 0] ++ toBe 2 n ++ [byteOf next, byteOf hop] ++ src ++ dst

/-- The answer to a frame; none for one that asks for none. -/
def Dev.answerFrame (d : Dev) (port : Nat) (l : List Byte) (k : FrameIs) : Option (List Byte) :=
  let e := ethOf (l.take (l.length - 4))
  let head := d.ethHead port e
  match k with
  | .arp sender target =>
    some (sealFrame (head ++ [0, 1, 8, 0, 6, 4, 0, 2] ++ toBe 6 (d.mac port) ++ target ++ (e.body.drop 8).take 6 ++ sender))
  | .solicitation src target =>
    let icmp (sum : Nat) : List Byte := [136, 0] ++ toBe 2 sum ++ [0x60, 0, 0, 0] ++ target ++ [2, 1] ++ toBe 6 (d.mac port)
    let icmp := icmp (inetSum (pseudo true d.ip6 src 58 32 ++ icmp 0))
    some (sealFrame (head ++ ip6Head d.ip6 src 58 32 255 ++ icmp))
  | .echo false src body =>
    let icmp (sum : Nat) : List Byte := [0, 0] ++ toBe 2 sum ++ body.drop 4
    some (sealFrame (head ++ ip4Head d.ip4 src 1 body.length ++ icmp (inetSum (icmp 0))))
  | .echo true src body =>
    let icmp (sum : Nat) : List Byte := [129, 0] ++ toBe 2 sum ++ body.drop 4
    some (sealFrame (head ++ ip6Head d.ip6 src 58 body.length 64 ++ icmp (inetSum (pseudo true d.ip6 src 58 body.length ++ icmp 0))))
  | _ => none

/-- A frame that the port accepts is counted, and answered when it asks for an answer no longer than MAX_FRAME. -/
def Dev.takeFrame (d : Dev) (port : Nat) (l : List Byte) (k : FrameIs) : Dev :=
  let d := d.inc Reg.HP_COUNT0_FRAMES_IN
  match d.answerFrame port l k with
  | some f => if f.length ≤ d.get Reg.HP_CTRL_MAX_FRAME then d.send (.frame port f) else d
  | none => d

/-! ### The Smiper packet (15 R399 to R401) -/

/-- Word i of a packet. -/
def pktWord (l : List Byte) (i : Nat) : W64 := w64 (ofLe ((l.drop (8 * i)).take 8))

/-- A packet that R401 does not drop: opcode, header, parameter words. -/
def packetOf (s : Source) (l : List Byte) : Option (Nat × Hdr × List W64) :=
  let w0 := pktWord l 0
  let w1 := pktWord l 1
  let n := fld w1 15 0
  let crc := ofLe (l.drop (32 + n))
  if l.length ≠ 36 + n ∨ crc ≠ crc32c 0xFFFFFFFF (l.take (32 + n)) ∨ fld w0 63 32 ≠ 0x50494D53 ∨ bit w0 16 = true then none
  else
    let h : Hdr := { version := fld w0 31 24, noseq := bit w0 17, seq := BitVec.ofNat 32 (fld w1 63 32)
                     tag := BitVec.ofNat 16 (fld w1 31 16), session := BitVec.ofNat 32 (fld (pktWord l 2) 63 32)
                     crc := BitVec.ofNat 32 crc, src := s }
    -- a LENGTH that is no multiple of 8 fits no row
    some (fld w0 15 0, h, if n % 8 = 0 then bytesWords (n / 8) (l.drop 32) else List.replicate 1139 0)

/-- Bytes of held commands, which wait in the receive buffer (14 R391). -/
def Dev.buffered (d : Dev) : Nat := d.smiper.heldCmds.foldl (fun n c => n + 82 + 8 * c.2.2.length) 0

/-- HOST_FRAME_RECEIVE; `run` serves a Smiper command by its opcode. -/
def hostFrame (run : Nat → Hdr → List W64 → Fuses → Dev → Fuses × Dev) (f : Fuses) (d : Dev) (port : Nat) (l : List Byte) : Fuses × Dev :=
  if !d.hostHears port then (f, d)
  else if 0x400000 < d.buffered + l.length then (f, d.inc Reg.HP_COUNT1_BUFFER_DROPS)
  else match d.frameIs port l with
  | .dropped => (f, d.inc Reg.HP_COUNT0_FRAMES_DROPPED)
  | .smiper s p =>
    let d := d.inc Reg.HP_COUNT0_FRAMES_IN
    match packetOf s p with
    | none => (f, d.inc Reg.SM_COUNT0_DROPPED)
    | some (op, h, w) => run op h w f d
  | k => (f, d.takeFrame port l k)

/-- A frame that its own row reports: dropped and counted as HOST_FRAME_RECEIVE would, and answered when it is of the row's
kind or asks for no answer. -/
def Dev.plainFrame (d : Dev) (port : Nat) (l : List Byte) (of : FrameIs → Bool) : Dev :=
  if !d.hostHears port then d
  else if 0x400000 < d.buffered + l.length then d.inc Reg.HP_COUNT1_BUFFER_DROPS
  else match d.frameIs port l with
  | .dropped => d.inc Reg.HP_COUNT0_FRAMES_DROPPED
  | k => if of k || k = .quiet then d.takeFrame port l k else d

/-- ARP_REQUEST. -/
def Dev.arpFrame (d : Dev) (port : Nat) (l : List Byte) : Dev :=
  d.plainFrame port l (fun k => match k with | .arp _ _ => true | _ => false)

/-- NEIGHBOUR_SOLICITATION. -/
def Dev.ndFrame (d : Dev) (port : Nat) (l : List Byte) : Dev :=
  d.plainFrame port l (fun k => match k with | .solicitation _ _ => true | _ => false)

/-- ECHO_REQUEST. -/
def Dev.echoFrame (d : Dev) (port : Nat) (l : List Byte) : Dev :=
  d.plainFrame port l (fun k => match k with | .echo _ _ _ => true | _ => false)

/-! ### The link (14 R392, R393, R398) -/

/-- HOST_LINK_UP: fields that wait for a bring-up take effect. -/
def Dev.hostLinkUp (d : Dev) (port : Nat) : Dev :=
  if !(d.boot.phase = .run && decide (d.power ≤ 2)) then d
  else
    let d' := d.takeStaged hpLo hpHi hpLater
    let l := d'.get Reg.HP_STATUS_LINK
    if !d'.hostPortExists port || l.testBit port then d
    else (d'.set Reg.HP_STATUS_LINK (l + 2 ^ port)).logEv 1 0x050 [packFlds [(0, 0, 1), (1, 1, port)]]

/-- HOST_LINK_DOWN. -/
def Dev.hostLinkDown (d : Dev) (port : Nat) : Dev := if port < 2 then d.linkLost port else d

/-! ### IEEE 1588 (14 R394 to R396) -/

/-- A PTP message reaches the unit, or leaves it: a port that hears, PTP_PORT in BREAKOUT, the protocol that PTP_TRANSPORT
selects and that an address of zero does not disable, and the unit's domain (14 R387, R395, R397). -/
def Dev.ptpOn (d : Dev) (m : PtpMsg) : Bool :=
  d.hostHears m.port && (d.get Reg.HP_CTRL_MODE = 0 || m.port = d.get Reg.HP_CTRL_PTP_PORT) &&
  m.v6 = decide (d.get Reg.HP_CTRL_PTP_TRANSPORT = 1) && (if m.v6 then d.ip6On else d.ip4On) &&
  m.domain = d.get Reg.HP_CTRL_PTP_DOMAIN

/-- Nominal increment of an always-on cycle, in 2^−32 ns, and the largest steer, 200 ppm. -/
abbrev incNominal : Nat := 40 * 2 ^ 32
abbrev incSteer : Nat := incNominal / 5000

/-- The servo: an offset beyond 1 ms steps the time base; a smaller one steers the increment within 200 ppm, by an amount
that R396 leaves open (log entry 50). -/
def Dev.servo (d : Dev) (offset : Int) : Dev :=
  let shown := max (-(2 ^ 31 : Int)) (min (2 ^ 31 - 1) (8 * offset))
  let d := d.set Reg.HP_STATUS_PTP_OFFSET (unsigned 32 shown)
  let size := offset.natAbs
  if 1000000 < size then
    let old := d.get Reg.HP_TIME_TIME_NS
    let new := unsigned 64 ((old : Int) - offset)
    let d := (d.set Reg.HP_TIME_TIME_NS new).inc Reg.HP_COUNT1_TIME_STEPS
    let d : Dev := { d with time := { d.time with good := 0 } }
    (d.logEv 1 0x060 [w64 old, w64 new]).setPtp 1
  else
    let (v, d) := d.free?
    let good := if size ≤ 50 then min 16 (d.time.good + 1) else 0
    let d : Dev := { d with time := { d.time with good := good, inc := incNominal - incSteer + v.toNat % (2 * incSteer + 1) } }
    d.setPtp (if good = 16 then 2 else 1)

/-- A Sync with its precise origin time: the offset is measured. -/
def Dev.measureSync (d : Dev) (origin : Int) (stamp : Nat) : Dev :=
  let d : Dev := { d with time := { d.time with sync := none, lastSync := some (origin.toNat, stamp) } }
  d.servo ((stamp : Int) - origin - d.time.delay)

/-- PTP_SYNC: from the time transmitter; a two-step Sync waits for its Follow_Up. -/
def Dev.ptpSync (d : Dev) (m : PtpMsg) : Dev :=
  if !(d.ptpOn m && d.time.transmitter = some m.source) then d
  else
    let d := if d.get Reg.HP_STATUS_PTP_STATE = 0 ∨ d.get Reg.HP_STATUS_PTP_STATE = 3 then d.setPtp 1 else d
    if m.twoStep then { d with time := { d.time with sync := some m } }
    else d.measureSync ((m.time : Int) + m.correction) m.stamp

/-- FOLLOW_UP. -/
def Dev.followUp (d : Dev) (m : PtpMsg) : Dev :=
  match d.time.sync with
  | some s =>
    if d.ptpOn m && s.source = m.source && s.seqId = m.seqId && s.domain = m.domain then
      d.measureSync ((m.time : Int) + s.correction + m.correction) s.stamp
    else d
  | none => d

/-- DELAY_REQ. -/
def Dev.delayReq (d : Dev) (m : PtpMsg) : Dev :=
  if d.ptpOn m && d.time.transmitter.isSome then
    ({ d with time := { d.time with delayReq := some (m.seqId, m.stamp) } }).send (.delayReq m.domain m.seqId)
  else d

/-- DELAY_RESP: half of what the two ways take together. -/
def Dev.delayResp (d : Dev) (m : PtpMsg) : Dev :=
  match d.time.delayReq, d.time.lastSync with
  | some (id, t3), some (t1, t2) =>
    if d.ptpOn m && d.time.transmitter = some m.source && m.seqId = id then
      let way : Int := (((t2 : Int) - t1) + ((m.time : Int) - m.correction - t3)) / 2
      { d with time := { d.time with delayReq := none, delay := way } }
    else d
  | _, _ => d

/-- One quality list comes before another: the first difference decides. -/
def better : List Nat → List Nat → Bool
  | x :: a, y :: b => decide (x < y) || (x == y && better a b)
  | _, _ => false

/-- ANNOUNCE: the better clock becomes the time transmitter; in HOLDOVER any other does. -/
def Dev.announce (d : Dev) (m : PtpMsg) : Dev :=
  if !d.ptpOn m then d
  else match d.time.transmitter with
  | none => { d with time := { d.time with transmitter := some m.source, quality := m.quality } }
  | some t =>
    if t = m.source then { d with time := { d.time with quality := m.quality } }
    else if better m.quality d.time.quality || d.get Reg.HP_STATUS_PTP_STATE = 3 then
      { d with time := { d.time with transmitter := some m.source, quality := m.quality, sync := none, delayReq := none, lastSync := none } }
    else d

end Sys2Proof.Machine
end

