-- ==== Sys2Proof/Machine/Freeze.lean ====
section
/-! DEFINITION. Freeze, thaw, read-out, the event log (21 R529 to R543). -/

namespace Sys2Proof.Machine

/-! ### Triggers (21 R529, R530) -/

/-- CAUSE codes of FRZ_STATUS. -/
abbrev fcPin : Nat := 0
abbrev fcCommand : Nat := 1
abbrev fcMatch : Nat := 2
abbrev fcFlood : Nat := 3

/-- The beat at which a FREEZE flood freezes: the later of its effect beat and its target. -/
def Dev.freezeBeat (d : Dev) (f : Flood) : Nat := max (d.effectBeat f) f.target

/-- FREEZE floods that have not acted yet. -/
def Dev.freezeFloods (d : Dev) : List Flood := d.lat.floods.filter (fun f => f.kind = 3 && !f.done)

/-- A trigger is ignored, counted and logged. -/
def Dev.freezeIgnored (d : Dev) (cause : Nat) : Dev :=
  (d.inc Reg.FRZ_COUNT_IGNORED).logEv srcAon 0x012 [packFlds [(1, 0, cause)]]

/-- A trigger of this device: 0 OFF, 1 LOCAL, 2 FLOOD; with its target beat. In REST it wakes the device first. -/
def Dev.freezeTrigger (d : Dev) (cause action target : Nat) : Dev :=
  if d.boot.phase = .off || action = 0 || decide (2 < action) then d
  else if d.boot.phase ≠ .run || d.power = 3 || d.frozen || d.frz.pending.isSome || !d.freezeFloods.isEmpty then d.freezeIgnored cause
  else
    let d := if d.power = 2 then d.wakeAll else d
    let d : Dev := { d with frz := { d.frz with pending := some (target, cause, decide (action = 1)) } }
    if action = 2 then d.floodFreeze target else d

/-- FREEZE_PIN: FREEZE_N has been low for two always-on cycles. -/
def Dev.freezePin (d : Dev) : Dev :=
  if d.boot.phase = .off || !d.pins.freezeArmed then { d with pins := { d.pins with freezeN := false } }
  else
    let d : Dev := { d with pins := { d.pins with freezeN := false, freezeArmed := false } }
    d.freezeTrigger fcPin (d.get Reg.FRZ_CTRL_PIN_ACTION) d.beat

/-- FREEZE_N_HIGH: the pin may trigger again. -/
def Dev.freezeHigh (d : Dev) : Dev := { d with pins := { d.pins with freezeN := true, freezeArmed := true } }

/-- FREEZE. -/
def cmdFreeze : Cmd :=
  { op := 0x801, len := words 0, states := [1, 3, 4], run := fun _ d _ _ => .ok (d.freezeTrigger fcCommand 2 d.beat) [] }

/-- FREEZE_AT: a local one whose beat has passed takes effect at the next beat. -/
def cmdFreezeAt : Cmd :=
  { op := 0x881, len := words 2, states := [1, 3, 4]
    run := fun _ d _ w =>
      let t := (wd w 0).toNat
      if reserved (wd w 1) [(0, 0)] then badWord 1
      else if bit (wd w 1) 0 then .ok (d.freezeTrigger fcCommand 1 (max t (d.beat + 1))) []
      else .ok (d.freezeTrigger fcCommand 2 t) [] }

/-! ### Taking effect (21 R531, R532) -/

/-- The freeze that is due: its beat, cause, and whether it is local. A flood this device began keeps its trigger's cause. -/
def Dev.freezeDue (d : Dev) : Option (Nat × Nat × Bool) :=
  match d.freezeFloods.find? (fun f => decide (d.freezeBeat f ≤ d.beat)), d.frz.pending with
  | some f, p =>
    let own : Bool := p.isSome && fld f.key 63 54 = d.index
    some (d.freezeBeat f, if own then (match p with | some q => q.2.1 | none => fcFlood) else fcFlood, false)
  | none, some (b, c, true) => if b ≤ d.beat then some (b, c, true) else none
  | none, _ => none

/-- FREEZE_EFFECT: the device stands still. Other FREEZE floods it holds are ignored. A device in REST wakes first. -/
def Dev.freezeEffect (d : Dev) : Dev :=
  match d.freezeDue with
  | none => d
  | some (_, cause, loc) =>
    if d.frozen || d.boot.phase ≠ .run || d.power = 3 then d
    else if d.power = 2 then d.wakeAll
    else if !d.unlocked.isEmpty then d
    else
      let others := d.freezeFloods.length - (if loc then 0 else 1)
      let running := d.js = jsRunning
      let d : Dev := { d with lat := { d.lat with floods := d.lat.floods.map (fun f => if f.kind = 3 then { f with done := true } else f) } }
      let d := if loc then d else d.inc Reg.LAT_COUNT_FLOODS
      let d := (List.range others).foldl (fun d _ => d.freezeIgnored fcFlood) d
      let d := ((d.set Reg.FRZ_STATUS_FROZEN 1).set Reg.FRZ_STATUS_CAUSE cause).set Reg.FRZ_STATUS_LOCAL (b2n loc)
      let d := (d.set Reg.FRZ_STATUS_FREEZE_BEAT d.beat).inc Reg.FRZ_COUNT_FREEZES
      let at_ := if d.frz.wasRunning then d.frz.beat else d.beat
      ({ d with frz := { pending := none, thawAt := none, beat := at_, wasRunning := running } }).logEv srcAon 0x010
        [packFlds [(1, 0, cause), (2, 2, b2n loc)], w64 d.beat]

/-! ### Thaw (21 R534, R535) -/

/-- THAW. -/
def cmdThaw : Cmd :=
  { op := 0x804, len := words 0, states := [1, 3, 4]
    run := fun _ d _ _ =>
      if d.frozen then .ok { d with frz := { d.frz with thawAt := some (d.aonBeat + 1) } } [] else .refuse rcState noDetail }

/-- THAW_AT: a beat that has passed counts as the next. -/
def cmdThawAt : Cmd :=
  { op := 0x884, len := words 1, states := [1, 3, 4]
    run := fun _ d _ w =>
      if d.frozen then .ok { d with frz := { d.frz with thawAt := some (max (wd w 0).toNat (d.aonBeat + 1)) } } []
      else .refuse rcState noDetail }

/-- Used ports retrain, keeping their delays (21 R534). -/
def Dev.thawPorts (d : Dev) : Dev :=
  (List.range 12).foldl (fun d p =>
    let s := d.get (Reg.PORT_W0_STATE p)
    if s = 3 ∨ s = 4 ∨ s = 5 then d.setPort p 5 else d) d

/-- THAW_TAKE_EFFECT: the clocks restart; a device whose job ran retrains its ports and is to join the domain again. -/
def Dev.thaw (d : Dev) : Dev :=
  match d.frz.thawAt with
  | none => d
  | some b =>
    if d.boot.phase ≠ .run || d.get Reg.FRZ_STATUS_FROZEN ≠ 1 || decide (d.aonBeat < b) then d
    else
      let d := ((d.set Reg.FRZ_STATUS_FROZEN 0).inc Reg.FRZ_COUNT_THAWS).set Reg.SYNC_BEAT_BEAT d.aonBeat
      let d := ({ d with frz := { d.frz with thawAt := none } }).bistStop [1]
      if d.frz.wasRunning then
        let d := d.thawPorts
        { d with job := { d.job with joinKind := 2, joinReady := true, joinAt := none, joinPoll := some d.nextJoinPoll } }
      else d.logEv srcAon 0x011 [0]

/-! ### Read-out (21 R536, R537; log entry 9) -/

/-- Element rows of R537: first and last element, and what they hold: 0 memory, 1 contexts and buffers, 2 registers. -/
def elementRows : List (Nat × Nat × Nat) :=
  [(0, 0x8FFFFFFF, 0), (0xE0000000, 0xE0000000 + 144 * 0x1100 - 1, 1), (0xE0100000, 0xE0100FFF, 1),
   (0xE0110000, 0xE0110000 + 8 * 0x100 - 1, 1), (0xE0200000, 0xE0200000 + 144 * 0x100 - 1, 1), (0xE0300000, 0xE03000FF, 1),
   (0xF0000000, 0xF047FFFF, 0), (0xFF000000, 0xFFFFFFFF, 2)]

/-- What the row of a byte of the element space holds. -/
def elementKind (a : Nat) : Option Nat :=
  (elementRows.find? (fun r => decide (r.1 * 256 ≤ a) && decide (a < (r.2.1 + 1) * 256))).map (fun r => r.2.2)

/-- The packets that stand in bench b's router, as bulk packets: those on their way to it or to its matched sets, oldest first, each a
header and its payload cycles (08 R241, 21 R537; log entry 9). -/
def Dev.routerWords (d : Dev) (b : Nat) : List W64 :=
  (d.net.pkts.filter (fun p => if p.kind = 4 then p.router = b else p.reaches.contains b)).flatMap (fun p =>
    let request := match p.targets with | t :: _ => t.2.2.2.1 | [] => p.id
    let n := 16 * ceilDiv p.data.length 128
    p.header request ++ bytesWords n (p.data ++ List.replicate (8 * n - p.data.length) 0))

/-- The word of a router's buffers at a byte of the element space, where a packet stands there. -/
def Dev.routerWord (d : Dev) (a : Nat) : Option W64 :=
  let o := a - 0xE0200000 * 256
  if a < 0xE0200000 * 256 ∨ 144 ≤ o / 0x10000 then none else (d.routerWords (o / 0x10000))[o % 0x10000 / 8]?

/-- One word of the element space: memory and registers as they stand, and the packets in routers; a stored error shows uncorrected,
and the bits of contexts and of other buffers are open, so both are free. -/
def Dev.elementWord (d : Dev) (a : Nat) : W64 × Dev :=
  match elementKind a with
  | some 0 => if (d.errIn a 8).isEmpty then (d.word a, d) else d.free?
  | some 2 => (d.reg a, d)
  | _ => match d.routerWord a with
    | some w => (w, d)
    | none => d.free?

/-- Consecutive words of the element space. -/
def Dev.elementWords : Nat → Nat → Dev → List W64 × Dev
  | 0, _, d => ([], d)
  | n + 1, a, d =>
    let (v, d) := d.elementWord a
    let (l, d) := Dev.elementWords n (a + 8) d
    (v :: l, d)

/-- A range of words touches a listed row. -/
def touchesElement (a n : Nat) : Bool := elementRows.any (fun r => decide (r.1 * 256 < a + 8 * n) && decide (a < (r.2.1 + 1) * 256))

/-- STATE_READ. -/
def cmdStateRead : Cmd :=
  { op := 0x802, len := words 2, states := [1, 3, 4], pre := fun d => d.frozen
    run := fun _ d _ w =>
      let a := 256 * fld (wd w 0) 31 0
      let n := fld (wd w 1) 15 0
      if reserved (wd w 0) [(31, 0)] then badWord 0
      else if reserved (wd w 1) [(15, 0)] || n = 0 || decide (d.replyMax < 8 * n) then badWord 1
      else if !touchesElement a n then badWord 0
      else
        let (l, d) := Dev.elementWords n a d
        .ok d l }

/-- IJTAG_ACCESS: as many bits come out as go in; what they are is open (log entry 9). -/
def cmdIjtagAccess : Cmd :=
  { op := 0x882, len := fun w => decide (1 ≤ w.length) && decide (w.length ≤ 512), states := [1, 4]
    run := fun _ d _ w =>
      let (l, d) := Dev.freeWords w.length d
      .ok d l }

/-- TAP_SCAN: as many bits come out as are shifted in; what they are is open in every state (log entry 9). -/
def Dev.tapScan (d : Dev) (bits : Nat) : Dev :=
  if d.boot.phase = .off then d
  else
    let (l, d) := Dev.freeWords (ceilDiv bits 64) d
    d.send (.tap l)

/-! ### The log (21 R538 to R542) -/

/-- Stamp order: beat, cycle, source rank. -/
def LogEntry.before (a b : LogEntry) : Bool :=
  decide (a.beat < b.beat) || (a.beat == b.beat && (decide (a.cycle < b.cycle) || (a.cycle == b.cycle && decide (a.source < b.source))))

/-- The oldest held entry of each source, in their order of arrival. -/
def firstOfSources : List LogEntry → List Nat → List LogEntry
  | [], _ => []
  | e :: t, seen => if seen.contains e.source then firstOfSources t seen else e :: firstOfSources t (e.source :: seen)

/-- The held entry that stamp order writes next. -/
def nextEntry (l : List LogEntry) : Option LogEntry :=
  match firstOfSources l [] with
  | [] => none
  | e :: t => some (t.foldl (fun m x => if x.before m then x else m) e)

/-- Entries that satisfy the match fields count, and the MATCH_COUNT-th triggers. -/
def Dev.matchEntry (d : Dev) (e : LogEntry) : Dev :=
  let mask := d.get Reg.FRZ_CTRL_MATCH_MASK
  let hit := (e.event &&& mask) = (d.get Reg.FRZ_CTRL_MATCH_EVENT &&& mask) &&
    (d.get Reg.FRZ_CTRL_MATCH_ANY = 1 || e.source = d.get Reg.FRZ_CTRL_MATCH_SOURCE)
  if !hit then d
  else
    let n := d.get Reg.FRZ_STATUS_MATCHES + 1
    let d := d.inc Reg.FRZ_STATUS_MATCHES
    if n = d.get Reg.FRZ_CTRL_MATCH_COUNT then d.freezeTrigger fcMatch (d.get Reg.FRZ_CTRL_MATCH_ACTION) d.beat else d

/-- An entry takes its place in the ring. -/
def Dev.ringEntry (d : Dev) (e : LogEntry) : Dev :=
  let seq := d.get Reg.LOG_STATUS_WRITE_SEQ
  ({ d with log := SMap.insert d.log (seq % 16384) (some e), logHeld := d.logHeld.erase e }).inc Reg.LOG_STATUS_WRITE_SEQ

/-- LOG_ENTRY_WRITE. -/
def Dev.logWrite (d : Dev) : Dev :=
  match nextEntry d.logHeld with
  | some e => (d.ringEntry e).matchEntry e
  | none => d

/-- Every held entry is written at once, in stamp order (21 R539). -/
def Dev.logFlush (d : Dev) : Dev :=
  (List.range d.logHeld.length).foldl (fun d _ => match nextEntry d.logHeld with | some e => d.ringEntry e | none => d) d

/-- The entry at a ring index, with its SEQ; zeros where none has been written. -/
def Dev.ringWords (d : Dev) (i : Nat) : List W64 :=
  let n := d.get Reg.LOG_STATUS_WRITE_SEQ
  match SMap.get (fun _ => none) d.log i with
  | some e => e.words (n - 1 - (n + 16384 - 1 - i) % 16384)
  | none => List.replicate 8 0

/-- LOG_READ: the newest entries, oldest first. -/
def cmdLogRead : Cmd :=
  { op := 0x803, len := words 1, free := true
    run := fun _ d _ w =>
      let count := fld (wd w 0) 13 0
      let n := d.get Reg.LOG_STATUS_WRITE_SEQ
      let m := min count (min n 16384)
      if reserved (wd w 0) [(13, 0)] || decide (d.replyMax < 64 * count) then badWord 0
      else .ok d ((List.range m).flatMap (fun i => d.ringWords ((n - m + i) % 16384))) }

/-- LOG_READ_EX: entries in ring order. -/
def cmdLogReadEx : Cmd :=
  { op := 0x883, len := words 1, free := true
    run := fun _ d _ w =>
      let count := fld (wd w 0) 29 16
      if reserved (wd w 0) [(13, 0), (29, 16)] || decide (d.replyMax < 64 * count) then badWord 0
      else .ok d ((List.range count).flatMap (fun i => d.ringWords ((fld (wd w 0) 13 0 + i) % 16384))) }

end Sys2Proof.Machine
end

