-- ==== Sys2Proof/Machine/Power.lean ====
section
/-! DEFINITION. Power states, clock gating, power and temperature (18 R491 to R500). -/

namespace Sys2Proof.Machine

/-! ### Power states (18 R495 to R497) -/

/-- Units under test stay awake (20 R523). -/
def Dev.testedUnits (d : Dev) : List Nat :=
  (d.bist.filter (fun r => r.stage = 2)).flatMap (fun r => match regionKind r.code with
    | some .bench => [r.code / 36]
    | some .floor => [4 + (r.code - 0x100)]
    | some .port => []
    | _ => (List.range 8).map (· + 4))

/-- Named units enter REST, or leave it. -/
def Dev.restUnits (d : Dev) (l : List Nat) : Dev :=
  let l := l.filter (fun u => !d.testedUnits.contains u && !d.resting.contains u)
  { d with resting := d.resting ++ l, unlocked := d.unlocked.filter (fun u => !l.contains u) }

/-- The state of the device after the reply to POWER_STATE. -/
def Dev.enterPower (d : Dev) (target : Nat) : Dev :=
  if target = 2 then (d.restUnits (List.range 12)).setPower 2
  else if target = 3 then
    let d := (((d.linkLost 0).linkLost 1).ptpHoldover).setPower 3
    let d := (List.range 12).foldl (fun d p => d.setPort p 0) d
    { d with lat := { freezes := d.lat.freezes } }
  else d.wakeAll

/-- REST waits for no maintenance, copy or run (18 R496). -/
def Dev.restAllowed (d : Dev) : Bool :=
  (d.js = jsNone || d.js = jsLoaded || d.js = jsPreempted || d.js = jsEnded) &&
  !d.ops.any (fun o => LongOp.runs 0 o || LongOp.runs 1 o || LongOp.runs 4 o)

/-- POWER_STATE. -/
def cmdPowerState : Cmd :=
  { op := 0x601, len := words 1
    run := fun _ d _ w =>
      let t := fld (wd w 0) 2 0
      if reserved (wd w 0) [(2, 0)] || decide (3 < t) then badWord 0
      else if (t = 2 && !d.restAllowed) || (t = 3 && !(d.js = jsNone && d.ops.isEmpty)) then .refuse rcState noDetail
      else .okThen d [] (fun _ d => d.enterPower t) }

/-- The units of a mask: bit d a bench die, bit 4 + k a floor. -/
def unitList (m : Nat) : List Nat := (List.range 12).filter (fun u => m.testBit u)

/-- POWER_STATE_EX: ACTIVE or REST for the named units. Bit 12 names no unit. -/
def cmdPowerStateEx : Cmd :=
  { op := 0x681, len := words 2, pre := fun d => d.js = jsNone
    run := fun _ d _ w =>
      let t := fld (wd w 0) 2 0
      let l := unitList (fld (wd w 1) 12 0)
      if reserved (wd w 0) [(2, 0)] || decide (2 < t) then badWord 0
      else if reserved (wd w 1) [(11, 0)] then badWord 1
      else .okThen d [] (fun _ d => if t = 2 then d.restUnits l else d.wakeUnits l) }

/-! ### Clocks (18 R492 to R494) -/

/-- Domains that gate on demand: 144 benches, 4 die networks, 8 floor networks, 8 update engines. -/
abbrev gateable : Nat := 164

/-- The unit whose PLL feeds a gated domain. -/
def domainUnit (n : Nat) : Nat := if n < 144 then n / 36 else if n < 148 then n - 144 else if n < 156 then n - 144 else n - 152

/-- An engine queue with nothing in it and nothing in progress. -/
def EngSt.done (s : EngSt) : Bool := s.queue.isEmpty && s.cur.isNone

/-- A channel has reached the end of its list and holds no descriptor. -/
def Chan.done (c : Chan) : Bool := c.reader = .idle && c.queue.isEmpty && c.cur.isNone

/-- Work has reached a domain: a record or descriptor, a packet. -/
def Dev.domainBusy (d : Dev) (n : Nat) : Bool :=
  if n < 144 then
    let x := d.bn n
    !(x.lane.queue.isEmpty && x.lane.cur.isNone && x.lane.drains.isEmpty && x.awl.done && x.last.done && x.vec.done &&
      (x.seq = .idle || !d.runs) && (List.range 8).all (fun ch => (d.chan n ch).done || !d.runs) && !d.net.pkts.any (fun p => p.dst = n))
  else if n < 148 then
    !d.net.pkts.isEmpty || !(List.range 36).all (fun i => d.gated.contains (36 * (n - 144) + i))
  else if n < 156 then
    let k := n - 148
    !((d.floor k).stash ≠ .running && (List.range 8).all (fun ch => (d.chan (144 + k) ch).done || !d.runs) &&
      !d.net.pkts.any (fun p => p.dst = 144 + k))
  else (d.floor (n - 156)).upd = .running

/-- CLOCK_GATE_OPEN: only once the domain's PLL is locked. -/
def Dev.gateOpen (d : Dev) (n : Nat) : Dev :=
  let u := domainUnit n
  if d.frozen || !d.gated.contains n || d.resting.contains u || d.unlocked.contains u then d
  else
    let d : Dev := { d with gated := d.gated.filter (· ≠ n) }
    if d.power = 1 then d.setPower 0 else d

/-- CLOCK_GATE_IDLE: a domain with no work gates, unless GATE_IDLE is 0. -/
def Dev.gateIdle (d : Dev) (n : Nat) : Dev :=
  if d.frozen || decide (gateable ≤ n) || d.gated.contains n || d.get Reg.PWR_CTRL_GATE_IDLE = 0 || d.domainBusy n then d
  else
    let d : Dev := { d with gated := d.gated ++ [n] }
    if d.power = 0 ∧ d.gated.length = gateable then d.setPower 1 else d

/-- PLL_LOCKED: PLLs 0 to 3 of the dies, 4 to 11 of the floors; the others stop only with the device. -/
def Dev.pllLocked (d : Dev) (pll : Nat) : Dev := { d with unlocked := d.unlocked.filter (· ≠ pll) }

/-! ### Power and temperature (18 R491, R498, R499) -/

/-- The steward works. -/
def Dev.stewardOn (d : Dev) : Bool := !d.frozen && decide (d.power ≤ 2)

/-- RAIL_MEASURE: power and voltage of the ten rails; the averages are over the last 1 ms. -/
def Dev.railMeasure (d : Dev) (rails : List (Nat × Nat)) : Dev :=
  if !d.stewardOn || rails.length ≠ 10 then d
  else
    let hist := (rails.map Prod.fst :: d.railHist).take 100
    let n := hist.length
    let sumOf (i : Nat) : Nat := hist.foldl (fun s l => s + l.getD i 0) 0
    let total := hist.foldl (fun s (l : List Nat) => s + l.foldl (· + ·) 0) 0
    let d : Dev := { d with railHist := hist }
    let d := (List.range 10).foldl (fun d i =>
      (d.set (Reg.PWR_RAIL_RAIL_MW i) (min 0xFFFFFFFF (sumOf i / n))).set (Reg.PWR_RAIL_RAIL_MV i) (min 0xFFFF (rails.getD i (0, 0)).2)) d
    let d := d.set Reg.PWR_STATUS_PACKAGE_MW (min 0xFFFFFFFF (total / n))
    let limit := 250 * d.get Reg.PWR_CTRL_POWER_LIMIT * n
    if limit < total ∧ d.get Reg.PWR_STATUS_OVER = 0 then (d.set Reg.PWR_STATUS_OVER 1).inc Reg.LEAVE_COUNT_OVER_EVENTS
    else if 100 * total ≤ 99 * limit then d.set Reg.PWR_STATUS_OVER 0
    else d

/-- Sensors: 36 of the bench dies, 2 of the hub, 8 of the floors, 96 of the DRAM dies (21 R541). -/
abbrev sensors : Nat := 142

/-- The warning threshold of a sensor, in units of 0.125 °C. -/
def Dev.warnAt (d : Dev) (i : Nat) : Int := if i < 46 then 8 * (d.get Reg.PWR_CTRL_T_WARN : Int) else 760

/-- A reading as it is stored and logged: 16 bits, signed. -/
def temp16 (t : Int) : Nat := unsigned 16 (max (-32768) (min 32767 t))

/-- THERMAL's entry. -/
def Dev.logThermal (d : Dev) (trip set_ : Bool) (sensor : Nat) (t : Int) : Dev :=
  d.logEv 2 0x070 [packFlds [(0, 0, b2n trip), (1, 1, b2n set_), (15, 8, sensor), (47, 32, temp16 t)]]

/-- The hottest of a run of sensors. -/
def hottest (l : List Int) (first n : Nat) : Int :=
  let s := (l.drop first).take n
  s.foldl max (s.headD 0)

/-- TEMP_SENSOR_READ: registers, THERM_WARN, the log. -/
def Dev.tempRead (d : Dev) (l : List Int) : Dev :=
  if !d.stewardOn || l.length ≠ sensors then d
  else
    let hot (i : Nat) : Nat := temp16 (hottest l (46 + 12 * i) 12)
    let d := (d.setReg Reg.PWR_TEMP0 (packFlds ((List.range 4).map (fun i => (63 - 16 * i, 48 - 16 * i, temp16 (hottest l (9 * i) 9)))))).set
      Reg.PWR_TEMP1_HUB (temp16 (hottest l 36 2))
    let d := d.setReg Reg.PWR_TEMP2 (packFlds ((List.range 4).map (fun i => (63 - 16 * i, 48 - 16 * i, hot i))))
    let d := d.setReg Reg.PWR_TEMP3 (packFlds ((List.range 4).map (fun i => (63 - 16 * i, 48 - 16 * i, hot (4 + i)))))
    let d := (List.range sensors).foldl (fun d i =>
      let t := l.getD i 0
      if d.hotSensors.contains i then
        (if t ≤ d.warnAt i - 16 then ({ d with hotSensors := d.hotSensors.filter (· ≠ i) }).logThermal false false i t else d)
      else if d.warnAt i ≤ t then ({ d with hotSensors := d.hotSensors ++ [i] }).logThermal false true i t
      else d) d
    d.set Reg.PWR_STATUS_THERM_WARN (b2n (!d.hotSensors.isEmpty))

/-- THERMAL_TRIP: the clocks stop, the transmitters idle, THERMTRIP_N falls and stays low. -/
def Dev.thermalTrip (d : Dev) (sensor : Nat) (t : Int) : Dev :=
  if d.boot.phase = .off || !d.pins.thermtripN || decide (sensors ≤ sensor) || decide (t < (if sensor < 46 then 960 else 840)) then d
  else
    let d := (d.linkLost 0).linkLost 1
    let d : Dev := { d with pins := { d.pins with thermtripN := false }, boot := { d.boot with phase := .aon } }
    d.logEv srcAon 0x070 [packFlds [(0, 0, 1), (1, 1, 1), (15, 8, sensor), (47, 32, temp16 t)]]

/-- The hottest die, in units of 0.125 °C: of the bench dies, the hub and the piles. -/
def Dev.hottestDie (d : Dev) : Int :=
  let parts (w : W64) (n : Nat) : List Int := (List.range n).map (fun i => signed 16 (fld w (63 - 16 * i) (48 - 16 * i)))
  let l := parts (d.reg Reg.PWR_TEMP0) 4 ++ parts (d.reg Reg.PWR_TEMP1) 1 ++ parts (d.reg Reg.PWR_TEMP2) 4 ++ parts (d.reg Reg.PWR_TEMP3) 4
  l.foldl max (l.headD 0)

/-- POWER_READ. -/
def cmdPowerRead : Cmd :=
  { op := 0x602, len := words 0, free := true
    run := fun _ d _ _ => .ok d [packFlds [(63, 32, unsigned 32 d.hottestDie), (31, 0, d.get Reg.PWR_STATUS_PACKAGE_MW)]] }

/-- POWER_READ_EX: the words from PWR_STATUS to LEAVE_COUNT. -/
def cmdPowerReadEx : Cmd :=
  { op := 0x682, len := words 0, free := true
    run := fun _ d _ _ => .ok d ((List.range 16).map (fun i => d.reg (Reg.PWR_STATUS + 8 * i))) }

end Sys2Proof.Machine
end

