-- ==== Sys2Proof/Machine/Boot.lean ====
section
/-! DEFINITION. Power-up, reset, boot, power-down; SMBus and recovery (19 R502, R505, R510; 22 R551 to R561; 17 R478, R483). -/

namespace Sys2Proof.Machine

/-! ### Warm reset (22 R554) -/

/-- Registers that a warm reset keeps: those of the always-on domain that only a power-up clears, LC_STATUS until the boot
ROM writes it, and the host port's. -/
def warmKept (a : Nat) : Bool :=
  (decide (hpLo ≤ a) && decide (a < 0xFF0000C100)) || a = Reg.LC_STATUS ||
  (match findReg a with | some r => decide (r.clear = .powerUp) | none => false)

/-- The majority of three, or the first. -/
def majority (a b c : Nat × Nat) : Nat × Nat := if a = b ∨ a = c then a else if b = c then b else a

/-- The commit record is read by majority; a copy that disagrees is logged and rewritten (17 R478). -/
def Dev.commitRestore (d : Dev) : Dev :=
  let c (i : Nat) : Nat × Nat := d.boot.commitCopies.getD i (0, 0)
  let m := majority (c 0) (c 1) (c 2)
  let d := ((List.range 3).filter (fun i => c i ≠ m)).foldl (fun d i => d.logEv srcAon 0x031 [packFlds [(1, 0, i)]]) d
  ((d.set Reg.COMMIT_STATUS_T_COMMITTED m.1).set Reg.COMMIT_STATUS_COMMIT_PARITY m.2).commitRecord

/-- A warm reset begins: every operation ends ABORTED with RESET, the links fall, the held log entries are written, and
everything goes but what R554 keeps. The device is in reset from here on. -/
def Dev.warmReset (d : Dev) : Dev :=
  let d := ((d.endOps (fun _ => true) stAborted rcReset).linkLost 0).linkLost 1
  let d := (d.setPower 0).logFlush
  let e : Dev :=
    { mem := d.mem, errs := d.errs.filter (fun x => decide (x.1 < cellarEnd)), regs := d.regs.filter (fun x => warmKept x.1)
      countedBeats := d.countedBeats, liveBeats := d.liveBeats, ageBeats := d.ageBeats, log := d.log, logHeld := d.logHeld, outbox := d.outbox
      free := d.free, saved := d.saved, lat := { freezes := d.lat.freezes }, flash := d.flash
      boot := { d.boot with phase := .aon, fwDigest := [], trainTimeout := [] }
      pins := d.pins, time := d.time, results := d.results, lastBist := d.lastBist, lastBistDigest := d.lastBistDigest }
  (e.set Reg.FRZ_STATUS_FROZEN 0).set Reg.FRZ_STATUS_MATCHES 0

/-- WARM_RESET: RESET_N low with PWRGOOD high. -/
def Dev.pinReset (d : Dev) : Dev :=
  if d.boot.phase = .off || !d.pins.pwrgood then d
  else { d.warmReset with pins := { d.pins with resetN := false } }

/-- RESET. -/
def cmdReset : Cmd := { op := 0x603, len := words 0, run := fun _ d _ _ => .okThen d [] (fun _ d => d.warmReset) }

/-- RESET_AT. -/
def cmdResetAt : Cmd :=
  { op := 0x683, len := words 1, run := fun _ d _ w => .ok { d with resetAt := some (wd w 0).toNat } [] }

/-- RESET_AT_BEAT. -/
def Dev.resetAtBeat (d : Dev) : Dev :=
  match d.resetAt with
  | some b => if d.boot.phase = .run && decide (b ≤ d.aonBeat) then d.warmReset else d
  | none => d

/-! ### Power-up and power-down (22 R551 to R555) -/

/-- What LC_STATUS takes from the fuses; SERVICE lies over DEPLOYED (19 R502). -/
def Dev.fuseStatus (d : Dev) (f : Fuses) : Dev :=
  let life := if d.boot.service && f.life = 3 then 4 else f.life
  ((d.set Reg.LC_STATUS_STATE life).set Reg.LC_STATUS_ROLLBACK f.rollback).set Reg.LC_STATUS_SEED_BANK f.seedBank

/-- AON_POWER_ON: the always-on domain leaves its power-on reset; the address straps are latched. -/
def Dev.aonPowerOn (d : Dev) (f : Fuses) (straps : Nat) : Dev :=
  if d.boot.phase ≠ .off then d
  else
    ({ flash := d.flash, outbox := d.outbox, free := d.free
       boot := { phase := .aon, powerUp := true }
       pins := { resetN := false, pwrgood := false, smbAddr := 0x58 + straps % 8 } } : Dev).fuseStatus f

/-- Registers of the always-on domain that outlive a fall of PWRGOOD (22 R555). -/
def aonKept (a : Nat) : Bool := [Reg.HP_TIME, Reg.FRZ_STATUS, Reg.FRZ_COUNT, Reg.LOG_STATUS, Reg.LC_STATUS].contains a

/-- The host port's "Config" fields: from the port configuration record, or the fused MAC address and zeros (14 R398,
19 R509). -/
def Dev.hostConfig (d : Dev) (f : Fuses) : Dev :=
  let l := d.flashRead 0x2100000 64
  let w := bytesWords 8 l
  if fld (wd w 0) 31 0 = 0x48434647 && (wd w 7).toNat % 2 ^ 32 = crc32c 0xFFFFFFFF (l.take 56) then
    let c := wd w 1
    let put (d : Dev) (x : Fld) : Dev := d.set x (fld c x.hi x.lo)
    let d := [Reg.HP_CTRL_MODE, Reg.HP_CTRL_VLAN_EN, Reg.HP_CTRL_VID, Reg.HP_CTRL_SMIPER_PORT, Reg.HP_CTRL_PTP_TRANSPORT,
      Reg.HP_CTRL_PTP_DOMAIN].foldl put d
    ((((d.set Reg.HP_MAC_MAC_ADDR (fld (wd w 2) 47 0)).set Reg.HP_IPV4_IPV4_ADDR (fld (wd w 3) 31 0)).setReg (Reg.HP_IPV6 0) (wd w 4))).setReg
      (Reg.HP_IPV6 1) (wd w 5)
  else d.set Reg.HP_MAC_MAC_ADDR f.mac.toNat

/-- The field repair record is applied: bypass sets, die marks, Safe causes (03 R107, 10 R295, 17 R483). -/
def Dev.applyRepair (d : Dev) (f : Fuses) : Dev :=
  let r := d.repair.1
  let d := (List.range 144).foldl (fun d b =>
    let map := SMap.get (fun _ => 0) f.laneMaps b ||| r.maps.getD b 0
    let n := popcount 256 map
    let d := (List.range 4).foldl (fun d i => d.setReg (Reg.LR_BYPASS b i) (w64 (map / 2 ^ (64 * i)))) d
    ((d.set (Reg.LR_WIDTH_BYPASS_COUNT b) n).set (Reg.LR_WIDTH_PRESENTED_WIDTH b) (256 - n)).set (Reg.LR_WIDTH_UNIFORM_WIDTH b) (256 - n)) d
  let d := (List.range 8).foldl (fun d k =>
    let m := r.dies.getD k 0
    if 16 ≤ m then (d.set (Reg.CELLAR_DIE_MARK_VALID k) 1).set (Reg.CELLAR_DIE_MARKED_DIE k) (m % 16) else d) d
  let failed := r.causes / 2 ≠ 0
  let d := ((d.set Reg.FAULT_STATUS_SAFE_CAUSE (r.causes % 32)).set Reg.FAULT_STATUS_FAILED (b2n failed)).set Reg.FAULT_STATUS_SAFE (b2n failed)
  if failed then d.logEv 1 0x002 [w64 (r.causes % 32)] else d

/-- RESET_RELEASE: the device leaves reset. At a power-up the cellars train and hold nothing, and the host port takes its
record; after a warm reset everything of R554 is still there. -/
def Dev.resetRelease (d : Dev) (f : Fuses) : Dev :=
  if d.boot.phase ≠ .aon || !d.pins.thermtripN then d
  else
    let d : Dev := { d with pins := { d.pins with resetN := true, pwrgood := true }, boot := { d.boot with phase := .released } }
    let d : Dev := if d.boot.powerUp then
        ({ d with mem := [], errs := [], saved := [], results := [], lastBist := 0, lastBistDigest := []
                  regs := d.regs.filter (fun x => aonKept x.1) }).hostConfig f
      else d
    ((((d.fuseStatus f).applyRepair f).clearScratchpads).commitRestore).renewChallenge

/-- CELLAR_TRAIN_TIMEOUT: Safe with FLOOR_FAILED (22 R553). -/
def Dev.trainTimeout (d : Dev) (k : Nat) : Dev :=
  if d.boot.phase = .released && d.boot.powerUp && decide (k < 8) && !d.boot.trainTimeout.contains k then
    ({ d with boot := { d.boot with trainTimeout := d.boot.trainTimeout ++ [k] } }).enterSafe scFloor
  else d

/-- PWRGOOD_FALL: reset as for a warm reset; the next rise is a power-up (22 R555). -/
def Dev.pwrgoodFall (d : Dev) : Dev :=
  if d.boot.phase = .off then d
  else
    let d := d.warmReset
    { d with pins := { d.pins with pwrgood := false, resetN := false }, boot := { d.boot with powerUp := true } }

/-- POWER_OFF: only the flash and the fuses remain (22 R555, 18 R495, R499). -/
def Dev.powerOff (d : Dev) : Dev :=
  { flash := d.flash, outbox := d.outbox, free := d.free, boot := { phase := .off }
    pins := { resetN := false, pwrgood := false, vddAon := false } }

/-! ### Secure boot (19 R502, R505, R506, R510) -/

/-- Fuse steps that power loss interrupted are completed. -/
def Fuses.complete (f : Fuses) : Fuses :=
  let f : Fuses := { f with lcWords := f.lcWords.map (fun n => if 5 ≤ n then 8 else n) }
  if f.life = 5 then f.destroySeeds else f

/-- The slot that boots, with its image, and whether it is a fallback. -/
def Dev.bootSlot (d : Dev) (f : Fuses) : Option (Nat × FwImage × Bool) :=
  let a := d.directory.2.1
  match d.verifyImage f.rollback (d.slotImage a) with
  | some i => some (a, i, false)
  | none => match d.verifyImage f.rollback (d.slotImage (1 - a)) with
    | some i => some (1 - a, i, true)
    | none => none

/-- BOOT_ROM: the whole of R510. -/
def bootRom (f : Fuses) (d : Dev) : Fuses × Dev :=
  if d.boot.phase ≠ .released then (f, d)
  else
    let f := f.complete
    let d := d.fuseStatus f
    match d.bootSlot f with
    | none => (f, ({ d with boot := { d.boot with phase := .noFirmware, powerUp := false } }).logEv 1 0x081 [packFlds [(2, 2, 1)]])
    | some (slot, img, back) =>
      let f : Fuses := { f with rollback := max f.rollback img.security }
      let d : Dev := { d with aonBeat := d.beat, boot := { d.boot with phase := .run, powerUp := false, fwDigest := img.digest } }
      let d := ((d.fuseStatus f).set Reg.LC_STATUS_BOOT_SLOT slot).set Reg.LC_STATUS_SLOT_FALLBACK (b2n back)
      let d := d.set Reg.LC_STATUS_FW_VERSION img.version
      let d := if back then d.inc Reg.LC_COUNT_FALLBACKS else d
      (f, d.logEv 1 0x081 [packFlds [(0, 0, slot), (1, 1, b2n back)]])

/-! ### SMBus (22 R559 to R561) -/

/-- ALERT_N is driven low (17 R484, 18 R498); in reset it is released. -/
def Dev.alertLow (d : Dev) : Bool :=
  (d.boot.phase = .run || d.boot.phase = .noFirmware) &&
  (d.safe || fld (d.reg Reg.FAULT_STATUS) 2 0 ≠ 0 || d.get Reg.PWR_STATUS_THERM_WARN = 1)

/-- The answer to a Block Read: count, data, PEC over the whole transaction. -/
def Dev.smbBlock (d : Dev) (code : Nat) (data : List Byte) : Dev :=
  if d.boot.phase = .off then d
  else
    let a := d.pins.smbAddr
    let body := byteOf data.length :: data
    d.send (.smb (body ++ [byteOf (pec ([byteOf (2 * a), byteOf code, byteOf (2 * a + 1)] ++ body))]))

/-- SMB_STATUS. -/
def Dev.smbStatus (d : Dev) : Dev :=
  let flags := b2n (!d.pins.thermtripN) + 2 * d.get Reg.PWR_STATUS_THERM_WARN + 4 * b2n (d.boot.phase = .noFirmware) + 8 * b2n (d.boot.phase = .run)
  d.smbBlock 0x01 ([d.life, d.power, d.mode, d.get Reg.FAULT_STATUS_SAFE_CAUSE, flags, 0, 0, 0].map byteOf)

/-- SMB_TEMP. -/
def Dev.smbTemp (d : Dev) : Dev := d.smbBlock 0x02 (toLe 2 (unsigned 16 d.hottestDie))

/-- SMB_POWER. -/
def Dev.smbPower (d : Dev) : Dev := d.smbBlock 0x03 (toLe 4 (d.get Reg.PWR_STATUS_PACKAGE_MW))

/-- SMB_IDENT. -/
def Dev.smbIdent (d : Dev) (f : Fuses) : Dev := d.smbBlock 0x04 (toLe 8 f.serial.toNat)

/-- SMB_WAKE: out of VAULT only. -/
def Dev.smbWake (d : Dev) : Dev := if d.boot.phase = .run && d.power = 3 then d.warmReset else d

/-- SMB_RESET. -/
def Dev.smbReset (d : Dev) : Dev := if d.boot.phase = .off then d else d.warmReset

/-- SMB_ALERT_RESPONSE: the own address, while ALERT_N is low. -/
def Dev.alertResponse (d : Dev) : Dev :=
  if d.alertLow then
    let a := byteOf (2 * d.pins.smbAddr)
    d.send (.smb [a, byteOf (pec [0x19, a])])
  else d

/-- A transaction is NACKed. -/
def Dev.smbNack (d : Dev) : Dev := if d.boot.phase = .off then d else d.send .smbNack

/-- SMB_UNLISTED_COMMAND. -/
def Dev.smbUnlisted (d : Dev) (code : Nat) : Dev :=
  if [0x01, 0x02, 0x03, 0x04, 0x10, 0x11, 0x20, 0x21, 0x22].contains code then d else d.smbNack

/-- Recovery is permitted (22 R561). -/
def Dev.recoveryOk (d : Dev) : Bool :=
  d.life ≠ 5 && (d.boot.phase = .noFirmware || (d.boot.phase = .run && (d.life = 1 || d.life = 4) && d.js = jsNone))

/-- The slot of the firmware that runs. -/
def Dev.slotRuns (d : Dev) (slot : Nat) : Bool := d.boot.phase = .run && d.get Reg.LC_STATUS_BOOT_SLOT = slot

/-- RECOVERY_ERASE. -/
def Dev.recoveryErase (d : Dev) (slot : Nat) : Dev :=
  if !d.recoveryOk || decide (1 < slot) || d.slotRuns slot then d.smbNack
  else
    let a := fwSlot slot
    { d with flash := d.flash.filter (fun c => decide (c.1 < a) || decide (a + fwSlotSize ≤ c.1))
             boot := { d.boot with erased := some slot } }

/-- RECOVERY_WRITE: into the slot that was erased. -/
def Dev.recoveryWrite (d : Dev) (off : Nat) (data : List Byte) : Dev :=
  match d.boot.erased with
  | some slot =>
    if !d.recoveryOk || data.isEmpty || decide (240 < data.length) || decide (fwSlotSize < off + data.length) || d.slotRuns slot then d.smbNack
    else d.flashWrite (fwSlot slot + off) data
  | none => d.smbNack

/-- RECOVERY_ACTIVATE: the directory names the slot; then a warm reset. -/
def Dev.recoveryActivate (d : Dev) (slot : Nat) : Dev :=
  if !d.recoveryOk || decide (1 < slot) || d.slotRuns slot then d.smbNack else (d.setDirectory slot).warmReset

end Sys2Proof.Machine
end

