-- ==== Sys2Proof/Machine/BootRows.lean ====
section
/-! DEFINITION. The rows of power-up, reset, boot and the SMBus (19, 22).
Each meaning is one row of the table. -/

namespace Sys2Proof.Machine

/-- SMBus block read of the device's life-cycle, power, mode and safe state (22 R560). -/
def execSmbStatus (s : State) : Host.Outcome State Fault Refusal :=
  s.upd Dev.smbStatus

/-- SMBus block read of the hottest die temperature (22 R560). -/
def execSmbTemp (s : State) : Host.Outcome State Fault Refusal :=
  s.upd Dev.smbTemp

/-- SMBus block read of the package power (22 R560). -/
def execSmbPower (s : State) : Host.Outcome State Fault Refusal :=
  s.upd Dev.smbPower

/-- SMBus block read of the serial number (22 R560). -/
def execSmbIdent (s : State) : Host.Outcome State Fault Refusal :=
  s.updF (fun f d => d.smbIdent f)

/-- Leaves VAULT by warm reset; ignored in other states (22 R560). -/
def execSmbWake (s : State) : Host.Outcome State Fault Refusal :=
  s.upd Dev.smbWake

/-- Performs a warm reset over SMBus (22 R560). -/
def execSmbReset (s : State) : Host.Outcome State Fault Refusal :=
  s.upd Dev.smbReset

/-- While ALERT_N is low, answers the SMBus Alert Response Address with the device's own address (22 R559). -/
def execSmbAlertResponse (s : State) : Host.Outcome State Fault Refusal :=
  s.upd Dev.alertResponse

/-- Erases a firmware slot, if recovery is permitted (22 R561). -/
def execRecoveryErase (slot : Nat) (s : State) : Host.Outcome State Fault Refusal :=
  s.upd (fun d => d.recoveryErase slot)

/-- Programs data into the erased slot (22 R561). -/
def execRecoveryWrite (off : Nat) (data : List Byte) (s : State) : Host.Outcome State Fault Refusal :=
  s.upd (fun d => d.recoveryWrite off data)

/-- Writes the directory naming the slot as active, then performs a warm reset (22 R561). -/
def execRecoveryActivate (slot : Nat) (s : State) : Host.Outcome State Fault Refusal :=
  s.upd (fun d => d.recoveryActivate slot)

/-- The always-on domain leaves power-on reset once VDD_AON and CLK_AON are good; it starts the log and serves SMBus
(22 R552). -/
def execAonPowerOn (straps : Nat) (s : State) : Host.Outcome State Fault Refusal :=
  s.updF (fun f d => d.aonPowerOn f straps)

/-- RESET_N is sampled high with PWRGOOD high, and the device runs its power-up sequence (22 R553). -/
def execResetRelease (s : State) : Host.Outcome State Fault Refusal :=
  s.updF (fun f d => d.resetRelease f)

/-- A cellar whose channels have not all trained within 80 ms puts the device in Safe with cause FLOOR_FAILED (22
R553). -/
def execCellarTrainTimeout (k : Nat) (s : State) : Host.Outcome State Fault Refusal :=
  s.upd (fun d => d.trainTimeout k)

/-- Digests the ROM, completes fuse steps, verifies a firmware slot, updates rollback, derives the identity key and
starts firmware (19 R510). -/
def execBootRom (s : State) : Host.Outcome State Fault Refusal :=
  let r := bootRom s.fuses s.dev
  .next { s with fuses := r.1, dev := r.2 }

/-- On RESET_N low with PWRGOOD high, or a reset command, stops the clocks, parks the cellars and restarts the device,
keeping what R554 keeps (22 R554). -/
def execWarmReset (s : State) : Host.Outcome State Fault Refusal :=
  s.upd Dev.pinReset

/-- PWRGOOD falls while RESET_N is high; the device enters reset and treats the next rise as a power-up (22 R555). -/
def execPwrgoodFall (s : State) : Host.Outcome State Fault Refusal :=
  s.upd Dev.pwrgoodFall

/-- The rails are removed and everything but the fuses and field repair record is lost (22 R555). -/
def execPowerOff (s : State) : Host.Outcome State Fault Refusal :=
  s.upd Dev.powerOff

/-- An SMBus transaction with a command code that the table does not list is NACKed and does nothing (22 R560). -/
def execSmbUnlistedCommand (code : Nat) (s : State) : Host.Outcome State Fault Refusal :=
  s.upd (fun d => d.smbUnlisted code)

end Sys2Proof.Machine
end

