-- ==== Sys2Proof/Machine/DmaRows.lean ====
section
/-! DEFINITION. The rows of DMA channels and the bulk network (08, 09).
Each meaning is one row of the table. -/

namespace Sys2Proof.Machine

/-- A channel checks and starts a two-dimensional descriptor (09 R267). -/
def execDmaTwoD (loc ch : Nat) (s : State) : Host.Outcome State Fault Refusal :=
  s.upd (fun d => d.startDesc 0 loc ch)

/-- A channel checks and starts a circular descriptor with ring ends and limits (09 R271). -/
def execDmaCircular (loc ch : Nat) (s : State) : Host.Outcome State Fault Refusal :=
  s.upd (fun d => d.startDesc 1 loc ch)

/-- A channel checks and starts a shape-addressed descriptor with origins (09 R277). -/
def execDmaShape (loc ch : Nat) (s : State) : Host.Outcome State Fault Refusal :=
  s.upd (fun d => d.startDesc 2 loc ch)

/-- A channel issues its next burst once pacing, the outstanding limit and its port turn allow, translating JOB
addresses (09 R281). -/
def execDmaBurstIssue (loc ch : Nat) (s : State) : Host.Outcome State Fault Refusal :=
  s.upd (fun d => d.issueBurst loc ch)

/-- A channel at its limit re-reads the limit word and moves on if it has advanced (09 R273). -/
def execDmaLimitReread (loc ch : Nat) (s : State) : Host.Outcome State Fault Refusal :=
  s.upd (fun d => d.limitReread loc ch)

/-- A limit wait of LIMIT_TIMEOUT beats without advance stops the descriptor with LIMIT_TIMEOUT (09 R274). -/
def execLimitTimeout (loc ch : Nat) (s : State) : Host.Outcome State Fault Refusal :=
  s.upd (fun d => d.limitTimeout loc ch)

/-- Once every outstanding burst has ended after a stop cause, the channel records progress and the done mask and
writes word 7 and its report word (09 R285). -/
def execDmaStop (loc ch : Nat) (s : State) : Host.Outcome State Fault Refusal :=
  s.upd (fun d => d.chanStop loc ch)

/-- A WRITE packet lands at its destination port, which returns ACK, or NACK if refused (08 R243). -/
def execBulkWrite (id : Nat) (s : State) : Host.Outcome State Fault Refusal :=
  s.upd (fun d => execBulkWriteOn d id)

/-- A READ_REQ is served at its destination, or joins a merge window, and is answered by READ_DATA (08 R243). -/
def execBulkReadReq (id : Nat) (s : State) : Host.Outcome State Fault Refusal :=
  s.upd (fun d => execBulkReadReqOn d id)

/-- READ_DATA arrives and completes a read burst (08 R243). -/
def execBulkReadData (id : Nat) (s : State) : Host.Outcome State Fault Refusal :=
  s.upd (fun d => execBulkReadDataOn d id)

/-- An ACK completes a write burst and advances the channel's progress and done mask (09 R284). -/
def execBulkAck (id : Nat) (agrees : Bool) (s : State) : Host.Outcome State Fault Refusal :=
  s.upd (fun d => execBulkAckOn d id agrees)

/-- A NACK reports a refused write to its channel (08 R243). -/
def execBulkNack (id : Nat) (s : State) : Host.Outcome State Fault Refusal :=
  s.upd (fun d => execBulkNackOn d id)

/-- A multicast packet is copied where routes part and delivered to each bench in its mask (08 R245). -/
def execBulkMulticast (id : Nat) (s : State) : Host.Outcome State Fault Refusal :=
  s.upd (fun d => execBulkMulticastOn d id)

/-- A REDUCE contribution is matched in a router, and a complete set is summed in ORDER and sent on (08 R247). -/
def execBulkReduce (id : Nat) (s : State) : Host.Outcome State Fault Refusal :=
  s.upd (fun d => execBulkReduceOn d id)

/-- A set still incomplete REDUCE_TIMEOUT beats after its first contribution stops with REDUCE_FAULT (08 R248). -/
def execReduceTimeout (b : Nat) (s : State) : Host.Outcome State Fault Refusal :=
  s.upd (fun d => execReduceTimeoutOn d b)

/-- A bulk link cycle with a CRC mismatch is replayed, and eight failures mark the link LINK_FAILED (08 R244). -/
def execLinkCrcReplay (b port : Nat) (failures : Nat) (s : State) : Host.Outcome State Fault Refusal :=
  s.upd (fun d => execLinkCrcReplayOn d b port failures)

/-- After 64 bench cycles a merge window closes; the slot is read once and multicast to every requester (07 R229). -/
def execMergeWindowClose (b slot : Nat) (s : State) : Host.Outcome State Fault Refusal :=
  s.upd (fun d => execMergeWindowCloseOn d b slot)

end Sys2Proof.Machine
end

