-- ==== Sys2Proof/Machine/Commands.lean ====
section
/-! DEFINITION. Every opcode with its command; commands that waited; datagrams (15 R401, R407, R424 to R435; 14 R384). -/

namespace Sys2Proof.Machine

/-- The opcodes of the chapter's tables. -/
def allCmds : List Cmd :=
  [cmdIdentify, cmdIdentifyPart, cmdSessionOpen, cmdSessionTake, cmdDomainForm, cmdDomainFormEx, cmdRegRead, cmdRegReadBlock,
   cmdRegWrite, cmdRegWriteMulti, cmdStatusRead, cmdStatusPageRead, cmdResultRead, cmdResultReadRaw, cmdOpAbort, cmdOpAbortClass] ++
  [cmdMemRead, cmdMemReadEx, cmdMemWrite, cmdMemWriteEx, cmdCopy, cmdDescSubmit, cmdWindowOpen, cmdWindowWrite] ++
  [cmdLoad 0x301 4, cmdLoad 0x381 5, cmdRun 0x302 0, cmdRun 0x382 1, cmdPreempting 0x303 0, cmdPreempting 0x383 1,
   cmdResuming 0x304 0, cmdResuming 0x384 1, cmdUnload 0x305 0, cmdUnload 0x385 9, cmdSegmentMap, cmdSegmentWrite, cmdHalt,
   cmdHaltChannel] ++
  [cmdStep, cmdStepEx, cmdGroupPreset, cmdGroupWrite, cmdCommitRead, cmdCommitReadEx] ++
  [cmdCountersRead, cmdCountersReadEx, cmdScrub, cmdScrubEx, cmdBist, cmdBistEx] ++
  [cmdPowerState, cmdPowerStateEx, cmdPowerRead, cmdPowerReadEx, cmdReset, cmdResetAt] ++
  [cmdAttesting 0x701 4, cmdAttesting 0x781 5, cmdLifecycleAdvance, cmdLifecycleAuth, cmdFirmwareUpdate, cmdFlashWrite] ++
  [cmdFreeze, cmdFreezeAt, cmdStateRead, cmdIjtagAccess, cmdLogRead, cmdLogReadEx, cmdThaw, cmdThawAt]

/-- The command of an opcode. -/
def cmdOf (op : Nat) : Option Cmd := allCmds.find? (fun c => c.op = op)

/-- An opcode that no table lists is refused, after the check of VERSION (15 R401). -/
def unknownOp (op : Nat) (h : Hdr) (d : Dev) : Dev :=
  if !d.serving then d
  else d.reply op h (if h.version ≠ 1 then rcBadVersion else rcUnknown) noDetail []

/-- A packet of any opcode. -/
def runOp (op : Nat) (h : Hdr) (w : List W64) (f : Fuses) (d : Dev) : Fuses × Dev :=
  match cmdOf op with
  | some c => c.exec f d h w
  | none => (f, unknownOp op h d)

/-- A reply that follows a wait is dropped where its port's link is down; the cache holds it for a resend (14 R393). -/
def Dev.replyOver (d : Dev) (port : Nat) (after : Dev) : Dev :=
  if (d.get Reg.HP_STATUS_LINK).testBit port then after else { after with outbox := d.outbox }

/-- Held commands are served in order, as far as none waits still (15 R407). -/
def releaseHeld : Nat → Fuses → Dev → Fuses × Dev
  | 0, f, d => (f, d)
  | n + 1, f, d =>
    match d.smiper.heldCmds with
    | [] => (f, d)
    | (op, h, w) :: rest =>
      let d' : Dev := { d with smiper := { d.smiper with heldCmds := rest } }
      match cmdOf op with
      | none => releaseHeld n f d'
      | some c => match answer op h true f d' (c.serve f d' h w) with
        | some (f, d) => releaseHeld n f (d'.replyOver h.src.port d)
        | none => (f, d)

/-- Whatever may have ended a wait, the held commands are tried again. -/
def thenHeld (f : Fuses) (d : Dev) : Fuses × Dev := releaseHeld d.smiper.heldCmds.length f d

/-- Change the device, then try the held commands. -/
def State.updHeld (s : State) (g : Dev → Dev) : Host.Outcome State Fault Refusal :=
  let r := thenHeld s.fuses (g s.dev)
  .next { s with fuses := r.1, dev := r.2 }

end Sys2Proof.Machine
end

