-- ==== Sys2Proof/Machine/FloorRows.lean ====
section
/-! DEFINITION. The rows of floors, and of the step (10, 12).
Each meaning is one row of the table. -/

namespace Sys2Proof.Machine

/-- A channel's scrubber reads and corrects its next codeword, or counts and reports a latent error (10 R296). -/
def execCellarScrubRead (k ch : Nat) (seen : Ecc) (s : State) : Host.Outcome State Fault Refusal :=
  s.upd (fun d => cellarScrub d k ch seen)

/-- A corrected codeword is written back in the channel's next idle cycle (10 R294). -/
def execCellarEccWriteback (k : Nat) (addr : Nat) (s : State) : Host.Outcome State Fault Refusal :=
  s.upd (fun d => cellarWriteback d k addr)

/-- Stashes an entry into the attic ring under its limit, or drops it and marks its group for recomputation (10 R303).
-/
def execStash (k : Nat) (s : State) : Host.Outcome State Fault Refusal :=
  s.upd (fun d => stashRun d k)

/-- Copies a stashed entry back to its destination, checking its tallies (10 R304). -/
def execRecall (k : Nat) (s : State) : Host.Outcome State Fault Refusal :=
  s.upd (fun d => recallRun d k)

/-- Pops the oldest frame and advances CONSUME_POS (10 R304). -/
def execFree (k : Nat) (s : State) : Host.Outcome State Fault Refusal :=
  s.upd (fun d => freeRun d k)

/-- At the step's start beat, step fences re-arm, lists restart, the snapshot is taken and each floor checks T against
T_LOCAL + 1 (12 R335). -/
def execStepStart (s : State) : Host.Outcome State Fault Refusal :=
  s.upd Dev.stepStart

/-- An update entry applies its element-wise rule to every granule into the pending view, or carries or skips it (12
R339). -/
def execElementwise (k : Nat) (s : State) : Host.Outcome State Fault Refusal :=
  s.upd (fun d => if k < 8 && d.runs then updRun 0 d k else d)

/-- An update entry writes the orthogonal rule's momentum M to the pending view (12 R342). -/
def execOrthoMomentum (k : Nat) (s : State) : Host.Outcome State Fault Refusal :=
  s.upd (fun d => if k < 8 && d.runs then updRun 1 d k else d)

/-- An update entry applies the orthogonalised momentum to W and MST (12 R342). -/
def execOrthoApply (k : Nat) (s : State) : Host.Outcome State Fault Refusal :=
  s.upd (fun d => if k < 8 && d.runs then updRun 2 d k else d)

/-- A floor sends its vote once all its pending-view writes are acknowledged, and the device combines its vote (12
R346). -/
def execFloorVote (k : Nat) (s : State) : Host.Outcome State Fault Refusal :=
  s.upd (fun d => d.floorVote k)

/-- At the close beat, the outcome takes effect: commit with parity flip, skip, or abort for replay or abandonment; an
incomplete agreement moves the close (12 R348). -/
def execVoteClose (s : State) : Host.Outcome State Fault Refusal :=
  s.updHeld Dev.voteClose

/-- At the agreed replay start beat, the snapshot is restored, fences move and the step runs again (17 R476). -/
def execStepReplayStart (s : State) : Host.Outcome State Fault Refusal :=
  s.upd Dev.replayStart

end Sys2Proof.Machine
end

