-- ==== Sys2Proof/Machine/HostRows.lean ====
section
/-! DEFINITION. The rows of the host port (14).
Each meaning is one row of the table. -/

namespace Sys2Proof.Machine

/-- A host-port frame is checked for size, FCS, VLAN, address, IP and UDP and is dispatched, or dropped and counted
(14 R384). -/
def execHostFrameReceive (port : Nat) (frame : List Byte) (s : State) : Host.Outcome State Fault Refusal :=
  let r := hostFrame runOp s.fuses s.dev port frame
  .next { s with fuses := r.1, dev := r.2 }

/-- Answers an ARP request for IPV4_ADDR (14 R386). -/
def execArpRequest (port : Nat) (frame : List Byte) (s : State) : Host.Outcome State Fault Refusal :=
  s.upd (fun d => d.arpFrame port frame)

/-- Answers an IPv6 neighbour solicitation for IPV6_ADDR (14 R386). -/
def execNeighbourSolicitation (port : Nat) (frame : List Byte) (s : State) : Host.Outcome State Fault Refusal :=
  s.upd (fun d => d.ndFrame port frame)

/-- Answers an ICMP or ICMPv6 echo request to the device's address (14 R386). -/
def execEchoRequest (port : Nat) (frame : List Byte) (s : State) : Host.Outcome State Fault Refusal :=
  s.upd (fun d => d.echoFrame port frame)

/-- Auto-negotiation, training and FEC lock complete, and the link is logged as up (14 R392). -/
def execHostLinkUp (port : Nat) (s : State) : Host.Outcome State Fault Refusal :=
  s.upd (fun d => d.hostLinkUp port)

/-- Block lock or alignment is lost, or the FEC error rate is exceeded; frames in flight are dropped, the port
retrains and the loss is logged (14 R393). -/
def execHostLinkDown (port : Nat) (s : State) : Host.Outcome State Fault Refusal :=
  s.upd (fun d => d.hostLinkDown port)

/-- A Sync, with any Follow_Up, is timestamped and the servo steers or steps the time base (14 R396). -/
def execPtpSync (m : PtpMsg) (s : State) : Host.Outcome State Fault Refusal :=
  s.upd (fun d => d.ptpSync m)

/-- A Follow_Up supplies the precise origin time of a two-step Sync (14 R395). -/
def execFollowUp (m : PtpMsg) (s : State) : Host.Outcome State Fault Refusal :=
  s.upd (fun d => d.followUp m)

/-- The PTP unit sends a Delay_Req and timestamps it (14 R395). -/
def execDelayReq (m : PtpMsg) (s : State) : Host.Outcome State Fault Refusal :=
  s.upd (fun d => d.delayReq m)

/-- A Delay_Resp completes the end-to-end delay measurement (14 R395). -/
def execDelayResp (m : PtpMsg) (s : State) : Host.Outcome State Fault Refusal :=
  s.upd (fun d => d.delayResp m)

/-- An Announce message takes part in the best-clock selection of the time transmitter (14 R395). -/
def execAnnounce (m : PtpMsg) (s : State) : Host.Outcome State Fault Refusal :=
  s.upd (fun d => d.announce m)

/-- No Sync arrives for three announced intervals, and PTP_STATE becomes HOLDOVER (14 R396). -/
def execPtpHoldover (s : State) : Host.Outcome State Fault Refusal :=
  s.upd Dev.ptpHoldover

end Sys2Proof.Machine
end

