-- ==== Sys2Proof/Machine/LatticeRows.lean ====
section
/-! DEFINITION. The rows of the lattice (13).
Each meaning is one row of the table. -/

namespace Sys2Proof.Machine

/-- A send channel takes a phase record and, from the beat after its start fence, sends its descriptor's flits in its
slots (13 R362). -/
def execPhaseRecord (p : Nat) (s : State) : Host.Outcome State Fault Refusal :=
  s.upd (fun d => d.phaseRecord p)

/-- A WRITE flit is checked and its bytes land in the window (13 R375). -/
def execFlitWrite (p : Nat) (f : Flit) (s : State) : Host.Outcome State Fault Refusal :=
  s.upd (fun d => d.recvKind 1 p f)

/-- A REDUCE_ADD flit is checked and its elements are added in scheduled order (13 R376). -/
def execFlitReduceAdd (p : Nat) (f : Flit) (s : State) : Host.Outcome State Fault Refusal :=
  s.upd (fun d => d.recvKind 2 p f)

/-- A READ_REQ flit is checked and queued for READ_DATA in the RESPONSE phases (13 R377). -/
def execFlitReadReq (p : Nat) (f : Flit) (s : State) : Host.Outcome State Fault Refusal :=
  s.upd (fun d => d.recvKind 3 p f)

/-- A READ_DATA flit is checked as a write and lands in the requester's window (13 R377). -/
def execFlitReadData (p : Nat) (f : Flit) (s : State) : Host.Outcome State Fault Refusal :=
  s.upd (fun d => d.recvKind 4 p f)

/-- A STREAM flit lands in the receive ring, or is refused with RING_FULL (13 R378). -/
def execFlitStream (p : Nat) (f : Flit) (s : State) : Host.Outcome State Fault Refusal :=
  s.upd (fun d => d.recvKind 5 p f)

/-- An IDLE flit is numbered and acknowledged, while a pause flit is discarded (13 R355). -/
def execFlitIdle (p : Nat) (f : Flit) (s : State) : Host.Outcome State Fault Refusal :=
  s.upd (fun d => d.recvIdle p f)

/-- A BEAT service message gives the parent's beat number and timing for alignment (13 R360). -/
def execBeatMessage (p : Nat) (f : Flit) (residual : Int) (s : State) : Host.Outcome State Fault Refusal :=
  s.upd (fun d => d.recvBeat p f residual)

/-- A flood not yet seen is relayed on every other port, and its effect beat is recorded (13 R370). -/
def execFlood (p : Nat) (f : Flit) (s : State) : Host.Outcome State Fault Refusal :=
  s.upd (fun d => d.recvService 0x09 p f none 0)

/-- A request to resend a flit is answered in a resend service slot (13 R356). -/
def execRetryReq (p : Nat) (f : Flit) (s : State) : Host.Outcome State Fault Refusal :=
  s.upd (fun d => d.recvService 0x03 p f none 0)

/-- A flit resent three times without acceptance, or a resend not sent within two beats, becomes a lane loss (13
R356). -/
def execResendTimeout (p seq : Nat) (s : State) : Host.Outcome State Fault Refusal :=
  s.upd (fun d => d.resendTimeout p seq)

/-- A NACK reaching the sender stops its descriptor with WINDOW and reports a schedule fault (13 R375). -/
def execNack (p : Nat) (f : Flit) (s : State) : Host.Outcome State Fault Refusal :=
  s.upd (fun d => d.recvService 0x04 p f none 0)

/-- A child's poll contribution is combined with this device's own and passed up the tree (13 R365). -/
def execPoll (p : Nat) (f : Flit) (s : State) : Host.Outcome State Fault Refusal :=
  s.upd (fun d => d.recvService 0x05 p f none 0)

/-- A fence result is taken and passed down the tree, to be applied at the release beat (13 R366). -/
def execResult (p : Nat) (f : Flit) (s : State) : Host.Outcome State Fault Refusal :=
  s.upd (fun d => d.recvService 0x06 p f none 0)

/-- A child's vote contribution is combined and passed up the tree (13 R369). -/
def execVote (p : Nat) (f : Flit) (s : State) : Host.Outcome State Fault Refusal :=
  s.upd (fun d => d.recvService 0x07 p f none 0)

/-- The domain's vote result arrives, completing the agreement that the close awaits (13 R369). -/
def execVoteResult (p : Nat) (f : Flit) (s : State) : Host.Outcome State Fault Refusal :=
  s.upd (fun d => d.recvService 0x08 p f none 0)

/-- A norm running sum is added to and passed on, or the final S is taken (13 R368). -/
def execNorm (p : Nat) (f : Flit) (s : State) : Host.Outcome State Fault Refusal :=
  s.upd (fun d => d.recvService 0x0A p f none 0)

/-- A fingerprint from FP_PREV is compared and, in round 1, passed around the set (13 R369). -/
def execFprint (p : Nat) (f : Flit) (s : State) : Host.Outcome State Fault Refusal :=
  s.upd (fun d => d.recvService 0x0B p f none 0)

/-- A calibration exchange measures a link's one-way delay (13 R359). -/
def execCal (p : Nat) (f : Flit) (delay : Nat) (s : State) : Host.Outcome State Fault Refusal :=
  s.upd (fun d => d.recvCal p f delay)

/-- A Wiltus lane loses lock; both ends stop, retrain on the remaining lanes and flood DEGRADE (13 R372). -/
def execLaneLoss (p lane : Nat) (s : State) : Host.Outcome State Fault Refusal :=
  s.upd (fun d => d.laneLoss p lane)

/-- Retraining ends and the port runs degraded, resending unacknowledged flits (13 R372). -/
def execRetrainComplete (p : Nat) (s : State) : Host.Outcome State Fault Refusal :=
  s.upd (fun d => d.retrainComplete p)

/-- A second lane loss, a retraining beyond 400 µs or loss of signal leaves the port FAILED and reports LINK_FAILED
(13 R374). -/
def execPortFailed (p : Nat) (s : State) : Host.Outcome State Fault Refusal :=
  s.upd (fun d => d.portFailed p)

/-- A beat residual above 16 ns for 16 beats reports a BEAT_SKEW fault (13 R359). -/
def execBeatSkew (p : Nat) (s : State) : Host.Outcome State Fault Refusal :=
  s.upd (fun d => d.beatSkew p)

/-- At the DEGRADE flood's effect beat, a slip request of RETRAIN_SLIP beats is taken and near agreements are voided
(13 R372). -/
def execDegradeEffect (s : State) : Host.Outcome State Fault Refusal :=
  s.upd Dev.degradeEffect

/-- At the ABORT flood's effect beat, the step is abandoned, channels stop and recoveries end (17 R475). -/
def execAbortEffect (s : State) : Host.Outcome State Fault Refusal :=
  s.upd Dev.abortFlood

/-- At the PREEMPT flood's effect beat, the quiesce fence is chosen (16 R449). -/
def execPreemptEffect (s : State) : Host.Outcome State Fault Refusal :=
  s.upd Dev.preemptFlood

/-- A Wiltus receiver finds a flit with a CRC mismatch or a gap in SEQ and sends RETRY_REQ for the missing flits in
its next service slot (13 R356). -/
def execFlitCrcMismatch (p : Nat) (missing : List Nat) (crcBad : Bool) (s : State) : Host.Outcome State Fault Refusal :=
  s.upd (fun d => d.crcMismatch p missing crcBad)

end Sys2Proof.Machine
end

