-- ==== Sys2Proof/Machine/OpRows.lean ====
section
/-! DEFINITION. Long operations that start and end, and what happens at their beats (15 R420; 16; 20).
Each meaning is one row of the table. -/

namespace Sys2Proof.Machine

/-- A used port that is not UP within 10 s of acceptance ends the domain formation FAILED with LINK (15 R434). -/
def execDomainFormTimeout (s : State) : Host.Outcome State Fault Refusal :=
  s.upd Dev.formTimeout

/-- A QUEUED long operation enters RUNNING once its class is free, in acceptance order, and performs its work (15
R420). -/
def execLongOpStart (slot : Nat) (s : State) : Host.Outcome State Fault Refusal :=
  s.updF (fun f d => d.longOpStart f slot)

/-- At the agreed join beat, the job starts, or a restored job resumes, and JOB_STATE becomes RUNNING (16 R447). -/
def execJobJoinBeat (s : State) : Host.Outcome State Fault Refusal :=
  s.upd Dev.joinBeat

/-- A region starts once its predecessors have started, its leave is granted and the concurrency limits allow it; it
saves, then tests (20 R522). -/
def execBistRegionStart (region : Nat) (s : State) : Host.Outcome State Fault Refusal :=
  s.upd (fun d => d.regionStart region)

/-- A region's restore ends; it writes its result record, returns its leave and applies the failure consequences (20
R524). -/
def execBistRegionEnd (region : Nat) (seen : List Nat) (s : State) : Host.Outcome State Fault Refusal :=
  s.updHeld (fun d => d.regionEnd region seen)

/-- The beat named by RESET_AT arrives and the warm reset begins (15 R435). -/
def execResetAtBeat (s : State) : Host.Outcome State Fault Refusal :=
  s.upd Dev.resetAtBeat

/-- Every block of the save area is acknowledged; the save record is written VALID and the job is PREEMPTED (16 R453).
-/
def execSaveComplete (s : State) : Host.Outcome State Fault Refusal :=
  s.upd Dev.saveComplete

/-- The save area is restored with tallies checked, and the device becomes ready to join for the resume beat (16
R454). -/
def execRestoreComplete (s : State) : Host.Outcome State Fault Refusal :=
  s.upd Dev.restoreComplete

/-- The clears of an unload complete, the segment table is emptied and the job state becomes NONE (16 R458). -/
def execUnloadComplete (s : State) : Host.Outcome State Fault Refusal :=
  s.upd Dev.unloadComplete

/-- The load finishes reading and writing its image; the device enters LOADED, or PREEMPTED for a parked job, and the
operation ends DONE (16 R446). -/
def execJobLoadDone (s : State) : Host.Outcome State Fault Refusal :=
  s.upd Dev.loadDone

/-- Every used port is trained and calibrated and the minima are measured; domain formation ends DONE and the lattice
registers are no longer busy (15 R434). -/
def execDomainFormDone (s : State) : Host.Outcome State Fault Refusal :=
  s.upd Dev.formDone

/-- A SCRUB or SCRUB_EX pass over its segments finishes, returns its leave and ends DONE (15 R435). -/
def execScrubDone (s : State) : Host.Outcome State Fault Refusal :=
  s.upd Dev.scrubDone

/-- The identity-key signature completes, PARTIAL reaches 28 or 128, the operation ends DONE and ATTESTS counts it (19
R515). -/
def execAttestDone (s : State) : Host.Outcome State Fault Refusal :=
  s.updF (fun f d => d.attestDone f)

/-- The image is written to the inactive slot and read back and verified, the directory copy is written, and the
operation ends DONE (19 R511). -/
def execFirmwareUpdateDone (s : State) : Host.Outcome State Fault Refusal :=
  s.updF (fun f d => d.updateDone f)

/-- A raw flash write finishes and its operation ends DONE (15 R435). -/
def execFlashWriteDone (s : State) : Host.Outcome State Fault Refusal :=
  s.upd Dev.flashDone

end Sys2Proof.Machine
end

