-- ==== Sys2Proof/Machine/PowerRows.lean ====
section
/-! DEFINITION. The rows of power, clocks, freeze and log (18, 21).
Each meaning is one row of the table. -/

namespace Sys2Proof.Machine

/-- A scan through the IEEE 1149.1 test access port, limited by the life-cycle state (21 R536). -/
def execTapScan (bits : Nat) (s : State) : Host.Outcome State Fault Refusal :=
  s.upd (fun d => d.tapScan bits)

/-- Clocks restart, the cellars leave self-refresh, the ports retrain, the beat realigns and the device joins its job
(21 R534). -/
def execThawTakeEffect (s : State) : Host.Outcome State Fault Refusal :=
  s.upd Dev.thaw

/-- At the freeze beat, FREEZE is broadcast and every clock but the exceptions stops at the freeze cycle (21 R531). -/
def execFreezeEffect (s : State) : Host.Outcome State Fault Refusal :=
  s.upd Dev.freezeEffect

/-- FREEZE_N held low for two always-on cycles freezes locally or floods, by PIN_ACTION (21 R529). -/
def execFreezePin (s : State) : Host.Outcome State Fault Refusal :=
  s.upd Dev.freezePin

/-- Every 10 µs the steward measures the rails and sets or clears OVER (18 R491). -/
def execRailMeasure (rails : List (Nat × Nat)) (s : State) : Host.Outcome State Fault Refusal :=
  s.upd (fun d => d.railMeasure rails)

/-- Every 100 µs the sensors are read and THERM_WARN is set or cleared (18 R498). -/
def execTempSensorRead (temps : List Int) (s : State) : Host.Outcome State Fault Refusal :=
  s.upd (fun d => d.tempRead temps)

/-- A comparator trips; clocks stop, transmitters idle and THERMTRIP_N latches low (18 R499). -/
def execThermalTrip (sensor : Nat) (reading : Int) (s : State) : Host.Outcome State Fault Refusal :=
  s.upd (fun d => d.thermalTrip sensor reading)

/-- Work reaching a gated domain opens its clock within 40 ns (18 R493). -/
def execClockGateOpen (domain : Nat) (s : State) : Host.Outcome State Fault Refusal :=
  s.upd (fun d => d.gateOpen domain)

/-- After GATE_IDLE cycles with no work, a domain gates its clock (18 R493). -/
def execClockGateIdle (domain : Nat) (s : State) : Host.Outcome State Fault Refusal :=
  s.upd (fun d => d.gateIdle domain)

/-- A stopped PLL relocks, and the domains it feeds may open (18 R494). -/
def execPllLocked (pll : Nat) (s : State) : Host.Outcome State Fault Refusal :=
  s.upd (fun d => d.pllLocked pll)

/-- After its 256-cycle hold, an event entry is written to the log ring in stamp order (21 R539). -/
def execLogEntryWrite (s : State) : Host.Outcome State Fault Refusal :=
  s.upd Dev.logWrite

/-- FREEZE_N returns high for two always-on cycles, which re-arms the pin trigger (21 R529). -/
def execFreezeNHigh (s : State) : Host.Outcome State Fault Refusal :=
  s.upd Dev.freezeHigh

end Sys2Proof.Machine
end

