-- ==== Sys2Proof/Machine/SmiperRows.lean ====
section
/-! DEFINITION. The rows that a host sends (15 R424 to R435).
Each meaning is one row of the table. -/

namespace Sys2Proof.Machine

/-- Returns the serial number, firmware version, life-cycle state, power state, mode, census digest and domain
placement (15 R424). -/
def execIdentify (h : Hdr) (w : List W64) (s : State) : Host.Outcome State Fault Refusal :=
  s.cmd cmdIdentify h w

/-- Returns the part of identity that PART selects: the firmware digest, the presented widths, or bypass maps (15
R424). -/
def execIdentifyPart (h : Hdr) (w : List W64) (s : State) : Host.Outcome State Fault Refusal :=
  s.cmd cmdIdentifyPart h w

/-- Makes its SESSION current unless another session executed a command in the last 10 s, and resets LAST_SEQ and the
reply cache (15 R409). -/
def execSessionOpen (h : Hdr) (w : List W64) (s : State) : Host.Outcome State Fault Refusal :=
  s.cmd cmdSessionOpen h w

/-- Makes its SESSION current at once, and resets LAST_SEQ and the reply cache (15 R409). -/
def execSessionTake (h : Hdr) (w : List W64) (s : State) : Host.Outcome State Fault Refusal :=
  s.cmd cmdSessionTake h w

/-- A datagram whose opcode no table lists is refused with UNKNOWN_OPCODE (15 R401). -/
def execUnknownOpcode (h : Hdr) (opcode : Nat) (_ : List W64) (s : State) : Host.Outcome State Fault Refusal :=
  s.upd (fun d => if (cmdOf opcode).isSome then d else unknownOp opcode h d)

/-- Accepts a long operation that writes LAT_DOMAIN, then trains, checks and calibrates the used ports and measures
the agreement minima (15 R434). -/
def execDomainForm (h : Hdr) (w : List W64) (s : State) : Host.Outcome State Fault Refusal :=
  s.cmd cmdDomainForm h w

/-- As DOMAIN_FORM, but keeps the caller's AGREE_BEATS, FLOOD_BEATS and RETRAIN_SLIP, and fails if they fall short (15
R434). -/
def execDomainFormEx (h : Hdr) (w : List W64) (s : State) : Host.Outcome State Fault Refusal :=
  s.cmd cmdDomainFormEx h w

/-- Returns one register of device control space (15 R425). -/
def execRegRead (h : Hdr) (w : List W64) (s : State) : Host.Outcome State Fault Refusal :=
  s.cmd cmdRegRead h w

/-- Returns COUNT consecutive register words from ADDR upward (15 R424). -/
def execRegReadBlock (h : Hdr) (w : List W64) (s : State) : Host.Outcome State Fault Refusal :=
  s.cmd cmdRegReadBlock h w

/-- Writes the masked bits of a register that has no row of its own, subject to access codes, update classes and BUSY
(15 R425). -/
def execRegWrite (h : Hdr) (w : List W64) (s : State) : Host.Outcome State Fault Refusal :=
  s.cmd cmdRegWrite h w

/-- Applies up to 64 masked register writes in listed order, all or none (15 R424). -/
def execRegWriteMulti (h : Hdr) (w : List W64) (s : State) : Host.Outcome State Fault Refusal :=
  s.cmd cmdRegWriteMulti h w

/-- A write of 1 to PENDING in JOB_XLATE clears it and opens recording for the next translation stop (16 R459). -/
def execJobXlateClear (h : Hdr) (w : List W64) (s : State) : Host.Outcome State Fault Refusal :=
  s.cmd cmdRegWrite h w

/-- Writes of 1 clear the W1C bits of FAULT_STATUS, and ALERT_N is released when none remains (17 R484). -/
def execFaultStatusClear (h : Hdr) (w : List W64) (s : State) : Host.Outcome State Fault Refusal :=
  s.cmd cmdRegWrite h w

/-- A write to a match field of FRZ_CTRL takes effect at the next always-on cycle and sets MATCHES to 0 (21 R543). -/
def execFrzMatchWrite (h : Hdr) (w : List W64) (s : State) : Host.Outcome State Fault Refusal :=
  s.cmd cmdRegWrite h w

/-- A write of MODE or MAX_FRAME starts a new link bring-up after its reply, and takes effect at that bring-up (14
R398). -/
def execHpCtrlLinkWrite (h : Hdr) (w : List W64) (s : State) : Host.Outcome State Fault Refusal :=
  s.cmd cmdRegWrite h w

/-- A write of a class S host-port field takes effect at the end of the reply frame to the command that wrote it (14
R398). -/
def execHostAddressWrite (h : Hdr) (w : List W64) (s : State) : Host.Outcome State Fault Refusal :=
  s.cmd cmdRegWrite h w

/-- Returns one status word (15 R416). -/
def execStatusRead (h : Hdr) (w : List W64) (s : State) : Host.Outcome State Fault Refusal :=
  s.cmd cmdStatusRead h w

/-- Returns COUNT status words from FIRST, wrapping after slot 255 (15 R418). -/
def execStatusPageRead (h : Hdr) (w : List W64) (s : State) : Host.Outcome State Fault Refusal :=
  s.cmd cmdStatusPageRead h w

/-- Returns result records of a slot; records at or above PARTIAL read as zeros (15 R419). -/
def execResultRead (h : Hdr) (w : List W64) (s : State) : Host.Outcome State Fault Refusal :=
  s.cmd cmdResultRead h w

/-- Returns raw words of a slot's result area (15 R424). -/
def execResultReadRaw (h : Hdr) (w : List W64) (s : State) : Host.Outcome State Fault Refusal :=
  s.cmd cmdResultReadRaw h w

/-- Ends a QUEUED operation ABORTED, or stops a RUNNING one as its operation class permits (15 R421). -/
def execOpAbort (h : Hdr) (w : List W64) (s : State) : Host.Outcome State Fault Refusal :=
  s.cmd cmdOpAbort h w

/-- Applies OP_ABORT to every operation of one class, newest first (15 R424). -/
def execOpAbortClass (h : Hdr) (w : List W64) (s : State) : Host.Outcome State Fault Refusal :=
  s.cmd cmdOpAbortClass h w

/-- Reads bytes from a physical or job address through the hardware state machine (15 R427). -/
def execMemRead (h : Hdr) (w : List W64) (s : State) : Host.Outcome State Fault Refusal :=
  s.cmd cmdMemRead h w

/-- Reads strided lines from a physical or job address and returns them packed (15 R427). -/
def execMemReadEx (h : Hdr) (w : List W64) (s : State) : Host.Outcome State Fault Refusal :=
  s.cmd cmdMemReadEx h w

/-- Writes bytes to a physical or job address, and replies OK once every byte is acknowledged (15 R427). -/
def execMemWrite (h : Hdr) (w : List W64) (s : State) : Host.Outcome State Fault Refusal :=
  s.cmd cmdMemWrite h w

/-- Writes strided lines, checks any host tallies first, and advances the producer position at POS_ADDR (15 R427). -/
def execMemWriteEx (h : Hdr) (w : List W64) (s : State) : Host.Outcome State Fault Refusal :=
  s.cmd cmdMemWriteEx h w

/-- Runs a one-line TWO_D copy as a long operation on a hub MANAGEMENT channel (15 R428). -/
def execCopy (h : Hdr) (w : List W64) (s : State) : Host.Outcome State Fault Refusal :=
  s.cmd cmdCopy h w

/-- Runs a raw descriptor as a long operation on a hub MANAGEMENT channel (15 R428). -/
def execDescSubmit (h : Hdr) (w : List W64) (s : State) : Host.Outcome State Fault Refusal :=
  s.cmd cmdDescSubmit h w

/-- Opens a window to every device of the domain with the given operations and size, or closes it (15 R426). -/
def execWindowOpen (h : Hdr) (w : List W64) (s : State) : Host.Outcome State Fault Refusal :=
  s.cmd cmdWindowOpen h w

/-- Writes a window record, which takes effect at the start of the next beat (13 R379). -/
def execWindowWrite (h : Hdr) (w : List W64) (s : State) : Host.Outcome State Fault Refusal :=
  s.cmd cmdWindowWrite h w

/-- Checks a schedule image in full and, if it passes, installs the segment table, items, lists and seed (16 R445). -/
def execJobLoad (h : Hdr) (w : List W64) (s : State) : Host.Outcome State Fault Refusal :=
  s.cmd (cmdLoad 0x301 4) h w

/-- As JOB_LOAD, with a segment table supplied by the host (15 R429). -/
def execJobLoadEx (h : Hdr) (w : List W64) (s : State) : Host.Outcome State Fault Refusal :=
  s.cmd (cmdLoad 0x381 5) h w

/-- Marks the device ready to join the job's start at the first agreed join beat (15 R430). -/
def execJobRun (h : Hdr) (w : List W64) (s : State) : Host.Outcome State Fault Refusal :=
  s.cmd (cmdRun 0x302 0) h w

/-- As JOB_RUN, with a named domain start beat (16 R447). -/
def execJobRunEx (h : Hdr) (w : List W64) (s : State) : Host.Outcome State Fault Refusal :=
  s.cmd (cmdRun 0x382 1) h w

/-- Floods PREEMPT so that the domain stops at the next quiesce point and saves the job (16 R449). -/
def execPreempt (h : Hdr) (w : List W64) (s : State) : Host.Outcome State Fault Refusal :=
  s.cmd (cmdPreempting 0x303 0) h w

/-- Floods PREEMPT naming a quiesce fence (16 R449). -/
def execPreemptAt (h : Hdr) (w : List W64) (s : State) : Host.Outcome State Fault Refusal :=
  s.cmd (cmdPreempting 0x383 1) h w

/-- Restores the save area with tally checks, then joins the domain for the resume beat (16 R454). -/
def execResume (h : Hdr) (w : List W64) (s : State) : Host.Outcome State Fault Refusal :=
  s.cmd (cmdResuming 0x304 0) h w

/-- As RESUME, at a named domain beat (16 R454). -/
def execResumeAt (h : Hdr) (w : List W64) (s : State) : Host.Outcome State Fault Refusal :=
  s.cmd (cmdResuming 0x384 1) h w

/-- Discards queued work, closes the windows, clears the scratchpads and mapped segments, and empties the segment
table (16 R458). -/
def execJobUnload (h : Hdr) (w : List W64) (s : State) : Host.Outcome State Fault Refusal :=
  s.cmd (cmdUnload 0x305 0) h w

/-- As JOB_UNLOAD, but leaves named physical segments uncleared, which can park a job (16 R457). -/
def execJobUnloadEx (h : Hdr) (w : List W64) (s : State) : Host.Outcome State Fault Refusal :=
  s.cmd (cmdUnload 0x385 9) h w

/-- Maps one job segment unpaired or unmaps it, then retries every translation-stopped channel and reader (16 R438). -/
def execSegmentMap (h : Hdr) (w : List W64) (s : State) : Host.Outcome State Fault Refusal :=
  s.cmd cmdSegmentMap h w

/-- Writes up to 64 raw segment-table entries, all or none, then retries translation stops (16 R439). -/
def execSegmentWrite (h : Hdr) (w : List W64) (s : State) : Host.Outcome State Fault Refusal :=
  s.cmd cmdSegmentWrite h w

/-- Stops every descriptor with HALT, ends the job and ends JOB_RUN ABORTED (15 R429). -/
def execHalt (h : Hdr) (w : List W64) (s : State) : Host.Outcome State Fault Refusal :=
  s.cmd cmdHalt h w

/-- Stops one channel's descriptor with HALT (15 R429). -/
def execHaltChannel (h : Hdr) (w : List W64) (s : State) : Host.Outcome State Fault Refusal :=
  s.cmd cmdHaltChannel h w

/-- Writes step-descriptor slot T mod 2 with VALID = 1 and watches the step through its closes (15 R432). -/
def execStep (h : Hdr) (w : List W64) (s : State) : Host.Outcome State Fault Refusal :=
  s.cmd cmdStep h w

/-- As STEP, with the full step descriptor of R333 (15 R432). -/
def execStepEx (h : Hdr) (w : List W64) (s : State) : Host.Outcome State Fault Refusal :=
  s.cmd cmdStepEx h w

/-- Writes a group record from a preset, DECAY, CLIP and SKIP_IF_IDLE (15 R433). -/
def execGroupPreset (h : Hdr) (w : List W64) (s : State) : Host.Outcome State Fault Refusal :=
  s.cmd cmdGroupPreset h w

/-- Writes a whole group record of the group table (12 R331). -/
def execGroupWrite (h : Hdr) (w : List W64) (s : State) : Host.Outcome State Fault Refusal :=
  s.cmd cmdGroupWrite h w

/-- Returns STEP_STATE, COMMIT_STATUS, FINGERPRINT and NORM (15 R431). -/
def execCommitRead (h : Hdr) (w : List W64) (s : State) : Host.Outcome State Fault Refusal :=
  s.cmd cmdCommitRead h w

/-- As COMMIT_READ, plus each floor's update counters (15 R431). -/
def execCommitReadEx (h : Hdr) (w : List W64) (s : State) : Host.Outcome State Fault Refusal :=
  s.cmd cmdCommitReadEx h w

/-- Returns the summed arithmetic, ECC, sync and lattice counters (15 R435). -/
def execCountersRead (h : Hdr) (w : List W64) (s : State) : Host.Outcome State Fault Refusal :=
  s.cmd cmdCountersRead h w

/-- Returns one unit's counters (15 R435). -/
def execCountersReadEx (h : Hdr) (w : List W64) (s : State) : Host.Outcome State Fault Refusal :=
  s.cmd cmdCountersReadEx h w

/-- Runs a patrol pass of all cellars at full rate under leave (15 R435). -/
def execScrub (h : Hdr) (w : List W64) (s : State) : Host.Outcome State Fault Refusal :=
  s.cmd cmdScrub h w

/-- Patrols or clears named physical segments (15 R435). -/
def execScrubEx (h : Hdr) (w : List W64) (s : State) : Host.Outcome State Fault Refusal :=
  s.cmd cmdScrubEx h w

/-- Runs the field or full test set that the life-cycle state selects (20 R521). -/
def execBist (h : Hdr) (w : List W64) (s : State) : Host.Outcome State Fault Refusal :=
  s.cmd cmdBist h w

/-- Runs listed regions with listed pattern masks, or the full set when N = 0 (20 R521). -/
def execBistEx (h : Hdr) (w : List W64) (s : State) : Host.Outcome State Fault Refusal :=
  s.cmd cmdBistEx h w

/-- Enters ACTIVE, REST or VAULT after its reply, if the job state and operations permit (18 R496). -/
def execPowerState (h : Hdr) (w : List W64) (s : State) : Host.Outcome State Fault Refusal :=
  s.cmd cmdPowerState h w

/-- Puts named bench dies and floors into REST (18 R497). -/
def execPowerStateEx (h : Hdr) (w : List W64) (s : State) : Host.Outcome State Fault Refusal :=
  s.cmd cmdPowerStateEx h w

/-- Returns the hottest die temperature and package power (15 R435). -/
def execPowerRead (h : Hdr) (w : List W64) (s : State) : Host.Outcome State Fault Refusal :=
  s.cmd cmdPowerRead h w

/-- Returns the power registers from PWR_STATUS to LEAVE_COUNT (18 R500). -/
def execPowerReadEx (h : Hdr) (w : List W64) (s : State) : Host.Outcome State Fault Refusal :=
  s.cmd cmdPowerReadEx h w

/-- Performs a warm reset after its reply (22 R554). -/
def execReset (h : Hdr) (w : List W64) (s : State) : Host.Outcome State Fault Refusal :=
  s.cmd cmdReset h w

/-- Schedules a warm reset at a domain beat (15 R435). -/
def execResetAt (h : Hdr) (w : List W64) (s : State) : Host.Outcome State Fault Refusal :=
  s.cmd cmdResetAt h w

/-- Takes every measurement and writes a signed attestation report into result records (19 R515). -/
def execAttest (h : Hdr) (w : List W64) (s : State) : Host.Outcome State Fault Refusal :=
  s.cmd (cmdAttesting 0x701 4) h w

/-- As ATTEST, with a measurement mask and optionally the certificate chain (19 R515). -/
def execAttestEx (h : Hdr) (w : List W64) (s : State) : Host.Outcome State Fault Refusal :=
  s.cmd (cmdAttesting 0x781 5) h w

/-- Makes a one-way life-cycle step by blowing fuses, with its checks (19 R503). -/
def execLifecycleAdvance (h : Hdr) (w : List W64) (s : State) : Host.Outcome State Fault Refusal :=
  s.cmd cmdLifecycleAdvance h w

/-- Moves between DEPLOYED and SERVICE on a valid signed authorisation, and renews LC_CHALLENGE (19 R513). -/
def execLifecycleAuth (h : Hdr) (w : List W64) (s : State) : Host.Outcome State Fault Refusal :=
  s.cmd cmdLifecycleAuth h w

/-- Verifies an image, writes it to the inactive slot, verifies the slot again and then writes the directory (19
R511). -/
def execFirmwareUpdate (h : Hdr) (w : List W64) (s : State) : Host.Outcome State Fault Refusal :=
  s.cmd cmdFirmwareUpdate h w

/-- Writes raw bytes to the flash in the states that permit it (15 R435). -/
def execFlashWrite (h : Hdr) (w : List W64) (s : State) : Host.Outcome State Fault Refusal :=
  s.cmd cmdFlashWrite h w

/-- Floods FREEZE with the current beat as its target (21 R529). -/
def execFreeze (h : Hdr) (w : List W64) (s : State) : Host.Outcome State Fault Refusal :=
  s.cmd cmdFreeze h w

/-- Floods FREEZE with a target beat, or freezes this device alone at that beat (21 R529). -/
def execFreezeAt (h : Hdr) (w : List W64) (s : State) : Host.Outcome State Fault Refusal :=
  s.cmd cmdFreezeAt h w

/-- Reads frozen state from the element space through the IEEE 1687 network (21 R537). -/
def execStateRead (h : Hdr) (w : List W64) (s : State) : Host.Outcome State Fault Refusal :=
  s.cmd cmdStateRead h w

/-- Drives a raw IEEE 1687 access from the read-out controller (21 R537). -/
def execIjtagAccess (h : Hdr) (w : List W64) (s : State) : Host.Outcome State Fault Refusal :=
  s.cmd cmdIjtagAccess h w

/-- Returns the newest COUNT log entries, oldest first (21 R542). -/
def execLogRead (h : Hdr) (w : List W64) (s : State) : Host.Outcome State Fault Refusal :=
  s.cmd cmdLogRead h w

/-- Returns COUNT log entries in ring order from index FIRST (21 R542). -/
def execLogReadEx (h : Hdr) (w : List W64) (s : State) : Host.Outcome State Fault Refusal :=
  s.cmd cmdLogReadEx h w

/-- Thaws this device at the start of the next beat (21 R534). -/
def execThaw (h : Hdr) (w : List W64) (s : State) : Host.Outcome State Fault Refusal :=
  s.cmd cmdThaw h w

/-- Thaws this device at a named beat of the always-on count (21 R534). -/
def execThawAt (h : Hdr) (w : List W64) (s : State) : Host.Outcome State Fault Refusal :=
  s.cmd cmdThawAt h w

end Sys2Proof.Machine
end

