-- ==== Sys2Proof/Machine/Clock.lean ====
section
/-! DEFINITION. The start of a beat: time, frames, staged windows, leave, lists that end (08 R256, 12 R335, 14 R394,
18 R487, 21 R532). -/

namespace Sys2Proof.Machine

/-- One beat of time: 25 always-on cycles, each of the steered increment (14 R394). -/
def Dev.tickTime (d : Dev) : Dev :=
  let x := d.time.frac + 25 * d.time.inc
  { d.set Reg.HP_TIME_TIME_NS ((d.get Reg.HP_TIME_TIME_NS + x / 2 ^ 32) % 2 ^ 64) with time := { d.time with frac := x % 2 ^ 32 } }

/-- Lists that have ended: after the prologue the steps are polled for, or the lists start; without steps the image ends
with its lists (12 R335). -/
def Dev.listsTurn (d : Dev) : Dev :=
  if !(d.js = jsRunning && !d.paused && d.listsDone) then d
  else if d.job.inPrologue then
    let d : Dev := { d with job := { d.job with inPrologue := false } }
    if d.startFence ≠ 0 then { d with step := { d.step with startPoll := some d.beat } } else d.startLists d.job.lists
  else if d.startFence = 0 then d.imageEnd else d

/-- BEAT: the always-on count goes on in every state but Off; the rest while its clocks run. An announced slip beat counts
toward no timeout (07 R225). -/
def Dev.beatStart (d : Dev) : Dev :=
  if d.boot.phase = .off then d
  else
    let live := !d.frozen && decide (d.power ≤ 2)
    let d := if live then d.sendFrames else d
    let d := ({ d with aonBeat := d.aonBeat + 1, ageBeats := d.ageBeats + 1 }).tickTime
    if !live then d
    else
      let d : Dev := { d.set Reg.SYNC_BEAT_BEAT ((d.beat + 1) % 2 ^ 64) with liveBeats := d.liveBeats + 1 }
      let d : Dev := if 0 < d.slipLeft then { d with slipLeft := d.slipLeft - 1 } else { d with countedBeats := d.countedBeats + 1 }
      d.drainAdds.takeWindows.returnLeave.listsTurn.voteProgress.preemptRetry

end Sys2Proof.Machine
end

