-- ==== Sys2Proof/Machine/SyncRows.lean ====
section
/-! DEFINITION. The rows of the beat, the fences and leave (08, 13, 18).
Each meaning is one row of the table. -/

namespace Sys2Proof.Machine

/-- At each beat start, the root broadcasts BEAT and due domain actions, and benches return excess leave (08 R256). -/
def execBeat (s : State) : Host.Outcome State Fault Refusal :=
  s.updHeld Dev.beatStart

/-- A leaf's ARRIVE for a fence is accepted at the root (08 R257). -/
def execSyncArrive (rank fence : Nat) (s : State) : Host.Outcome State Fault Refusal :=
  s.upd (fun d => d.syncArrive rank fence)

/-- At a local fence's release beat, it is released if every participant arrived; otherwise it becomes a one-beat slip
request (08 R257). -/
def execFenceRelease (fence : Nat) (s : State) : Host.Outcome State Fault Refusal :=
  s.upd (fun d => d.fenceRelease fence)

/-- A fence unreleased FENCE_LATE_LIMIT beats after its release beat reports a SYNC_TIMEOUT fault (08 R257). -/
def execSyncTimeout (fence : Nat) (s : State) : Host.Outcome State Fault Refusal :=
  s.upd (fun d => d.syncTimeout fence)

/-- An overrun notice reaches the root, which keeps the largest request for its fence (08 R258). -/
def execSlipReq (rank beats record : Nat) (s : State) : Host.Outcome State Fault Refusal :=
  s.upd (fun d => d.slipReq rank beats record)

/-- An agreed slip is broadcast, and every leaf moves that fence and all later fences (08 R258). -/
def execSlip (fence beats : Nat) (s : State) : Host.Outcome State Fault Refusal :=
  s.upd (fun d => d.slipOut fence beats)

/-- At a domain fence's poll beat, the device sends POLL with its readiness, slip and flags (13 R365). -/
def execDomainFencePoll (fence : Nat) (s : State) : Host.Outcome State Fault Refusal :=
  s.upd (fun d => d.fencePoll fence)

/-- At the release beat, the agreed result releases the fence or slips it by at least AGREE_BEATS (13 R366). -/
def execDomainFenceResult (fence : Nat) (s : State) : Host.Outcome State Fault Refusal :=
  s.upd (fun d => d.fenceResult fence)

/-- A leaf stopped at the quiesce point with no bulk traffic outstanding reports QUIESCED, and the last one starts the
save (08 R259). -/
def execQuiesced (rank : Nat) (s : State) : Host.Outcome State Fault Refusal :=
  s.upd (fun d => d.leafQuiesced rank)

/-- A leave request reaches the steward and is granted, or refused and queued (18 R488). -/
def execLeaveRequest (b : Nat) (s : State) : Host.Outcome State Fault Refusal :=
  s.upd (fun d => d.leaveRequest b)

/-- A queued request is granted once the units are free, and the waiting record starts (18 R488). -/
def execLeaveGrant (s : State) : Host.Outcome State Fault Refusal :=
  s.upd Dev.leaveGrant

end Sys2Proof.Machine
end

