-- ==== Sys2Proof/Machine/Dispatch.lean ====
section
/-! DEFINITION. One arm for each row of the table. -/

namespace Sys2Proof.Machine

def exec (i : Instr) (s : State) : Host.Outcome State Fault Refusal :=
  match i with
  | .identify h w => Sys2Proof.Machine.execIdentify h w s
  | .identifyPart h w => Sys2Proof.Machine.execIdentifyPart h w s
  | .sessionOpen h w => Sys2Proof.Machine.execSessionOpen h w s
  | .sessionTake h w => Sys2Proof.Machine.execSessionTake h w s
  | .unknownOpcode h opcode w => Sys2Proof.Machine.execUnknownOpcode h opcode w s
  | .domainForm h w => Sys2Proof.Machine.execDomainForm h w s
  | .domainFormEx h w => Sys2Proof.Machine.execDomainFormEx h w s
  | .domainFormTimeout => Sys2Proof.Machine.execDomainFormTimeout s
  | .regRead h w => Sys2Proof.Machine.execRegRead h w s
  | .regReadBlock h w => Sys2Proof.Machine.execRegReadBlock h w s
  | .regWrite h w => Sys2Proof.Machine.execRegWrite h w s
  | .regWriteMulti h w => Sys2Proof.Machine.execRegWriteMulti h w s
  | .jobXlateClear h w => Sys2Proof.Machine.execJobXlateClear h w s
  | .faultStatusClear h w => Sys2Proof.Machine.execFaultStatusClear h w s
  | .frzMatchWrite h w => Sys2Proof.Machine.execFrzMatchWrite h w s
  | .hpCtrlLinkWrite h w => Sys2Proof.Machine.execHpCtrlLinkWrite h w s
  | .hostAddressWrite h w => Sys2Proof.Machine.execHostAddressWrite h w s
  | .statusRead h w => Sys2Proof.Machine.execStatusRead h w s
  | .statusPageRead h w => Sys2Proof.Machine.execStatusPageRead h w s
  | .resultRead h w => Sys2Proof.Machine.execResultRead h w s
  | .resultReadRaw h w => Sys2Proof.Machine.execResultReadRaw h w s
  | .opAbort h w => Sys2Proof.Machine.execOpAbort h w s
  | .opAbortClass h w => Sys2Proof.Machine.execOpAbortClass h w s
  | .longOpStart slot => Sys2Proof.Machine.execLongOpStart slot s
  | .memRead h w => Sys2Proof.Machine.execMemRead h w s
  | .memReadEx h w => Sys2Proof.Machine.execMemReadEx h w s
  | .memWrite h w => Sys2Proof.Machine.execMemWrite h w s
  | .memWriteEx h w => Sys2Proof.Machine.execMemWriteEx h w s
  | .copy h w => Sys2Proof.Machine.execCopy h w s
  | .descSubmit h w => Sys2Proof.Machine.execDescSubmit h w s
  | .windowOpen h w => Sys2Proof.Machine.execWindowOpen h w s
  | .windowWrite h w => Sys2Proof.Machine.execWindowWrite h w s
  | .jobLoad h w => Sys2Proof.Machine.execJobLoad h w s
  | .jobLoadEx h w => Sys2Proof.Machine.execJobLoadEx h w s
  | .jobRun h w => Sys2Proof.Machine.execJobRun h w s
  | .jobRunEx h w => Sys2Proof.Machine.execJobRunEx h w s
  | .jobJoinBeat => Sys2Proof.Machine.execJobJoinBeat s
  | .preempt h w => Sys2Proof.Machine.execPreempt h w s
  | .preemptAt h w => Sys2Proof.Machine.execPreemptAt h w s
  | .resume h w => Sys2Proof.Machine.execResume h w s
  | .resumeAt h w => Sys2Proof.Machine.execResumeAt h w s
  | .jobUnload h w => Sys2Proof.Machine.execJobUnload h w s
  | .jobUnloadEx h w => Sys2Proof.Machine.execJobUnloadEx h w s
  | .segmentMap h w => Sys2Proof.Machine.execSegmentMap h w s
  | .segmentWrite h w => Sys2Proof.Machine.execSegmentWrite h w s
  | .halt h w => Sys2Proof.Machine.execHalt h w s
  | .haltChannel h w => Sys2Proof.Machine.execHaltChannel h w s
  | .step h w => Sys2Proof.Machine.execStep h w s
  | .stepEx h w => Sys2Proof.Machine.execStepEx h w s
  | .groupPreset h w => Sys2Proof.Machine.execGroupPreset h w s
  | .groupWrite h w => Sys2Proof.Machine.execGroupWrite h w s
  | .commitRead h w => Sys2Proof.Machine.execCommitRead h w s
  | .commitReadEx h w => Sys2Proof.Machine.execCommitReadEx h w s
  | .countersRead h w => Sys2Proof.Machine.execCountersRead h w s
  | .countersReadEx h w => Sys2Proof.Machine.execCountersReadEx h w s
  | .scrub h w => Sys2Proof.Machine.execScrub h w s
  | .scrubEx h w => Sys2Proof.Machine.execScrubEx h w s
  | .bist h w => Sys2Proof.Machine.execBist h w s
  | .bistEx h w => Sys2Proof.Machine.execBistEx h w s
  | .bistRegionStart region => Sys2Proof.Machine.execBistRegionStart region s
  | .bistRegionEnd region seen => Sys2Proof.Machine.execBistRegionEnd region seen s
  | .powerState h w => Sys2Proof.Machine.execPowerState h w s
  | .powerStateEx h w => Sys2Proof.Machine.execPowerStateEx h w s
  | .powerRead h w => Sys2Proof.Machine.execPowerRead h w s
  | .powerReadEx h w => Sys2Proof.Machine.execPowerReadEx h w s
  | .reset h w => Sys2Proof.Machine.execReset h w s
  | .resetAt h w => Sys2Proof.Machine.execResetAt h w s
  | .resetAtBeat => Sys2Proof.Machine.execResetAtBeat s
  | .attest h w => Sys2Proof.Machine.execAttest h w s
  | .attestEx h w => Sys2Proof.Machine.execAttestEx h w s
  | .lifecycleAdvance h w => Sys2Proof.Machine.execLifecycleAdvance h w s
  | .lifecycleAuth h w => Sys2Proof.Machine.execLifecycleAuth h w s
  | .firmwareUpdate h w => Sys2Proof.Machine.execFirmwareUpdate h w s
  | .flashWrite h w => Sys2Proof.Machine.execFlashWrite h w s
  | .freeze h w => Sys2Proof.Machine.execFreeze h w s
  | .freezeAt h w => Sys2Proof.Machine.execFreezeAt h w s
  | .stateRead h w => Sys2Proof.Machine.execStateRead h w s
  | .ijtagAccess h w => Sys2Proof.Machine.execIjtagAccess h w s
  | .tapScan bits => Sys2Proof.Machine.execTapScan bits s
  | .logRead h w => Sys2Proof.Machine.execLogRead h w s
  | .logReadEx h w => Sys2Proof.Machine.execLogReadEx h w s
  | .thaw h w => Sys2Proof.Machine.execThaw h w s
  | .thawAt h w => Sys2Proof.Machine.execThawAt h w s
  | .thawTakeEffect => Sys2Proof.Machine.execThawTakeEffect s
  | .smbStatus => Sys2Proof.Machine.execSmbStatus s
  | .smbTemp => Sys2Proof.Machine.execSmbTemp s
  | .smbPower => Sys2Proof.Machine.execSmbPower s
  | .smbIdent => Sys2Proof.Machine.execSmbIdent s
  | .smbWake => Sys2Proof.Machine.execSmbWake s
  | .smbReset => Sys2Proof.Machine.execSmbReset s
  | .smbAlertResponse => Sys2Proof.Machine.execSmbAlertResponse s
  | .recoveryErase slot => Sys2Proof.Machine.execRecoveryErase slot s
  | .recoveryWrite off data => Sys2Proof.Machine.execRecoveryWrite off data s
  | .recoveryActivate slot => Sys2Proof.Machine.execRecoveryActivate slot s
  | .aonPowerOn straps => Sys2Proof.Machine.execAonPowerOn straps s
  | .resetRelease => Sys2Proof.Machine.execResetRelease s
  | .cellarTrainTimeout k => Sys2Proof.Machine.execCellarTrainTimeout k s
  | .bootRom => Sys2Proof.Machine.execBootRom s
  | .warmReset => Sys2Proof.Machine.execWarmReset s
  | .pwrgoodFall => Sys2Proof.Machine.execPwrgoodFall s
  | .powerOff => Sys2Proof.Machine.execPowerOff s
  | .hostFrameReceive port frame => Sys2Proof.Machine.execHostFrameReceive port frame s
  | .arpRequest port frame => Sys2Proof.Machine.execArpRequest port frame s
  | .neighbourSolicitation port frame => Sys2Proof.Machine.execNeighbourSolicitation port frame s
  | .echoRequest port frame => Sys2Proof.Machine.execEchoRequest port frame s
  | .hostLinkUp port => Sys2Proof.Machine.execHostLinkUp port s
  | .hostLinkDown port => Sys2Proof.Machine.execHostLinkDown port s
  | .ptpSync m => Sys2Proof.Machine.execPtpSync m s
  | .followUp m => Sys2Proof.Machine.execFollowUp m s
  | .delayReq m => Sys2Proof.Machine.execDelayReq m s
  | .delayResp m => Sys2Proof.Machine.execDelayResp m s
  | .announce m => Sys2Proof.Machine.execAnnounce m s
  | .ptpHoldover => Sys2Proof.Machine.execPtpHoldover s
  | .recordFetch b => Sys2Proof.Machine.execRecordFetch b s
  | .laneRowRecord b => Sys2Proof.Machine.execLaneRowRecord b s
  | .batchRowArrive b => Sys2Proof.Machine.execBatchRowArrive b s
  | .batchTimeout b => Sys2Proof.Machine.execBatchTimeout b s
  | .laneResidueMismatch b lane agrees => Sys2Proof.Machine.execLaneResidueMismatch b lane agrees s
  | .compact b => Sys2Proof.Machine.execCompact b s
  | .compress b => Sys2Proof.Machine.execCompress b s
  | .expand b => Sys2Proof.Machine.execExpand b s
  | .gather b => Sys2Proof.Machine.execGather b s
  | .scatterAdd b => Sys2Proof.Machine.execScatterAdd b s
  | .sort b => Sys2Proof.Machine.execSort b s
  | .wsum b => Sys2Proof.Machine.execWsum b s
  | .raggedLoop b => Sys2Proof.Machine.execRaggedLoop b s
  | .routeDispatch b => Sys2Proof.Machine.execRouteDispatch b s
  | .routeCollect b => Sys2Proof.Machine.execRouteCollect b s
  | .transpose b => Sys2Proof.Machine.execTranspose b s
  | .transposeInPlace b => Sys2Proof.Machine.execTransposeInPlace b s
  | .select loc => Sys2Proof.Machine.execSelect loc s
  | .vectorRecord b => Sys2Proof.Machine.execVectorRecord b s
  | .outputReform u recovered => Sys2Proof.Machine.execOutputReform u recovered s
  | .dmaTwoD loc ch => Sys2Proof.Machine.execDmaTwoD loc ch s
  | .dmaCircular loc ch => Sys2Proof.Machine.execDmaCircular loc ch s
  | .dmaShape loc ch => Sys2Proof.Machine.execDmaShape loc ch s
  | .dmaBurstIssue loc ch => Sys2Proof.Machine.execDmaBurstIssue loc ch s
  | .dmaLimitReread loc ch => Sys2Proof.Machine.execDmaLimitReread loc ch s
  | .limitTimeout loc ch => Sys2Proof.Machine.execLimitTimeout loc ch s
  | .dmaStop loc ch => Sys2Proof.Machine.execDmaStop loc ch s
  | .bulkWrite id => Sys2Proof.Machine.execBulkWrite id s
  | .bulkReadReq id => Sys2Proof.Machine.execBulkReadReq id s
  | .bulkReadData id => Sys2Proof.Machine.execBulkReadData id s
  | .bulkAck id agrees => Sys2Proof.Machine.execBulkAck id agrees s
  | .bulkNack id => Sys2Proof.Machine.execBulkNack id s
  | .bulkMulticast id => Sys2Proof.Machine.execBulkMulticast id s
  | .bulkReduce id => Sys2Proof.Machine.execBulkReduce id s
  | .reduceTimeout b => Sys2Proof.Machine.execReduceTimeout b s
  | .linkCrcReplay b port failures => Sys2Proof.Machine.execLinkCrcReplay b port failures s
  | .mergeWindowClose b slot => Sys2Proof.Machine.execMergeWindowClose b slot s
  | .tagWaitSatisfied a => Sys2Proof.Machine.execTagWaitSatisfied a s
  | .slotTimeout a => Sys2Proof.Machine.execSlotTimeout a s
  | .scratchpadScrubRead b bank seen => Sys2Proof.Machine.execScratchpadScrubRead b bank seen s
  | .scratchpadEccWriteback b off => Sys2Proof.Machine.execScratchpadEccWriteback b off s
  | .cellarScrubRead k ch seen => Sys2Proof.Machine.execCellarScrubRead k ch seen s
  | .cellarEccWriteback k addr => Sys2Proof.Machine.execCellarEccWriteback k addr s
  | .stash k => Sys2Proof.Machine.execStash k s
  | .recall k => Sys2Proof.Machine.execRecall k s
  | .free k => Sys2Proof.Machine.execFree k s
  | .phaseRecord p => Sys2Proof.Machine.execPhaseRecord p s
  | .flitWrite p f => Sys2Proof.Machine.execFlitWrite p f s
  | .flitReduceAdd p f => Sys2Proof.Machine.execFlitReduceAdd p f s
  | .flitReadReq p f => Sys2Proof.Machine.execFlitReadReq p f s
  | .flitReadData p f => Sys2Proof.Machine.execFlitReadData p f s
  | .flitStream p f => Sys2Proof.Machine.execFlitStream p f s
  | .flitIdle p f => Sys2Proof.Machine.execFlitIdle p f s
  | .beatMessage p f residual => Sys2Proof.Machine.execBeatMessage p f residual s
  | .flood p f => Sys2Proof.Machine.execFlood p f s
  | .retryReq p f => Sys2Proof.Machine.execRetryReq p f s
  | .resendTimeout p seq => Sys2Proof.Machine.execResendTimeout p seq s
  | .nack p f => Sys2Proof.Machine.execNack p f s
  | .poll p f => Sys2Proof.Machine.execPoll p f s
  | .result p f => Sys2Proof.Machine.execResult p f s
  | .vote p f => Sys2Proof.Machine.execVote p f s
  | .voteResult p f => Sys2Proof.Machine.execVoteResult p f s
  | .norm p f => Sys2Proof.Machine.execNorm p f s
  | .fprint p f => Sys2Proof.Machine.execFprint p f s
  | .cal p f delay => Sys2Proof.Machine.execCal p f delay s
  | .laneLoss p lane => Sys2Proof.Machine.execLaneLoss p lane s
  | .retrainComplete p => Sys2Proof.Machine.execRetrainComplete p s
  | .portFailed p => Sys2Proof.Machine.execPortFailed p s
  | .beatSkew p => Sys2Proof.Machine.execBeatSkew p s
  | .degradeEffect => Sys2Proof.Machine.execDegradeEffect s
  | .abortEffect => Sys2Proof.Machine.execAbortEffect s
  | .preemptEffect => Sys2Proof.Machine.execPreemptEffect s
  | .freezeEffect => Sys2Proof.Machine.execFreezeEffect s
  | .freezePin => Sys2Proof.Machine.execFreezePin s
  | .beat => Sys2Proof.Machine.execBeat s
  | .syncArrive rank fence => Sys2Proof.Machine.execSyncArrive rank fence s
  | .fenceRelease fence => Sys2Proof.Machine.execFenceRelease fence s
  | .syncTimeout fence => Sys2Proof.Machine.execSyncTimeout fence s
  | .slipReq rank beats record => Sys2Proof.Machine.execSlipReq rank beats record s
  | .slip fence beats => Sys2Proof.Machine.execSlip fence beats s
  | .domainFencePoll fence => Sys2Proof.Machine.execDomainFencePoll fence s
  | .domainFenceResult fence => Sys2Proof.Machine.execDomainFenceResult fence s
  | .quiesced rank => Sys2Proof.Machine.execQuiesced rank s
  | .saveComplete => Sys2Proof.Machine.execSaveComplete s
  | .restoreComplete => Sys2Proof.Machine.execRestoreComplete s
  | .unloadComplete => Sys2Proof.Machine.execUnloadComplete s
  | .stepStart => Sys2Proof.Machine.execStepStart s
  | .elementwise k => Sys2Proof.Machine.execElementwise k s
  | .orthoMomentum k => Sys2Proof.Machine.execOrthoMomentum k s
  | .orthoApply k => Sys2Proof.Machine.execOrthoApply k s
  | .floorVote k => Sys2Proof.Machine.execFloorVote k s
  | .voteClose => Sys2Proof.Machine.execVoteClose s
  | .stepReplayStart => Sys2Proof.Machine.execStepReplayStart s
  | .leaveRequest b => Sys2Proof.Machine.execLeaveRequest b s
  | .leaveGrant => Sys2Proof.Machine.execLeaveGrant s
  | .railMeasure rails => Sys2Proof.Machine.execRailMeasure rails s
  | .tempSensorRead temps => Sys2Proof.Machine.execTempSensorRead temps s
  | .thermalTrip sensor reading => Sys2Proof.Machine.execThermalTrip sensor reading s
  | .clockGateOpen domain => Sys2Proof.Machine.execClockGateOpen domain s
  | .clockGateIdle domain => Sys2Proof.Machine.execClockGateIdle domain s
  | .pllLocked pll => Sys2Proof.Machine.execPllLocked pll s
  | .logEntryWrite => Sys2Proof.Machine.execLogEntryWrite s
  | .jobLoadDone => Sys2Proof.Machine.execJobLoadDone s
  | .domainFormDone => Sys2Proof.Machine.execDomainFormDone s
  | .scrubDone => Sys2Proof.Machine.execScrubDone s
  | .attestDone => Sys2Proof.Machine.execAttestDone s
  | .firmwareUpdateDone => Sys2Proof.Machine.execFirmwareUpdateDone s
  | .flashWriteDone => Sys2Proof.Machine.execFlashWriteDone s
  | .flitCrcMismatch p missing crcBad => Sys2Proof.Machine.execFlitCrcMismatch p missing crcBad s
  | .freezeNHigh => Sys2Proof.Machine.execFreezeNHigh s
  | .smbUnlistedCommand code => Sys2Proof.Machine.execSmbUnlistedCommand code s

end Sys2Proof.Machine
end

