-- ==== Sys2Proof/Laws/Bits.lean ====
section
/-! SUPPORT. Bit fields and sparse maps: what a write changes, and that it changes nothing else. -/

namespace Sys2Proof.Machine

/-! ### Bit fields -/

/-- A word splits at a field into what stands above it, the field, and what stands below it. -/
theorem fld_split (w : W64) (hi lo : Nat) :
    w.toNat = w.toNat / 2 ^ (lo + (hi + 1 - lo)) * 2 ^ (lo + (hi + 1 - lo)) + fld w hi lo * 2 ^ lo + w.toNat % 2 ^ lo := by
  unfold fld
  have h1 := Nat.div_add_mod w.toNat (2 ^ lo)
  have h2 := Nat.div_add_mod (w.toNat / 2 ^ lo) (2 ^ (hi + 1 - lo))
  rw [Nat.div_div_eq_div_mul, ← Nat.pow_add] at h2
  generalize w.toNat / 2 ^ (lo + (hi + 1 - lo)) = q at *
  generalize w.toNat / 2 ^ lo % 2 ^ (hi + 1 - lo) = f at *
  have h3 : 2 ^ (lo + (hi + 1 - lo)) = 2 ^ lo * 2 ^ (hi + 1 - lo) := Nat.pow_add ..
  rw [h3]
  calc w.toNat = 2 ^ lo * (w.toNat / 2 ^ lo) + w.toNat % 2 ^ lo := h1.symm
    _ = 2 ^ lo * (2 ^ (hi + 1 - lo) * q + f) + w.toNat % 2 ^ lo := by rw [h2]
    _ = _ := by rw [Nat.mul_add]; simp [Nat.mul_comm, Nat.mul_left_comm]

theorem fld_lt (w : W64) (hi lo : Nat) : fld w hi lo < 2 ^ (hi + 1 - lo) := Nat.mod_lt _ (Nat.two_pow_pos _)

/-- The number that a field write gives. -/
theorem putFld_toNat (w : W64) {hi lo : Nat} (h : lo ≤ hi) (h64 : hi < 64) (v : Nat) :
    (putFld w hi lo v).toNat =
      w.toNat / 2 ^ (hi + 1) * 2 ^ (hi + 1) + v % 2 ^ (hi + 1 - lo) * 2 ^ lo + w.toNat % 2 ^ lo := by
  have hs := fld_split w hi lo
  have e : lo + (hi + 1 - lo) = hi + 1 := by omega
  rw [e] at hs
  have hv : v % 2 ^ (hi + 1 - lo) < 2 ^ (hi + 1 - lo) := Nat.mod_lt _ (Nat.two_pow_pos _)
  have hl : w.toNat % 2 ^ lo < 2 ^ lo := Nat.mod_lt _ (Nat.two_pow_pos _)
  have hm : v % 2 ^ (hi + 1 - lo) * 2 ^ lo + w.toNat % 2 ^ lo < 2 ^ (hi + 1) := by
    have : (v % 2 ^ (hi + 1 - lo) + 1) * 2 ^ lo ≤ 2 ^ (hi + 1 - lo) * 2 ^ lo := Nat.mul_le_mul_right _ hv
    rw [← Nat.pow_add, Nat.sub_add_cancel (by omega), Nat.add_mul] at this
    omega
  have hq : w.toNat / 2 ^ (hi + 1) * 2 ^ (hi + 1) + 2 ^ (hi + 1) ≤ 2 ^ 64 := by
    have hw := w.isLt
    have h1 : w.toNat / 2 ^ (hi + 1) < 2 ^ (64 - (hi + 1)) := by
      rw [Nat.div_lt_iff_lt_mul (Nat.two_pow_pos _), ← Nat.pow_add]
      rwa [Nat.sub_add_cancel (by omega)]
    have h2 : (w.toNat / 2 ^ (hi + 1) + 1) * 2 ^ (hi + 1) ≤ 2 ^ (64 - (hi + 1)) * 2 ^ (hi + 1) := Nat.mul_le_mul_right _ h1
    rw [← Nat.pow_add, Nat.sub_add_cancel (by omega), Nat.add_mul] at h2
    omega
  unfold putFld
  rw [BitVec.toNat_ofNat]
  have : 2 ^ lo * (v % 2 ^ (hi + 1 - lo)) + (w.toNat - 2 ^ lo * fld w hi lo) =
      w.toNat / 2 ^ (hi + 1) * 2 ^ (hi + 1) + v % 2 ^ (hi + 1 - lo) * 2 ^ lo + w.toNat % 2 ^ lo := by
    rw [Nat.mul_comm (2 ^ lo), Nat.mul_comm (2 ^ lo)]; omega
  rw [this]
  exact Nat.mod_eq_of_lt (by omega)

/-- A field reads as it was written. -/
theorem fld_putFld (w : W64) {hi lo : Nat} (h : lo ≤ hi) (h64 : hi < 64) (v : Nat) :
    fld (putFld w hi lo v) hi lo = v % 2 ^ (hi + 1 - lo) := by
  have hl : w.toNat % 2 ^ lo < 2 ^ lo := Nat.mod_lt _ (Nat.two_pow_pos _)
  have e : 2 ^ (hi + 1) = 2 ^ lo * 2 ^ (hi + 1 - lo) := by rw [← Nat.pow_add]; congr 1; omega
  unfold fld
  rw [putFld_toNat w h h64, e]
  generalize w.toNat / (2 ^ lo * 2 ^ (hi + 1 - lo)) = q
  have : q * (2 ^ lo * 2 ^ (hi + 1 - lo)) + v % 2 ^ (hi + 1 - lo) * 2 ^ lo + w.toNat % 2 ^ lo =
      w.toNat % 2 ^ lo + 2 ^ lo * (2 ^ (hi + 1 - lo) * q + v % 2 ^ (hi + 1 - lo)) := by
    rw [Nat.mul_add]; simp [Nat.mul_comm, Nat.mul_left_comm]; omega
  rw [this, Nat.add_mul_div_left _ _ (Nat.two_pow_pos _), Nat.div_eq_of_lt hl, Nat.zero_add, Nat.mul_add_mod, Nat.mod_mod]

/-- A field above the one written is unchanged. -/
theorem fld_putFld_above (w : W64) {hi lo : Nat} (h : lo ≤ hi) (h64 : hi < 64) (v h2 l2 : Nat) (hd : hi < l2) :
    fld (putFld w hi lo v) h2 l2 = fld w h2 l2 := by
  have hv : v % 2 ^ (hi + 1 - lo) < 2 ^ (hi + 1 - lo) := Nat.mod_lt _ (Nat.two_pow_pos _)
  have hl : w.toNat % 2 ^ lo < 2 ^ lo := Nat.mod_lt _ (Nat.two_pow_pos _)
  have hm : v % 2 ^ (hi + 1 - lo) * 2 ^ lo + w.toNat % 2 ^ lo < 2 ^ (hi + 1) := by
    have : (v % 2 ^ (hi + 1 - lo) + 1) * 2 ^ lo ≤ 2 ^ (hi + 1 - lo) * 2 ^ lo := Nat.mul_le_mul_right _ hv
    rw [← Nat.pow_add, Nat.sub_add_cancel (by omega), Nat.add_mul] at this
    omega
  have e : 2 ^ l2 = 2 ^ (hi + 1) * 2 ^ (l2 - (hi + 1)) := by rw [← Nat.pow_add]; congr 1; omega
  unfold fld
  rw [putFld_toNat w h h64, e, ← Nat.div_div_eq_div_mul, ← Nat.div_div_eq_div_mul]
  have : w.toNat / 2 ^ (hi + 1) * 2 ^ (hi + 1) + v % 2 ^ (hi + 1 - lo) * 2 ^ lo + w.toNat % 2 ^ lo =
      v % 2 ^ (hi + 1 - lo) * 2 ^ lo + w.toNat % 2 ^ lo + 2 ^ (hi + 1) * (w.toNat / 2 ^ (hi + 1)) := by
    rw [Nat.mul_comm (2 ^ (hi + 1))]; omega
  rw [this, Nat.add_mul_div_left _ _ (Nat.two_pow_pos _), Nat.div_eq_of_lt hm, Nat.zero_add]

/-- A field below the one written is unchanged. -/
theorem fld_putFld_below (w : W64) {hi lo : Nat} (h : lo ≤ hi) (h64 : hi < 64) (v h2 l2 : Nat) (hd : h2 < lo) :
    fld (putFld w hi lo v) h2 l2 = fld w h2 l2 := by
  have key (n : Nat) : n / 2 ^ l2 % 2 ^ (h2 + 1 - l2) = n % 2 ^ lo / 2 ^ l2 % 2 ^ (h2 + 1 - l2) := by
    by_cases hh : l2 ≤ h2
    · have e : 2 ^ lo = 2 ^ l2 * (2 ^ (h2 + 1 - l2) * 2 ^ (lo - (h2 + 1))) := by
        rw [← Nat.pow_add, ← Nat.pow_add]; congr 1; omega
      rw [e, Nat.mod_mul_right_div_self, Nat.mod_mul_right_mod]
    · have : h2 + 1 - l2 = 0 := by omega
      rw [this, Nat.pow_zero, Nat.mod_one, Nat.mod_one]
  unfold fld
  rw [key, key w.toNat]
  congr 2
  rw [putFld_toNat w h h64]
  have e : 2 ^ (hi + 1) = 2 ^ lo * 2 ^ (hi + 1 - lo) := by rw [← Nat.pow_add]; congr 1; omega
  rw [e]
  have : ∀ a b c : Nat, a * (2 ^ lo * 2 ^ (hi + 1 - lo)) + b * 2 ^ lo + c = 2 ^ lo * (a * 2 ^ (hi + 1 - lo) + b) + c := by
    intro a b c; rw [Nat.mul_add]; simp [Nat.mul_comm, Nat.mul_left_comm]
  rw [this, Nat.mul_add_mod, Nat.mod_mod]

/-! ### Sparse maps -/

section
variable {α : Type} (d : Nat → α)

@[simp] theorem SMap.get_nil (k : Nat) : SMap.get d [] k = d k := rfl

theorem SMap.get_insert (m : SMap α) (k j : Nat) (v : α) :
    SMap.get d (m.insert k v) j = if j = k then v else SMap.get d m j := by
  induction m with
  | nil => simp [SMap.insert, SMap.get]
  | cons p t ih =>
    obtain ⟨a, w⟩ := p
    simp only [SMap.insert]
    split
    · subst_vars; by_cases h : j = a <;> simp [SMap.get, h]
    · split
      · by_cases h : j = k <;> simp [SMap.get, h]
      · by_cases h : j = a
        · subst h
          have : ¬ j = k := fun e => by omega
          simp [SMap.get, this]
        · simp [SMap.get, h, ih]

theorem SMap.get_erase (m : SMap α) (k j : Nat) : SMap.get d (m.erase k) j = if j = k then d j else SMap.get d m j := by
  induction m with
  | nil => simp [SMap.erase]
  | cons p t ih =>
    obtain ⟨a, w⟩ := p
    simp only [SMap.erase]
    split
    · subst_vars; rw [ih]; by_cases h : j = a <;> simp [SMap.get, h]
    · by_cases h : j = a
      · subst h; rename_i hk; have : ¬ j = k := fun e => hk e.symm; simp [SMap.get, this]
      · simp [SMap.get, h, ih]

/-- Reading after a write: the value at its key, the rest as before. -/
theorem SMap.get_set [DecidableEq α] (m : SMap α) (k j : Nat) (v : α) :
    SMap.get d (SMap.set d m k v) j = if j = k then v else SMap.get d m j := by
  unfold SMap.set
  split
  · rw [SMap.get_erase]; by_cases h : j = k <;> simp [*]
  · rw [SMap.get_insert]

@[simp] theorem SMap.get_set_self [DecidableEq α] (m : SMap α) (k : Nat) (v : α) :
    SMap.get d (SMap.set d m k v) k = v := by rw [SMap.get_set]; simp

theorem SMap.get_set_ne [DecidableEq α] (m : SMap α) {k j : Nat} (v : α) (h : j ≠ k) :
    SMap.get d (SMap.set d m k v) j = SMap.get d m j := by rw [SMap.get_set]; simp [h]

end

/-! ### The canonical form -/

/-- Every key of a map lies above a bound. -/
def SMap.above {α : Type} (m : SMap α) (b : Nat) : Prop := ∀ p ∈ m, b < p.1

theorem SMap.wf_cons {α : Type} [DecidableEq α] (d : Nat → α) (a : Nat) (v : α) (t : SMap α) :
    SMap.wf d ((a, v) :: t) = true ↔ v ≠ d a ∧ SMap.above t a ∧ SMap.wf d t = true := by
  induction t generalizing a v with
  | nil => simp [SMap.wf, SMap.above]
  | cons p t ih =>
    obtain ⟨b, w⟩ := p
    rw [SMap.wf, Bool.and_eq_true, Bool.and_eq_true, decide_eq_true_iff, decide_eq_true_iff, ih]
    constructor
    · rintro ⟨⟨h1, h2⟩, h3, h4, h5⟩
      refine ⟨h1, ?_, h3, h4, h5⟩
      intro q hq
      rcases List.mem_cons.1 hq with rfl | hq
      · exact h2
      · exact Nat.lt_trans h2 (h4 q hq)
    · rintro ⟨h1, h2, h3, h4, h5⟩
      exact ⟨⟨h1, h2 _ (List.mem_cons_self ..)⟩, h3, h4, h5⟩

/-- Dropping entries keeps the canonical form. -/
theorem SMap.wf_filter {α : Type} [DecidableEq α] (d : Nat → α) (m : SMap α) (p : Nat × α → Bool)
    (h : SMap.wf d m = true) : SMap.wf d (m.filter p) = true := by
  induction m with
  | nil => rfl
  | cons q t ih =>
    obtain ⟨a, v⟩ := q
    rw [SMap.wf_cons] at h
    obtain ⟨h1, h2, h3⟩ := h
    rw [List.filter_cons]
    split
    · rw [SMap.wf_cons]
      exact ⟨h1, fun q hq => h2 q ((List.mem_filter.1 hq).1), ih h3⟩
    · exact ih h3

/-- Two maps in canonical form, one wholly below the other, join to one. -/
theorem SMap.wf_append {α : Type} [DecidableEq α] (d : Nat → α) (m n : SMap α) (hm : SMap.wf d m = true)
    (hn : SMap.wf d n = true) (h : ∀ p ∈ m, ∀ q ∈ n, p.1 < q.1) : SMap.wf d (m ++ n) = true := by
  induction m with
  | nil => exact hn
  | cons p t ih =>
    obtain ⟨a, v⟩ := p
    rw [SMap.wf_cons] at hm
    obtain ⟨h1, h2, h3⟩ := hm
    rw [List.cons_append, SMap.wf_cons]
    refine ⟨h1, ?_, ih h3 (fun p hp q hq => h p (List.mem_cons_of_mem _ hp) q hq)⟩
    intro q hq
    rcases List.mem_append.1 hq with hq | hq
    · exact h2 q hq
    · exact h (a, v) (List.mem_cons_self ..) q hq

theorem SMap.mem_insert {α : Type} (m : SMap α) (k : Nat) (v : α) (p : Nat × α) (h : p ∈ m.insert k v) :
    p = (k, v) ∨ p ∈ m := by
  induction m with
  | nil => left; simpa [SMap.insert] using h
  | cons q t ih =>
    obtain ⟨a, w⟩ := q
    simp only [SMap.insert] at h
    split at h
    · rcases List.mem_cons.1 h with h | h
      · exact .inl h
      · exact .inr (List.mem_cons_of_mem _ h)
    · split at h
      · rcases List.mem_cons.1 h with h | h
        · exact .inl h
        · exact .inr h
      · rcases List.mem_cons.1 h with h | h
        · right; rw [h]; exact List.mem_cons_self ..
        · rcases ih h with h | h
          · exact .inl h
          · exact .inr (List.mem_cons_of_mem _ h)

/-- A write keeps the canonical form. -/
theorem SMap.wf_set {α : Type} [DecidableEq α] (d : Nat → α) (m : SMap α) (k : Nat) (v : α) (h : SMap.wf d m = true) :
    SMap.wf d (SMap.set d m k v) = true := by
  unfold SMap.set
  split
  · rename_i hv
    induction m with
    | nil => rfl
    | cons p t ih =>
      obtain ⟨a, w⟩ := p
      rw [SMap.wf_cons] at h
      obtain ⟨h1, h2, h3⟩ := h
      simp only [SMap.erase]
      split
      · exact ih h3
      · rw [SMap.wf_cons]
        refine ⟨h1, ?_, ih h3⟩
        have sub : ∀ (l : SMap α) (q : Nat × α), q ∈ l.erase k → q ∈ l := by
          intro l
          induction l with
          | nil => intro q hq; simp [SMap.erase] at hq
          | cons p l ihl =>
            intro q hq
            obtain ⟨c, x⟩ := p
            simp only [SMap.erase] at hq
            split at hq
            · exact List.mem_cons_of_mem _ (ihl q hq)
            · rcases List.mem_cons.1 hq with hq | hq
              · rw [hq]; exact List.mem_cons_self ..
              · exact List.mem_cons_of_mem _ (ihl q hq)
        exact fun q hq => h2 q (sub t q hq)
  · rename_i hv
    induction m with
    | nil => simpa [SMap.insert, SMap.wf] using hv
    | cons p t ih =>
      obtain ⟨a, w⟩ := p
      have h0 := h
      rw [SMap.wf_cons] at h
      obtain ⟨h1, h2, h3⟩ := h
      simp only [SMap.insert]
      split
      · subst_vars; rw [SMap.wf_cons]; exact ⟨hv, h2, h3⟩
      · split
        · rw [SMap.wf_cons]
          refine ⟨hv, ?_, h0⟩
          rename_i hlt
          intro q hq
          rcases List.mem_cons.1 hq with rfl | hq
          · exact hlt
          · exact Nat.lt_trans hlt (h2 q hq)
        · rename_i hne hnlt
          rw [SMap.wf_cons]
          refine ⟨h1, ?_, ih h3⟩
          intro q hq
          rcases SMap.mem_insert t k v q hq with rfl | hq
          · show a < k; omega
          · exact h2 q hq

end Sys2Proof.Machine
end

