-- ==== Sys2Proof/Laws/State.lean ====
section
/-! SUPPORT. What each named operation leaves as it was, field by field of the device. -/

namespace Sys2Proof.Machine

variable (d : Dev)

/-! ### d.setReg a v -/

@[simp] theorem Dev.setReg_mem (a : Nat) (v : W64) : (d.setReg a v).mem = d.mem := rfl
@[simp] theorem Dev.setReg_errs (a : Nat) (v : W64) : (d.setReg a v).errs = d.errs := rfl
@[simp] theorem Dev.setReg_tags (a : Nat) (v : W64) : (d.setReg a v).tags = d.tags := rfl
@[simp] theorem Dev.setReg_tagErrs (a : Nat) (v : W64) : (d.setReg a v).tagErrs = d.tagErrs := rfl
@[simp] theorem Dev.setReg_staged (a : Nat) (v : W64) : (d.setReg a v).staged = d.staged := rfl
@[simp] theorem Dev.setReg_arith (a : Nat) (v : W64) : (d.setReg a v).arith = d.arith := rfl
@[simp] theorem Dev.setReg_aonBeat (a : Nat) (v : W64) : (d.setReg a v).aonBeat = d.aonBeat := rfl
@[simp] theorem Dev.setReg_countedBeats (a : Nat) (v : W64) : (d.setReg a v).countedBeats = d.countedBeats := rfl
@[simp] theorem Dev.setReg_ageBeats (a : Nat) (v : W64) : (d.setReg a v).ageBeats = d.ageBeats := rfl
@[simp] theorem Dev.setReg_liveBeats (a : Nat) (v : W64) : (d.setReg a v).liveBeats = d.liveBeats := rfl
@[simp] theorem Dev.setReg_log (a : Nat) (v : W64) : (d.setReg a v).log = d.log := rfl
@[simp] theorem Dev.setReg_logHeld (a : Nat) (v : W64) : (d.setReg a v).logHeld = d.logHeld := rfl
@[simp] theorem Dev.setReg_bench (a : Nat) (v : W64) : (d.setReg a v).bench = d.bench := rfl
@[simp] theorem Dev.setReg_outbox (a : Nat) (v : W64) : (d.setReg a v).outbox = d.outbox := rfl
@[simp] theorem Dev.setReg_upq (a : Nat) (v : W64) : (d.setReg a v).upq = d.upq := rfl
@[simp] theorem Dev.setReg_granted (a : Nat) (v : W64) : (d.setReg a v).granted = d.granted := rfl
@[simp] theorem Dev.setReg_maxNeed (a : Nat) (v : W64) : (d.setReg a v).maxNeed = d.maxNeed := rfl
@[simp] theorem Dev.setReg_free (a : Nat) (v : W64) : (d.setReg a v).free = d.free := rfl
@[simp] theorem Dev.setReg_chans (a : Nat) (v : W64) : (d.setReg a v).chans = d.chans := rfl
@[simp] theorem Dev.setReg_net (a : Nat) (v : W64) : (d.setReg a v).net = d.net := rfl
@[simp] theorem Dev.setReg_floors (a : Nat) (v : W64) : (d.setReg a v).floors = d.floors := rfl
@[simp] theorem Dev.setReg_fences (a : Nat) (v : W64) : (d.setReg a v).fences = d.fences := rfl
@[simp] theorem Dev.setReg_step (a : Nat) (v : W64) : (d.setReg a v).step = d.step := rfl
@[simp] theorem Dev.setReg_job (a : Nat) (v : W64) : (d.setReg a v).job = d.job := rfl
@[simp] theorem Dev.setReg_saved (a : Nat) (v : W64) : (d.setReg a v).saved = d.saved := rfl
@[simp] theorem Dev.setReg_lat (a : Nat) (v : W64) : (d.setReg a v).lat = d.lat := rfl
@[simp] theorem Dev.setReg_flash (a : Nat) (v : W64) : (d.setReg a v).flash = d.flash := rfl
@[simp] theorem Dev.setReg_boot (a : Nat) (v : W64) : (d.setReg a v).boot = d.boot := rfl
@[simp] theorem Dev.setReg_pins (a : Nat) (v : W64) : (d.setReg a v).pins = d.pins := rfl
@[simp] theorem Dev.setReg_time (a : Nat) (v : W64) : (d.setReg a v).time = d.time := rfl
@[simp] theorem Dev.setReg_slipLeft (a : Nat) (v : W64) : (d.setReg a v).slipLeft = d.slipLeft := rfl
@[simp] theorem Dev.setReg_smiper (a : Nat) (v : W64) : (d.setReg a v).smiper = d.smiper := rfl
@[simp] theorem Dev.setReg_ops (a : Nat) (v : W64) : (d.setReg a v).ops = d.ops := rfl
@[simp] theorem Dev.setReg_results (a : Nat) (v : W64) : (d.setReg a v).results = d.results := rfl
@[simp] theorem Dev.setReg_lastBist (a : Nat) (v : W64) : (d.setReg a v).lastBist = d.lastBist := rfl
@[simp] theorem Dev.setReg_lastBistDigest (a : Nat) (v : W64) : (d.setReg a v).lastBistDigest = d.lastBistDigest := rfl
@[simp] theorem Dev.setReg_resetAt (a : Nat) (v : W64) : (d.setReg a v).resetAt = d.resetAt := rfl
@[simp] theorem Dev.setReg_leaveQ (a : Nat) (v : W64) : (d.setReg a v).leaveQ = d.leaveQ := rfl
@[simp] theorem Dev.setReg_hubGrant (a : Nat) (v : W64) : (d.setReg a v).hubGrant = d.hubGrant := rfl
@[simp] theorem Dev.setReg_resting (a : Nat) (v : W64) : (d.setReg a v).resting = d.resting := rfl
@[simp] theorem Dev.setReg_gated (a : Nat) (v : W64) : (d.setReg a v).gated = d.gated := rfl
@[simp] theorem Dev.setReg_unlocked (a : Nat) (v : W64) : (d.setReg a v).unlocked = d.unlocked := rfl
@[simp] theorem Dev.setReg_hotSensors (a : Nat) (v : W64) : (d.setReg a v).hotSensors = d.hotSensors := rfl
@[simp] theorem Dev.setReg_railHist (a : Nat) (v : W64) : (d.setReg a v).railHist = d.railHist := rfl
@[simp] theorem Dev.setReg_bist (a : Nat) (v : W64) : (d.setReg a v).bist = d.bist := rfl
@[simp] theorem Dev.setReg_frz (a : Nat) (v : W64) : (d.setReg a v).frz = d.frz := rfl
@[simp] theorem Dev.setReg_faults (a : Nat) (v : W64) : (d.setReg a v).faults = d.faults := rfl
@[simp] theorem Dev.setReg_bytes (a : Nat) (v : W64) (x y : Nat) : (d.setReg a v).bytes x y = d.bytes x y := by simp [Dev.bytes]
@[simp] theorem Dev.setReg_chan (a : Nat) (v : W64) (x y : Nat) : (d.setReg a v).chan x y = d.chan x y := by simp [Dev.chan]
@[simp] theorem Dev.setReg_bn (a : Nat) (v : W64) (x : Nat) : (d.setReg a v).bn x = d.bn x := by simp [Dev.bn]

/-! ### d.set f v -/

@[simp] theorem Dev.set_mem (f : Fld) (v : Nat) : (d.set f v).mem = d.mem := rfl
@[simp] theorem Dev.set_errs (f : Fld) (v : Nat) : (d.set f v).errs = d.errs := rfl
@[simp] theorem Dev.set_tags (f : Fld) (v : Nat) : (d.set f v).tags = d.tags := rfl
@[simp] theorem Dev.set_tagErrs (f : Fld) (v : Nat) : (d.set f v).tagErrs = d.tagErrs := rfl
@[simp] theorem Dev.set_staged (f : Fld) (v : Nat) : (d.set f v).staged = d.staged := rfl
@[simp] theorem Dev.set_arith (f : Fld) (v : Nat) : (d.set f v).arith = d.arith := rfl
@[simp] theorem Dev.set_aonBeat (f : Fld) (v : Nat) : (d.set f v).aonBeat = d.aonBeat := rfl
@[simp] theorem Dev.set_countedBeats (f : Fld) (v : Nat) : (d.set f v).countedBeats = d.countedBeats := rfl
@[simp] theorem Dev.set_ageBeats (f : Fld) (v : Nat) : (d.set f v).ageBeats = d.ageBeats := rfl
@[simp] theorem Dev.set_liveBeats (f : Fld) (v : Nat) : (d.set f v).liveBeats = d.liveBeats := rfl
@[simp] theorem Dev.set_log (f : Fld) (v : Nat) : (d.set f v).log = d.log := rfl
@[simp] theorem Dev.set_logHeld (f : Fld) (v : Nat) : (d.set f v).logHeld = d.logHeld := rfl
@[simp] theorem Dev.set_bench (f : Fld) (v : Nat) : (d.set f v).bench = d.bench := rfl
@[simp] theorem Dev.set_outbox (f : Fld) (v : Nat) : (d.set f v).outbox = d.outbox := rfl
@[simp] theorem Dev.set_upq (f : Fld) (v : Nat) : (d.set f v).upq = d.upq := rfl
@[simp] theorem Dev.set_granted (f : Fld) (v : Nat) : (d.set f v).granted = d.granted := rfl
@[simp] theorem Dev.set_maxNeed (f : Fld) (v : Nat) : (d.set f v).maxNeed = d.maxNeed := rfl
@[simp] theorem Dev.set_free (f : Fld) (v : Nat) : (d.set f v).free = d.free := rfl
@[simp] theorem Dev.set_chans (f : Fld) (v : Nat) : (d.set f v).chans = d.chans := rfl
@[simp] theorem Dev.set_net (f : Fld) (v : Nat) : (d.set f v).net = d.net := rfl
@[simp] theorem Dev.set_floors (f : Fld) (v : Nat) : (d.set f v).floors = d.floors := rfl
@[simp] theorem Dev.set_fences (f : Fld) (v : Nat) : (d.set f v).fences = d.fences := rfl
@[simp] theorem Dev.set_step (f : Fld) (v : Nat) : (d.set f v).step = d.step := rfl
@[simp] theorem Dev.set_job (f : Fld) (v : Nat) : (d.set f v).job = d.job := rfl
@[simp] theorem Dev.set_saved (f : Fld) (v : Nat) : (d.set f v).saved = d.saved := rfl
@[simp] theorem Dev.set_lat (f : Fld) (v : Nat) : (d.set f v).lat = d.lat := rfl
@[simp] theorem Dev.set_flash (f : Fld) (v : Nat) : (d.set f v).flash = d.flash := rfl
@[simp] theorem Dev.set_boot (f : Fld) (v : Nat) : (d.set f v).boot = d.boot := rfl
@[simp] theorem Dev.set_pins (f : Fld) (v : Nat) : (d.set f v).pins = d.pins := rfl
@[simp] theorem Dev.set_time (f : Fld) (v : Nat) : (d.set f v).time = d.time := rfl
@[simp] theorem Dev.set_slipLeft (f : Fld) (v : Nat) : (d.set f v).slipLeft = d.slipLeft := rfl
@[simp] theorem Dev.set_smiper (f : Fld) (v : Nat) : (d.set f v).smiper = d.smiper := rfl
@[simp] theorem Dev.set_ops (f : Fld) (v : Nat) : (d.set f v).ops = d.ops := rfl
@[simp] theorem Dev.set_results (f : Fld) (v : Nat) : (d.set f v).results = d.results := rfl
@[simp] theorem Dev.set_lastBist (f : Fld) (v : Nat) : (d.set f v).lastBist = d.lastBist := rfl
@[simp] theorem Dev.set_lastBistDigest (f : Fld) (v : Nat) : (d.set f v).lastBistDigest = d.lastBistDigest := rfl
@[simp] theorem Dev.set_resetAt (f : Fld) (v : Nat) : (d.set f v).resetAt = d.resetAt := rfl
@[simp] theorem Dev.set_leaveQ (f : Fld) (v : Nat) : (d.set f v).leaveQ = d.leaveQ := rfl
@[simp] theorem Dev.set_hubGrant (f : Fld) (v : Nat) : (d.set f v).hubGrant = d.hubGrant := rfl
@[simp] theorem Dev.set_resting (f : Fld) (v : Nat) : (d.set f v).resting = d.resting := rfl
@[simp] theorem Dev.set_gated (f : Fld) (v : Nat) : (d.set f v).gated = d.gated := rfl
@[simp] theorem Dev.set_unlocked (f : Fld) (v : Nat) : (d.set f v).unlocked = d.unlocked := rfl
@[simp] theorem Dev.set_hotSensors (f : Fld) (v : Nat) : (d.set f v).hotSensors = d.hotSensors := rfl
@[simp] theorem Dev.set_railHist (f : Fld) (v : Nat) : (d.set f v).railHist = d.railHist := rfl
@[simp] theorem Dev.set_bist (f : Fld) (v : Nat) : (d.set f v).bist = d.bist := rfl
@[simp] theorem Dev.set_frz (f : Fld) (v : Nat) : (d.set f v).frz = d.frz := rfl
@[simp] theorem Dev.set_faults (f : Fld) (v : Nat) : (d.set f v).faults = d.faults := rfl
@[simp] theorem Dev.set_bytes (f : Fld) (v : Nat) (x y : Nat) : (d.set f v).bytes x y = d.bytes x y := by simp [Dev.bytes]
@[simp] theorem Dev.set_chan (f : Fld) (v : Nat) (x y : Nat) : (d.set f v).chan x y = d.chan x y := by simp [Dev.chan]
@[simp] theorem Dev.set_bn (f : Fld) (v : Nat) (x : Nat) : (d.set f v).bn x = d.bn x := by simp [Dev.bn]

/-! ### d.addTo f n -/

@[simp] theorem Dev.addTo_mem (f : Fld) (n : Nat) : (d.addTo f n).mem = d.mem := by unfold Dev.addTo; split <;> rfl
@[simp] theorem Dev.addTo_errs (f : Fld) (n : Nat) : (d.addTo f n).errs = d.errs := by unfold Dev.addTo; split <;> rfl
@[simp] theorem Dev.addTo_tags (f : Fld) (n : Nat) : (d.addTo f n).tags = d.tags := by unfold Dev.addTo; split <;> rfl
@[simp] theorem Dev.addTo_tagErrs (f : Fld) (n : Nat) : (d.addTo f n).tagErrs = d.tagErrs := by unfold Dev.addTo; split <;> rfl
@[simp] theorem Dev.addTo_staged (f : Fld) (n : Nat) : (d.addTo f n).staged = d.staged := by unfold Dev.addTo; split <;> rfl
@[simp] theorem Dev.addTo_arith (f : Fld) (n : Nat) : (d.addTo f n).arith = d.arith := by unfold Dev.addTo; split <;> rfl
@[simp] theorem Dev.addTo_aonBeat (f : Fld) (n : Nat) : (d.addTo f n).aonBeat = d.aonBeat := by unfold Dev.addTo; split <;> rfl
@[simp] theorem Dev.addTo_countedBeats (f : Fld) (n : Nat) : (d.addTo f n).countedBeats = d.countedBeats := by unfold Dev.addTo; split <;> rfl
@[simp] theorem Dev.addTo_ageBeats (f : Fld) (n : Nat) : (d.addTo f n).ageBeats = d.ageBeats := by unfold Dev.addTo; split <;> rfl
@[simp] theorem Dev.addTo_liveBeats (f : Fld) (n : Nat) : (d.addTo f n).liveBeats = d.liveBeats := by unfold Dev.addTo; split <;> rfl
@[simp] theorem Dev.addTo_log (f : Fld) (n : Nat) : (d.addTo f n).log = d.log := by unfold Dev.addTo; split <;> rfl
@[simp] theorem Dev.addTo_logHeld (f : Fld) (n : Nat) : (d.addTo f n).logHeld = d.logHeld := by unfold Dev.addTo; split <;> rfl
@[simp] theorem Dev.addTo_bench (f : Fld) (n : Nat) : (d.addTo f n).bench = d.bench := by unfold Dev.addTo; split <;> rfl
@[simp] theorem Dev.addTo_outbox (f : Fld) (n : Nat) : (d.addTo f n).outbox = d.outbox := by unfold Dev.addTo; split <;> rfl
@[simp] theorem Dev.addTo_upq (f : Fld) (n : Nat) : (d.addTo f n).upq = d.upq := by unfold Dev.addTo; split <;> rfl
@[simp] theorem Dev.addTo_granted (f : Fld) (n : Nat) : (d.addTo f n).granted = d.granted := by unfold Dev.addTo; split <;> rfl
@[simp] theorem Dev.addTo_maxNeed (f : Fld) (n : Nat) : (d.addTo f n).maxNeed = d.maxNeed := by unfold Dev.addTo; split <;> rfl
@[simp] theorem Dev.addTo_free (f : Fld) (n : Nat) : (d.addTo f n).free = d.free := by unfold Dev.addTo; split <;> rfl
@[simp] theorem Dev.addTo_chans (f : Fld) (n : Nat) : (d.addTo f n).chans = d.chans := by unfold Dev.addTo; split <;> rfl
@[simp] theorem Dev.addTo_net (f : Fld) (n : Nat) : (d.addTo f n).net = d.net := by unfold Dev.addTo; split <;> rfl
@[simp] theorem Dev.addTo_floors (f : Fld) (n : Nat) : (d.addTo f n).floors = d.floors := by unfold Dev.addTo; split <;> rfl
@[simp] theorem Dev.addTo_fences (f : Fld) (n : Nat) : (d.addTo f n).fences = d.fences := by unfold Dev.addTo; split <;> rfl
@[simp] theorem Dev.addTo_step (f : Fld) (n : Nat) : (d.addTo f n).step = d.step := by unfold Dev.addTo; split <;> rfl
@[simp] theorem Dev.addTo_job (f : Fld) (n : Nat) : (d.addTo f n).job = d.job := by unfold Dev.addTo; split <;> rfl
@[simp] theorem Dev.addTo_saved (f : Fld) (n : Nat) : (d.addTo f n).saved = d.saved := by unfold Dev.addTo; split <;> rfl
@[simp] theorem Dev.addTo_lat (f : Fld) (n : Nat) : (d.addTo f n).lat = d.lat := by unfold Dev.addTo; split <;> rfl
@[simp] theorem Dev.addTo_flash (f : Fld) (n : Nat) : (d.addTo f n).flash = d.flash := by unfold Dev.addTo; split <;> rfl
@[simp] theorem Dev.addTo_boot (f : Fld) (n : Nat) : (d.addTo f n).boot = d.boot := by unfold Dev.addTo; split <;> rfl
@[simp] theorem Dev.addTo_pins (f : Fld) (n : Nat) : (d.addTo f n).pins = d.pins := by unfold Dev.addTo; split <;> rfl
@[simp] theorem Dev.addTo_time (f : Fld) (n : Nat) : (d.addTo f n).time = d.time := by unfold Dev.addTo; split <;> rfl
@[simp] theorem Dev.addTo_slipLeft (f : Fld) (n : Nat) : (d.addTo f n).slipLeft = d.slipLeft := by unfold Dev.addTo; split <;> rfl
@[simp] theorem Dev.addTo_smiper (f : Fld) (n : Nat) : (d.addTo f n).smiper = d.smiper := by unfold Dev.addTo; split <;> rfl
@[simp] theorem Dev.addTo_ops (f : Fld) (n : Nat) : (d.addTo f n).ops = d.ops := by unfold Dev.addTo; split <;> rfl
@[simp] theorem Dev.addTo_results (f : Fld) (n : Nat) : (d.addTo f n).results = d.results := by unfold Dev.addTo; split <;> rfl
@[simp] theorem Dev.addTo_lastBist (f : Fld) (n : Nat) : (d.addTo f n).lastBist = d.lastBist := by unfold Dev.addTo; split <;> rfl
@[simp] theorem Dev.addTo_lastBistDigest (f : Fld) (n : Nat) : (d.addTo f n).lastBistDigest = d.lastBistDigest := by unfold Dev.addTo; split <;> rfl
@[simp] theorem Dev.addTo_resetAt (f : Fld) (n : Nat) : (d.addTo f n).resetAt = d.resetAt := by unfold Dev.addTo; split <;> rfl
@[simp] theorem Dev.addTo_leaveQ (f : Fld) (n : Nat) : (d.addTo f n).leaveQ = d.leaveQ := by unfold Dev.addTo; split <;> rfl
@[simp] theorem Dev.addTo_hubGrant (f : Fld) (n : Nat) : (d.addTo f n).hubGrant = d.hubGrant := by unfold Dev.addTo; split <;> rfl
@[simp] theorem Dev.addTo_resting (f : Fld) (n : Nat) : (d.addTo f n).resting = d.resting := by unfold Dev.addTo; split <;> rfl
@[simp] theorem Dev.addTo_gated (f : Fld) (n : Nat) : (d.addTo f n).gated = d.gated := by unfold Dev.addTo; split <;> rfl
@[simp] theorem Dev.addTo_unlocked (f : Fld) (n : Nat) : (d.addTo f n).unlocked = d.unlocked := by unfold Dev.addTo; split <;> rfl
@[simp] theorem Dev.addTo_hotSensors (f : Fld) (n : Nat) : (d.addTo f n).hotSensors = d.hotSensors := by unfold Dev.addTo; split <;> rfl
@[simp] theorem Dev.addTo_railHist (f : Fld) (n : Nat) : (d.addTo f n).railHist = d.railHist := by unfold Dev.addTo; split <;> rfl
@[simp] theorem Dev.addTo_bist (f : Fld) (n : Nat) : (d.addTo f n).bist = d.bist := by unfold Dev.addTo; split <;> rfl
@[simp] theorem Dev.addTo_frz (f : Fld) (n : Nat) : (d.addTo f n).frz = d.frz := by unfold Dev.addTo; split <;> rfl
@[simp] theorem Dev.addTo_faults (f : Fld) (n : Nat) : (d.addTo f n).faults = d.faults := by unfold Dev.addTo; split <;> rfl
@[simp] theorem Dev.addTo_bytes (f : Fld) (n : Nat) (x y : Nat) : (d.addTo f n).bytes x y = d.bytes x y := by simp [Dev.bytes]
@[simp] theorem Dev.addTo_chan (f : Fld) (n : Nat) (x y : Nat) : (d.addTo f n).chan x y = d.chan x y := by simp [Dev.chan]
@[simp] theorem Dev.addTo_bn (f : Fld) (n : Nat) (x : Nat) : (d.addTo f n).bn x = d.bn x := by simp [Dev.bn]

/-! ### d.inc f -/

@[simp] theorem Dev.inc_mem (f : Fld) : (d.inc f).mem = d.mem := Dev.addTo_mem d f 1
@[simp] theorem Dev.inc_errs (f : Fld) : (d.inc f).errs = d.errs := Dev.addTo_errs d f 1
@[simp] theorem Dev.inc_tags (f : Fld) : (d.inc f).tags = d.tags := Dev.addTo_tags d f 1
@[simp] theorem Dev.inc_tagErrs (f : Fld) : (d.inc f).tagErrs = d.tagErrs := Dev.addTo_tagErrs d f 1
@[simp] theorem Dev.inc_staged (f : Fld) : (d.inc f).staged = d.staged := Dev.addTo_staged d f 1
@[simp] theorem Dev.inc_arith (f : Fld) : (d.inc f).arith = d.arith := Dev.addTo_arith d f 1
@[simp] theorem Dev.inc_aonBeat (f : Fld) : (d.inc f).aonBeat = d.aonBeat := Dev.addTo_aonBeat d f 1
@[simp] theorem Dev.inc_countedBeats (f : Fld) : (d.inc f).countedBeats = d.countedBeats := Dev.addTo_countedBeats d f 1
@[simp] theorem Dev.inc_ageBeats (f : Fld) : (d.inc f).ageBeats = d.ageBeats := Dev.addTo_ageBeats d f 1
@[simp] theorem Dev.inc_liveBeats (f : Fld) : (d.inc f).liveBeats = d.liveBeats := Dev.addTo_liveBeats d f 1
@[simp] theorem Dev.inc_log (f : Fld) : (d.inc f).log = d.log := Dev.addTo_log d f 1
@[simp] theorem Dev.inc_logHeld (f : Fld) : (d.inc f).logHeld = d.logHeld := Dev.addTo_logHeld d f 1
@[simp] theorem Dev.inc_bench (f : Fld) : (d.inc f).bench = d.bench := Dev.addTo_bench d f 1
@[simp] theorem Dev.inc_outbox (f : Fld) : (d.inc f).outbox = d.outbox := Dev.addTo_outbox d f 1
@[simp] theorem Dev.inc_upq (f : Fld) : (d.inc f).upq = d.upq := Dev.addTo_upq d f 1
@[simp] theorem Dev.inc_granted (f : Fld) : (d.inc f).granted = d.granted := Dev.addTo_granted d f 1
@[simp] theorem Dev.inc_maxNeed (f : Fld) : (d.inc f).maxNeed = d.maxNeed := Dev.addTo_maxNeed d f 1
@[simp] theorem Dev.inc_free (f : Fld) : (d.inc f).free = d.free := Dev.addTo_free d f 1
@[simp] theorem Dev.inc_chans (f : Fld) : (d.inc f).chans = d.chans := Dev.addTo_chans d f 1
@[simp] theorem Dev.inc_net (f : Fld) : (d.inc f).net = d.net := Dev.addTo_net d f 1
@[simp] theorem Dev.inc_floors (f : Fld) : (d.inc f).floors = d.floors := Dev.addTo_floors d f 1
@[simp] theorem Dev.inc_fences (f : Fld) : (d.inc f).fences = d.fences := Dev.addTo_fences d f 1
@[simp] theorem Dev.inc_step (f : Fld) : (d.inc f).step = d.step := Dev.addTo_step d f 1
@[simp] theorem Dev.inc_job (f : Fld) : (d.inc f).job = d.job := Dev.addTo_job d f 1
@[simp] theorem Dev.inc_saved (f : Fld) : (d.inc f).saved = d.saved := Dev.addTo_saved d f 1
@[simp] theorem Dev.inc_lat (f : Fld) : (d.inc f).lat = d.lat := Dev.addTo_lat d f 1
@[simp] theorem Dev.inc_flash (f : Fld) : (d.inc f).flash = d.flash := Dev.addTo_flash d f 1
@[simp] theorem Dev.inc_boot (f : Fld) : (d.inc f).boot = d.boot := Dev.addTo_boot d f 1
@[simp] theorem Dev.inc_pins (f : Fld) : (d.inc f).pins = d.pins := Dev.addTo_pins d f 1
@[simp] theorem Dev.inc_time (f : Fld) : (d.inc f).time = d.time := Dev.addTo_time d f 1
@[simp] theorem Dev.inc_slipLeft (f : Fld) : (d.inc f).slipLeft = d.slipLeft := Dev.addTo_slipLeft d f 1
@[simp] theorem Dev.inc_smiper (f : Fld) : (d.inc f).smiper = d.smiper := Dev.addTo_smiper d f 1
@[simp] theorem Dev.inc_ops (f : Fld) : (d.inc f).ops = d.ops := Dev.addTo_ops d f 1
@[simp] theorem Dev.inc_results (f : Fld) : (d.inc f).results = d.results := Dev.addTo_results d f 1
@[simp] theorem Dev.inc_lastBist (f : Fld) : (d.inc f).lastBist = d.lastBist := Dev.addTo_lastBist d f 1
@[simp] theorem Dev.inc_lastBistDigest (f : Fld) : (d.inc f).lastBistDigest = d.lastBistDigest := Dev.addTo_lastBistDigest d f 1
@[simp] theorem Dev.inc_resetAt (f : Fld) : (d.inc f).resetAt = d.resetAt := Dev.addTo_resetAt d f 1
@[simp] theorem Dev.inc_leaveQ (f : Fld) : (d.inc f).leaveQ = d.leaveQ := Dev.addTo_leaveQ d f 1
@[simp] theorem Dev.inc_hubGrant (f : Fld) : (d.inc f).hubGrant = d.hubGrant := Dev.addTo_hubGrant d f 1
@[simp] theorem Dev.inc_resting (f : Fld) : (d.inc f).resting = d.resting := Dev.addTo_resting d f 1
@[simp] theorem Dev.inc_gated (f : Fld) : (d.inc f).gated = d.gated := Dev.addTo_gated d f 1
@[simp] theorem Dev.inc_unlocked (f : Fld) : (d.inc f).unlocked = d.unlocked := Dev.addTo_unlocked d f 1
@[simp] theorem Dev.inc_hotSensors (f : Fld) : (d.inc f).hotSensors = d.hotSensors := Dev.addTo_hotSensors d f 1
@[simp] theorem Dev.inc_railHist (f : Fld) : (d.inc f).railHist = d.railHist := Dev.addTo_railHist d f 1
@[simp] theorem Dev.inc_bist (f : Fld) : (d.inc f).bist = d.bist := Dev.addTo_bist d f 1
@[simp] theorem Dev.inc_frz (f : Fld) : (d.inc f).frz = d.frz := Dev.addTo_frz d f 1
@[simp] theorem Dev.inc_faults (f : Fld) : (d.inc f).faults = d.faults := Dev.addTo_faults d f 1
@[simp] theorem Dev.inc_bytes (f : Fld) (x y : Nat) : (d.inc f).bytes x y = d.bytes x y := by simp [Dev.bytes]
@[simp] theorem Dev.inc_chan (f : Fld) (x y : Nat) : (d.inc f).chan x y = d.chan x y := by simp [Dev.chan]
@[simp] theorem Dev.inc_bn (f : Fld) (x : Nat) : (d.inc f).bn x = d.bn x := by simp [Dev.bn]

/-! ### d.addCycles f -/

@[simp] theorem Dev.addCycles_mem (f : Fld) : (d.addCycles f).mem = d.mem := by simp [Dev.addCycles, Dev.free?]
@[simp] theorem Dev.addCycles_errs (f : Fld) : (d.addCycles f).errs = d.errs := by simp [Dev.addCycles, Dev.free?]
@[simp] theorem Dev.addCycles_tags (f : Fld) : (d.addCycles f).tags = d.tags := by simp [Dev.addCycles, Dev.free?]
@[simp] theorem Dev.addCycles_tagErrs (f : Fld) : (d.addCycles f).tagErrs = d.tagErrs := by simp [Dev.addCycles, Dev.free?]
@[simp] theorem Dev.addCycles_staged (f : Fld) : (d.addCycles f).staged = d.staged := by simp [Dev.addCycles, Dev.free?]
@[simp] theorem Dev.addCycles_arith (f : Fld) : (d.addCycles f).arith = d.arith := by simp [Dev.addCycles, Dev.free?]
@[simp] theorem Dev.addCycles_aonBeat (f : Fld) : (d.addCycles f).aonBeat = d.aonBeat := by simp [Dev.addCycles, Dev.free?]
@[simp] theorem Dev.addCycles_countedBeats (f : Fld) : (d.addCycles f).countedBeats = d.countedBeats := by simp [Dev.addCycles, Dev.free?]
@[simp] theorem Dev.addCycles_ageBeats (f : Fld) : (d.addCycles f).ageBeats = d.ageBeats := by simp [Dev.addCycles, Dev.free?]
@[simp] theorem Dev.addCycles_liveBeats (f : Fld) : (d.addCycles f).liveBeats = d.liveBeats := by simp [Dev.addCycles, Dev.free?]
@[simp] theorem Dev.addCycles_log (f : Fld) : (d.addCycles f).log = d.log := by simp [Dev.addCycles, Dev.free?]
@[simp] theorem Dev.addCycles_logHeld (f : Fld) : (d.addCycles f).logHeld = d.logHeld := by simp [Dev.addCycles, Dev.free?]
@[simp] theorem Dev.addCycles_bench (f : Fld) : (d.addCycles f).bench = d.bench := by simp [Dev.addCycles, Dev.free?]
@[simp] theorem Dev.addCycles_outbox (f : Fld) : (d.addCycles f).outbox = d.outbox := by simp [Dev.addCycles, Dev.free?]
@[simp] theorem Dev.addCycles_upq (f : Fld) : (d.addCycles f).upq = d.upq := by simp [Dev.addCycles, Dev.free?]
@[simp] theorem Dev.addCycles_granted (f : Fld) : (d.addCycles f).granted = d.granted := by simp [Dev.addCycles, Dev.free?]
@[simp] theorem Dev.addCycles_maxNeed (f : Fld) : (d.addCycles f).maxNeed = d.maxNeed := by simp [Dev.addCycles, Dev.free?]
@[simp] theorem Dev.addCycles_chans (f : Fld) : (d.addCycles f).chans = d.chans := by simp [Dev.addCycles, Dev.free?]
@[simp] theorem Dev.addCycles_net (f : Fld) : (d.addCycles f).net = d.net := by simp [Dev.addCycles, Dev.free?]
@[simp] theorem Dev.addCycles_floors (f : Fld) : (d.addCycles f).floors = d.floors := by simp [Dev.addCycles, Dev.free?]
@[simp] theorem Dev.addCycles_fences (f : Fld) : (d.addCycles f).fences = d.fences := by simp [Dev.addCycles, Dev.free?]
@[simp] theorem Dev.addCycles_step (f : Fld) : (d.addCycles f).step = d.step := by simp [Dev.addCycles, Dev.free?]
@[simp] theorem Dev.addCycles_job (f : Fld) : (d.addCycles f).job = d.job := by simp [Dev.addCycles, Dev.free?]
@[simp] theorem Dev.addCycles_saved (f : Fld) : (d.addCycles f).saved = d.saved := by simp [Dev.addCycles, Dev.free?]
@[simp] theorem Dev.addCycles_lat (f : Fld) : (d.addCycles f).lat = d.lat := by simp [Dev.addCycles, Dev.free?]
@[simp] theorem Dev.addCycles_flash (f : Fld) : (d.addCycles f).flash = d.flash := by simp [Dev.addCycles, Dev.free?]
@[simp] theorem Dev.addCycles_boot (f : Fld) : (d.addCycles f).boot = d.boot := by simp [Dev.addCycles, Dev.free?]
@[simp] theorem Dev.addCycles_pins (f : Fld) : (d.addCycles f).pins = d.pins := by simp [Dev.addCycles, Dev.free?]
@[simp] theorem Dev.addCycles_time (f : Fld) : (d.addCycles f).time = d.time := by simp [Dev.addCycles, Dev.free?]
@[simp] theorem Dev.addCycles_slipLeft (f : Fld) : (d.addCycles f).slipLeft = d.slipLeft := by simp [Dev.addCycles, Dev.free?]
@[simp] theorem Dev.addCycles_smiper (f : Fld) : (d.addCycles f).smiper = d.smiper := by simp [Dev.addCycles, Dev.free?]
@[simp] theorem Dev.addCycles_ops (f : Fld) : (d.addCycles f).ops = d.ops := by simp [Dev.addCycles, Dev.free?]
@[simp] theorem Dev.addCycles_results (f : Fld) : (d.addCycles f).results = d.results := by simp [Dev.addCycles, Dev.free?]
@[simp] theorem Dev.addCycles_lastBist (f : Fld) : (d.addCycles f).lastBist = d.lastBist := by simp [Dev.addCycles, Dev.free?]
@[simp] theorem Dev.addCycles_lastBistDigest (f : Fld) : (d.addCycles f).lastBistDigest = d.lastBistDigest := by simp [Dev.addCycles, Dev.free?]
@[simp] theorem Dev.addCycles_resetAt (f : Fld) : (d.addCycles f).resetAt = d.resetAt := by simp [Dev.addCycles, Dev.free?]
@[simp] theorem Dev.addCycles_leaveQ (f : Fld) : (d.addCycles f).leaveQ = d.leaveQ := by simp [Dev.addCycles, Dev.free?]
@[simp] theorem Dev.addCycles_hubGrant (f : Fld) : (d.addCycles f).hubGrant = d.hubGrant := by simp [Dev.addCycles, Dev.free?]
@[simp] theorem Dev.addCycles_resting (f : Fld) : (d.addCycles f).resting = d.resting := by simp [Dev.addCycles, Dev.free?]
@[simp] theorem Dev.addCycles_gated (f : Fld) : (d.addCycles f).gated = d.gated := by simp [Dev.addCycles, Dev.free?]
@[simp] theorem Dev.addCycles_unlocked (f : Fld) : (d.addCycles f).unlocked = d.unlocked := by simp [Dev.addCycles, Dev.free?]
@[simp] theorem Dev.addCycles_hotSensors (f : Fld) : (d.addCycles f).hotSensors = d.hotSensors := by simp [Dev.addCycles, Dev.free?]
@[simp] theorem Dev.addCycles_railHist (f : Fld) : (d.addCycles f).railHist = d.railHist := by simp [Dev.addCycles, Dev.free?]
@[simp] theorem Dev.addCycles_bist (f : Fld) : (d.addCycles f).bist = d.bist := by simp [Dev.addCycles, Dev.free?]
@[simp] theorem Dev.addCycles_frz (f : Fld) : (d.addCycles f).frz = d.frz := by simp [Dev.addCycles, Dev.free?]
@[simp] theorem Dev.addCycles_faults (f : Fld) : (d.addCycles f).faults = d.faults := by simp [Dev.addCycles, Dev.free?]
@[simp] theorem Dev.addCycles_bytes (f : Fld) (x y : Nat) : (d.addCycles f).bytes x y = d.bytes x y := by simp [Dev.bytes]
@[simp] theorem Dev.addCycles_chan (f : Fld) (x y : Nat) : (d.addCycles f).chan x y = d.chan x y := by simp [Dev.chan]
@[simp] theorem Dev.addCycles_bn (f : Fld) (x : Nat) : (d.addCycles f).bn x = d.bn x := by simp [Dev.bn]

/-! ### d.logEv s e l -/

@[simp] theorem Dev.logEv_mem (s e : Nat) (l : List W64) : (d.logEv s e l).mem = d.mem := rfl
@[simp] theorem Dev.logEv_errs (s e : Nat) (l : List W64) : (d.logEv s e l).errs = d.errs := rfl
@[simp] theorem Dev.logEv_tags (s e : Nat) (l : List W64) : (d.logEv s e l).tags = d.tags := rfl
@[simp] theorem Dev.logEv_tagErrs (s e : Nat) (l : List W64) : (d.logEv s e l).tagErrs = d.tagErrs := rfl
@[simp] theorem Dev.logEv_regs (s e : Nat) (l : List W64) : (d.logEv s e l).regs = d.regs := rfl
@[simp] theorem Dev.logEv_staged (s e : Nat) (l : List W64) : (d.logEv s e l).staged = d.staged := rfl
@[simp] theorem Dev.logEv_arith (s e : Nat) (l : List W64) : (d.logEv s e l).arith = d.arith := rfl
@[simp] theorem Dev.logEv_aonBeat (s e : Nat) (l : List W64) : (d.logEv s e l).aonBeat = d.aonBeat := rfl
@[simp] theorem Dev.logEv_countedBeats (s e : Nat) (l : List W64) : (d.logEv s e l).countedBeats = d.countedBeats := rfl
@[simp] theorem Dev.logEv_ageBeats (s e : Nat) (l : List W64) : (d.logEv s e l).ageBeats = d.ageBeats := rfl
@[simp] theorem Dev.logEv_liveBeats (s e : Nat) (l : List W64) : (d.logEv s e l).liveBeats = d.liveBeats := rfl
@[simp] theorem Dev.logEv_log (s e : Nat) (l : List W64) : (d.logEv s e l).log = d.log := rfl
@[simp] theorem Dev.logEv_bench (s e : Nat) (l : List W64) : (d.logEv s e l).bench = d.bench := rfl
@[simp] theorem Dev.logEv_outbox (s e : Nat) (l : List W64) : (d.logEv s e l).outbox = d.outbox := rfl
@[simp] theorem Dev.logEv_upq (s e : Nat) (l : List W64) : (d.logEv s e l).upq = d.upq := rfl
@[simp] theorem Dev.logEv_granted (s e : Nat) (l : List W64) : (d.logEv s e l).granted = d.granted := rfl
@[simp] theorem Dev.logEv_maxNeed (s e : Nat) (l : List W64) : (d.logEv s e l).maxNeed = d.maxNeed := rfl
@[simp] theorem Dev.logEv_chans (s e : Nat) (l : List W64) : (d.logEv s e l).chans = d.chans := rfl
@[simp] theorem Dev.logEv_net (s e : Nat) (l : List W64) : (d.logEv s e l).net = d.net := rfl
@[simp] theorem Dev.logEv_floors (s e : Nat) (l : List W64) : (d.logEv s e l).floors = d.floors := rfl
@[simp] theorem Dev.logEv_fences (s e : Nat) (l : List W64) : (d.logEv s e l).fences = d.fences := rfl
@[simp] theorem Dev.logEv_step (s e : Nat) (l : List W64) : (d.logEv s e l).step = d.step := rfl
@[simp] theorem Dev.logEv_job (s e : Nat) (l : List W64) : (d.logEv s e l).job = d.job := rfl
@[simp] theorem Dev.logEv_saved (s e : Nat) (l : List W64) : (d.logEv s e l).saved = d.saved := rfl
@[simp] theorem Dev.logEv_lat (s e : Nat) (l : List W64) : (d.logEv s e l).lat = d.lat := rfl
@[simp] theorem Dev.logEv_flash (s e : Nat) (l : List W64) : (d.logEv s e l).flash = d.flash := rfl
@[simp] theorem Dev.logEv_boot (s e : Nat) (l : List W64) : (d.logEv s e l).boot = d.boot := rfl
@[simp] theorem Dev.logEv_pins (s e : Nat) (l : List W64) : (d.logEv s e l).pins = d.pins := rfl
@[simp] theorem Dev.logEv_time (s e : Nat) (l : List W64) : (d.logEv s e l).time = d.time := rfl
@[simp] theorem Dev.logEv_slipLeft (s e : Nat) (l : List W64) : (d.logEv s e l).slipLeft = d.slipLeft := rfl
@[simp] theorem Dev.logEv_smiper (s e : Nat) (l : List W64) : (d.logEv s e l).smiper = d.smiper := rfl
@[simp] theorem Dev.logEv_ops (s e : Nat) (l : List W64) : (d.logEv s e l).ops = d.ops := rfl
@[simp] theorem Dev.logEv_results (s e : Nat) (l : List W64) : (d.logEv s e l).results = d.results := rfl
@[simp] theorem Dev.logEv_lastBist (s e : Nat) (l : List W64) : (d.logEv s e l).lastBist = d.lastBist := rfl
@[simp] theorem Dev.logEv_lastBistDigest (s e : Nat) (l : List W64) : (d.logEv s e l).lastBistDigest = d.lastBistDigest := rfl
@[simp] theorem Dev.logEv_resetAt (s e : Nat) (l : List W64) : (d.logEv s e l).resetAt = d.resetAt := rfl
@[simp] theorem Dev.logEv_leaveQ (s e : Nat) (l : List W64) : (d.logEv s e l).leaveQ = d.leaveQ := rfl
@[simp] theorem Dev.logEv_hubGrant (s e : Nat) (l : List W64) : (d.logEv s e l).hubGrant = d.hubGrant := rfl
@[simp] theorem Dev.logEv_resting (s e : Nat) (l : List W64) : (d.logEv s e l).resting = d.resting := rfl
@[simp] theorem Dev.logEv_gated (s e : Nat) (l : List W64) : (d.logEv s e l).gated = d.gated := rfl
@[simp] theorem Dev.logEv_unlocked (s e : Nat) (l : List W64) : (d.logEv s e l).unlocked = d.unlocked := rfl
@[simp] theorem Dev.logEv_hotSensors (s e : Nat) (l : List W64) : (d.logEv s e l).hotSensors = d.hotSensors := rfl
@[simp] theorem Dev.logEv_railHist (s e : Nat) (l : List W64) : (d.logEv s e l).railHist = d.railHist := rfl
@[simp] theorem Dev.logEv_bist (s e : Nat) (l : List W64) : (d.logEv s e l).bist = d.bist := rfl
@[simp] theorem Dev.logEv_frz (s e : Nat) (l : List W64) : (d.logEv s e l).frz = d.frz := rfl
@[simp] theorem Dev.logEv_faults (s e : Nat) (l : List W64) : (d.logEv s e l).faults = d.faults := rfl
@[simp] theorem Dev.logEv_reg (s e : Nat) (l : List W64) (x : Nat) : (d.logEv s e l).reg x = d.reg x := by simp [Dev.reg]
@[simp] theorem Dev.logEv_get (s e : Nat) (l : List W64) (x : Fld) : (d.logEv s e l).get x = d.get x := by simp [Dev.get]
@[simp] theorem Dev.logEv_bytes (s e : Nat) (l : List W64) (x y : Nat) : (d.logEv s e l).bytes x y = d.bytes x y := by simp [Dev.bytes]
@[simp] theorem Dev.logEv_chan (s e : Nat) (l : List W64) (x y : Nat) : (d.logEv s e l).chan x y = d.chan x y := by simp [Dev.chan]
@[simp] theorem Dev.logEv_bn (s e : Nat) (l : List W64) (x : Nat) : (d.logEv s e l).bn x = d.bn x := by simp [Dev.bn]

/-! ### d.send o -/

@[simp] theorem Dev.send_mem (o : Out) : (d.send o).mem = d.mem := rfl
@[simp] theorem Dev.send_errs (o : Out) : (d.send o).errs = d.errs := rfl
@[simp] theorem Dev.send_tags (o : Out) : (d.send o).tags = d.tags := rfl
@[simp] theorem Dev.send_tagErrs (o : Out) : (d.send o).tagErrs = d.tagErrs := rfl
@[simp] theorem Dev.send_regs (o : Out) : (d.send o).regs = d.regs := rfl
@[simp] theorem Dev.send_staged (o : Out) : (d.send o).staged = d.staged := rfl
@[simp] theorem Dev.send_arith (o : Out) : (d.send o).arith = d.arith := rfl
@[simp] theorem Dev.send_aonBeat (o : Out) : (d.send o).aonBeat = d.aonBeat := rfl
@[simp] theorem Dev.send_countedBeats (o : Out) : (d.send o).countedBeats = d.countedBeats := rfl
@[simp] theorem Dev.send_ageBeats (o : Out) : (d.send o).ageBeats = d.ageBeats := rfl
@[simp] theorem Dev.send_liveBeats (o : Out) : (d.send o).liveBeats = d.liveBeats := rfl
@[simp] theorem Dev.send_log (o : Out) : (d.send o).log = d.log := rfl
@[simp] theorem Dev.send_logHeld (o : Out) : (d.send o).logHeld = d.logHeld := rfl
@[simp] theorem Dev.send_bench (o : Out) : (d.send o).bench = d.bench := rfl
@[simp] theorem Dev.send_upq (o : Out) : (d.send o).upq = d.upq := rfl
@[simp] theorem Dev.send_granted (o : Out) : (d.send o).granted = d.granted := rfl
@[simp] theorem Dev.send_maxNeed (o : Out) : (d.send o).maxNeed = d.maxNeed := rfl
@[simp] theorem Dev.send_free (o : Out) : (d.send o).free = d.free := rfl
@[simp] theorem Dev.send_chans (o : Out) : (d.send o).chans = d.chans := rfl
@[simp] theorem Dev.send_net (o : Out) : (d.send o).net = d.net := rfl
@[simp] theorem Dev.send_floors (o : Out) : (d.send o).floors = d.floors := rfl
@[simp] theorem Dev.send_fences (o : Out) : (d.send o).fences = d.fences := rfl
@[simp] theorem Dev.send_step (o : Out) : (d.send o).step = d.step := rfl
@[simp] theorem Dev.send_job (o : Out) : (d.send o).job = d.job := rfl
@[simp] theorem Dev.send_saved (o : Out) : (d.send o).saved = d.saved := rfl
@[simp] theorem Dev.send_lat (o : Out) : (d.send o).lat = d.lat := rfl
@[simp] theorem Dev.send_flash (o : Out) : (d.send o).flash = d.flash := rfl
@[simp] theorem Dev.send_boot (o : Out) : (d.send o).boot = d.boot := rfl
@[simp] theorem Dev.send_pins (o : Out) : (d.send o).pins = d.pins := rfl
@[simp] theorem Dev.send_time (o : Out) : (d.send o).time = d.time := rfl
@[simp] theorem Dev.send_slipLeft (o : Out) : (d.send o).slipLeft = d.slipLeft := rfl
@[simp] theorem Dev.send_smiper (o : Out) : (d.send o).smiper = d.smiper := rfl
@[simp] theorem Dev.send_ops (o : Out) : (d.send o).ops = d.ops := rfl
@[simp] theorem Dev.send_results (o : Out) : (d.send o).results = d.results := rfl
@[simp] theorem Dev.send_lastBist (o : Out) : (d.send o).lastBist = d.lastBist := rfl
@[simp] theorem Dev.send_lastBistDigest (o : Out) : (d.send o).lastBistDigest = d.lastBistDigest := rfl
@[simp] theorem Dev.send_resetAt (o : Out) : (d.send o).resetAt = d.resetAt := rfl
@[simp] theorem Dev.send_leaveQ (o : Out) : (d.send o).leaveQ = d.leaveQ := rfl
@[simp] theorem Dev.send_hubGrant (o : Out) : (d.send o).hubGrant = d.hubGrant := rfl
@[simp] theorem Dev.send_resting (o : Out) : (d.send o).resting = d.resting := rfl
@[simp] theorem Dev.send_gated (o : Out) : (d.send o).gated = d.gated := rfl
@[simp] theorem Dev.send_unlocked (o : Out) : (d.send o).unlocked = d.unlocked := rfl
@[simp] theorem Dev.send_hotSensors (o : Out) : (d.send o).hotSensors = d.hotSensors := rfl
@[simp] theorem Dev.send_railHist (o : Out) : (d.send o).railHist = d.railHist := rfl
@[simp] theorem Dev.send_bist (o : Out) : (d.send o).bist = d.bist := rfl
@[simp] theorem Dev.send_frz (o : Out) : (d.send o).frz = d.frz := rfl
@[simp] theorem Dev.send_faults (o : Out) : (d.send o).faults = d.faults := rfl
@[simp] theorem Dev.send_reg (o : Out) (x : Nat) : (d.send o).reg x = d.reg x := by simp [Dev.reg]
@[simp] theorem Dev.send_get (o : Out) (x : Fld) : (d.send o).get x = d.get x := by simp [Dev.get]
@[simp] theorem Dev.send_bytes (o : Out) (x y : Nat) : (d.send o).bytes x y = d.bytes x y := by simp [Dev.bytes]
@[simp] theorem Dev.send_chan (o : Out) (x y : Nat) : (d.send o).chan x y = d.chan x y := by simp [Dev.chan]
@[simp] theorem Dev.send_bn (o : Out) (x : Nat) : (d.send o).bn x = d.bn x := by simp [Dev.bn]

/-! ### d.wr a l -/

@[simp] theorem Dev.wr_tags (a : Nat) (l : List Byte) : (d.wr a l).tags = d.tags := by unfold Dev.wr; split <;> rfl
@[simp] theorem Dev.wr_tagErrs (a : Nat) (l : List Byte) : (d.wr a l).tagErrs = d.tagErrs := by unfold Dev.wr; split <;> rfl
@[simp] theorem Dev.wr_regs (a : Nat) (l : List Byte) : (d.wr a l).regs = d.regs := by unfold Dev.wr; split <;> rfl
@[simp] theorem Dev.wr_staged (a : Nat) (l : List Byte) : (d.wr a l).staged = d.staged := by unfold Dev.wr; split <;> rfl
@[simp] theorem Dev.wr_arith (a : Nat) (l : List Byte) : (d.wr a l).arith = d.arith := by unfold Dev.wr; split <;> rfl
@[simp] theorem Dev.wr_aonBeat (a : Nat) (l : List Byte) : (d.wr a l).aonBeat = d.aonBeat := by unfold Dev.wr; split <;> rfl
@[simp] theorem Dev.wr_countedBeats (a : Nat) (l : List Byte) : (d.wr a l).countedBeats = d.countedBeats := by unfold Dev.wr; split <;> rfl
@[simp] theorem Dev.wr_ageBeats (a : Nat) (l : List Byte) : (d.wr a l).ageBeats = d.ageBeats := by unfold Dev.wr; split <;> rfl
@[simp] theorem Dev.wr_liveBeats (a : Nat) (l : List Byte) : (d.wr a l).liveBeats = d.liveBeats := by unfold Dev.wr; split <;> rfl
@[simp] theorem Dev.wr_log (a : Nat) (l : List Byte) : (d.wr a l).log = d.log := by unfold Dev.wr; split <;> rfl
@[simp] theorem Dev.wr_logHeld (a : Nat) (l : List Byte) : (d.wr a l).logHeld = d.logHeld := by unfold Dev.wr; split <;> rfl
@[simp] theorem Dev.wr_bench (a : Nat) (l : List Byte) : (d.wr a l).bench = d.bench := by unfold Dev.wr; split <;> rfl
@[simp] theorem Dev.wr_outbox (a : Nat) (l : List Byte) : (d.wr a l).outbox = d.outbox := by unfold Dev.wr; split <;> rfl
@[simp] theorem Dev.wr_upq (a : Nat) (l : List Byte) : (d.wr a l).upq = d.upq := by unfold Dev.wr; split <;> rfl
@[simp] theorem Dev.wr_granted (a : Nat) (l : List Byte) : (d.wr a l).granted = d.granted := by unfold Dev.wr; split <;> rfl
@[simp] theorem Dev.wr_maxNeed (a : Nat) (l : List Byte) : (d.wr a l).maxNeed = d.maxNeed := by unfold Dev.wr; split <;> rfl
@[simp] theorem Dev.wr_free (a : Nat) (l : List Byte) : (d.wr a l).free = d.free := by unfold Dev.wr; split <;> rfl
@[simp] theorem Dev.wr_chans (a : Nat) (l : List Byte) : (d.wr a l).chans = d.chans := by unfold Dev.wr; split <;> rfl
@[simp] theorem Dev.wr_net (a : Nat) (l : List Byte) : (d.wr a l).net = d.net := by unfold Dev.wr; split <;> rfl
@[simp] theorem Dev.wr_floors (a : Nat) (l : List Byte) : (d.wr a l).floors = d.floors := by unfold Dev.wr; split <;> rfl
@[simp] theorem Dev.wr_fences (a : Nat) (l : List Byte) : (d.wr a l).fences = d.fences := by unfold Dev.wr; split <;> rfl
@[simp] theorem Dev.wr_step (a : Nat) (l : List Byte) : (d.wr a l).step = d.step := by unfold Dev.wr; split <;> rfl
@[simp] theorem Dev.wr_job (a : Nat) (l : List Byte) : (d.wr a l).job = d.job := by unfold Dev.wr; split <;> rfl
@[simp] theorem Dev.wr_saved (a : Nat) (l : List Byte) : (d.wr a l).saved = d.saved := by unfold Dev.wr; split <;> rfl
@[simp] theorem Dev.wr_lat (a : Nat) (l : List Byte) : (d.wr a l).lat = d.lat := by unfold Dev.wr; split <;> rfl
@[simp] theorem Dev.wr_flash (a : Nat) (l : List Byte) : (d.wr a l).flash = d.flash := by unfold Dev.wr; split <;> rfl
@[simp] theorem Dev.wr_boot (a : Nat) (l : List Byte) : (d.wr a l).boot = d.boot := by unfold Dev.wr; split <;> rfl
@[simp] theorem Dev.wr_pins (a : Nat) (l : List Byte) : (d.wr a l).pins = d.pins := by unfold Dev.wr; split <;> rfl
@[simp] theorem Dev.wr_time (a : Nat) (l : List Byte) : (d.wr a l).time = d.time := by unfold Dev.wr; split <;> rfl
@[simp] theorem Dev.wr_slipLeft (a : Nat) (l : List Byte) : (d.wr a l).slipLeft = d.slipLeft := by unfold Dev.wr; split <;> rfl
@[simp] theorem Dev.wr_smiper (a : Nat) (l : List Byte) : (d.wr a l).smiper = d.smiper := by unfold Dev.wr; split <;> rfl
@[simp] theorem Dev.wr_ops (a : Nat) (l : List Byte) : (d.wr a l).ops = d.ops := by unfold Dev.wr; split <;> rfl
@[simp] theorem Dev.wr_results (a : Nat) (l : List Byte) : (d.wr a l).results = d.results := by unfold Dev.wr; split <;> rfl
@[simp] theorem Dev.wr_lastBist (a : Nat) (l : List Byte) : (d.wr a l).lastBist = d.lastBist := by unfold Dev.wr; split <;> rfl
@[simp] theorem Dev.wr_lastBistDigest (a : Nat) (l : List Byte) : (d.wr a l).lastBistDigest = d.lastBistDigest := by unfold Dev.wr; split <;> rfl
@[simp] theorem Dev.wr_resetAt (a : Nat) (l : List Byte) : (d.wr a l).resetAt = d.resetAt := by unfold Dev.wr; split <;> rfl
@[simp] theorem Dev.wr_leaveQ (a : Nat) (l : List Byte) : (d.wr a l).leaveQ = d.leaveQ := by unfold Dev.wr; split <;> rfl
@[simp] theorem Dev.wr_hubGrant (a : Nat) (l : List Byte) : (d.wr a l).hubGrant = d.hubGrant := by unfold Dev.wr; split <;> rfl
@[simp] theorem Dev.wr_resting (a : Nat) (l : List Byte) : (d.wr a l).resting = d.resting := by unfold Dev.wr; split <;> rfl
@[simp] theorem Dev.wr_gated (a : Nat) (l : List Byte) : (d.wr a l).gated = d.gated := by unfold Dev.wr; split <;> rfl
@[simp] theorem Dev.wr_unlocked (a : Nat) (l : List Byte) : (d.wr a l).unlocked = d.unlocked := by unfold Dev.wr; split <;> rfl
@[simp] theorem Dev.wr_hotSensors (a : Nat) (l : List Byte) : (d.wr a l).hotSensors = d.hotSensors := by unfold Dev.wr; split <;> rfl
@[simp] theorem Dev.wr_railHist (a : Nat) (l : List Byte) : (d.wr a l).railHist = d.railHist := by unfold Dev.wr; split <;> rfl
@[simp] theorem Dev.wr_bist (a : Nat) (l : List Byte) : (d.wr a l).bist = d.bist := by unfold Dev.wr; split <;> rfl
@[simp] theorem Dev.wr_frz (a : Nat) (l : List Byte) : (d.wr a l).frz = d.frz := by unfold Dev.wr; split <;> rfl
@[simp] theorem Dev.wr_faults (a : Nat) (l : List Byte) : (d.wr a l).faults = d.faults := by unfold Dev.wr; split <;> rfl
@[simp] theorem Dev.wr_reg (a : Nat) (l : List Byte) (x : Nat) : (d.wr a l).reg x = d.reg x := by simp [Dev.reg]
@[simp] theorem Dev.wr_get (a : Nat) (l : List Byte) (x : Fld) : (d.wr a l).get x = d.get x := by simp [Dev.get]
@[simp] theorem Dev.wr_chan (a : Nat) (l : List Byte) (x y : Nat) : (d.wr a l).chan x y = d.chan x y := by simp [Dev.chan]
@[simp] theorem Dev.wr_bn (a : Nat) (l : List Byte) (x : Nat) : (d.wr a l).bn x = d.bn x := by simp [Dev.bn]

/-! ### d.zeroRange a n -/

@[simp] theorem Dev.zeroRange_tags (a n : Nat) : (d.zeroRange a n).tags = d.tags := rfl
@[simp] theorem Dev.zeroRange_tagErrs (a n : Nat) : (d.zeroRange a n).tagErrs = d.tagErrs := rfl
@[simp] theorem Dev.zeroRange_regs (a n : Nat) : (d.zeroRange a n).regs = d.regs := rfl
@[simp] theorem Dev.zeroRange_staged (a n : Nat) : (d.zeroRange a n).staged = d.staged := rfl
@[simp] theorem Dev.zeroRange_arith (a n : Nat) : (d.zeroRange a n).arith = d.arith := rfl
@[simp] theorem Dev.zeroRange_aonBeat (a n : Nat) : (d.zeroRange a n).aonBeat = d.aonBeat := rfl
@[simp] theorem Dev.zeroRange_countedBeats (a n : Nat) : (d.zeroRange a n).countedBeats = d.countedBeats := rfl
@[simp] theorem Dev.zeroRange_ageBeats (a n : Nat) : (d.zeroRange a n).ageBeats = d.ageBeats := rfl
@[simp] theorem Dev.zeroRange_liveBeats (a n : Nat) : (d.zeroRange a n).liveBeats = d.liveBeats := rfl
@[simp] theorem Dev.zeroRange_log (a n : Nat) : (d.zeroRange a n).log = d.log := rfl
@[simp] theorem Dev.zeroRange_logHeld (a n : Nat) : (d.zeroRange a n).logHeld = d.logHeld := rfl
@[simp] theorem Dev.zeroRange_bench (a n : Nat) : (d.zeroRange a n).bench = d.bench := rfl
@[simp] theorem Dev.zeroRange_outbox (a n : Nat) : (d.zeroRange a n).outbox = d.outbox := rfl
@[simp] theorem Dev.zeroRange_upq (a n : Nat) : (d.zeroRange a n).upq = d.upq := rfl
@[simp] theorem Dev.zeroRange_granted (a n : Nat) : (d.zeroRange a n).granted = d.granted := rfl
@[simp] theorem Dev.zeroRange_maxNeed (a n : Nat) : (d.zeroRange a n).maxNeed = d.maxNeed := rfl
@[simp] theorem Dev.zeroRange_free (a n : Nat) : (d.zeroRange a n).free = d.free := rfl
@[simp] theorem Dev.zeroRange_chans (a n : Nat) : (d.zeroRange a n).chans = d.chans := rfl
@[simp] theorem Dev.zeroRange_net (a n : Nat) : (d.zeroRange a n).net = d.net := rfl
@[simp] theorem Dev.zeroRange_floors (a n : Nat) : (d.zeroRange a n).floors = d.floors := rfl
@[simp] theorem Dev.zeroRange_fences (a n : Nat) : (d.zeroRange a n).fences = d.fences := rfl
@[simp] theorem Dev.zeroRange_step (a n : Nat) : (d.zeroRange a n).step = d.step := rfl
@[simp] theorem Dev.zeroRange_job (a n : Nat) : (d.zeroRange a n).job = d.job := rfl
@[simp] theorem Dev.zeroRange_saved (a n : Nat) : (d.zeroRange a n).saved = d.saved := rfl
@[simp] theorem Dev.zeroRange_lat (a n : Nat) : (d.zeroRange a n).lat = d.lat := rfl
@[simp] theorem Dev.zeroRange_flash (a n : Nat) : (d.zeroRange a n).flash = d.flash := rfl
@[simp] theorem Dev.zeroRange_boot (a n : Nat) : (d.zeroRange a n).boot = d.boot := rfl
@[simp] theorem Dev.zeroRange_pins (a n : Nat) : (d.zeroRange a n).pins = d.pins := rfl
@[simp] theorem Dev.zeroRange_time (a n : Nat) : (d.zeroRange a n).time = d.time := rfl
@[simp] theorem Dev.zeroRange_slipLeft (a n : Nat) : (d.zeroRange a n).slipLeft = d.slipLeft := rfl
@[simp] theorem Dev.zeroRange_smiper (a n : Nat) : (d.zeroRange a n).smiper = d.smiper := rfl
@[simp] theorem Dev.zeroRange_ops (a n : Nat) : (d.zeroRange a n).ops = d.ops := rfl
@[simp] theorem Dev.zeroRange_results (a n : Nat) : (d.zeroRange a n).results = d.results := rfl
@[simp] theorem Dev.zeroRange_lastBist (a n : Nat) : (d.zeroRange a n).lastBist = d.lastBist := rfl
@[simp] theorem Dev.zeroRange_lastBistDigest (a n : Nat) : (d.zeroRange a n).lastBistDigest = d.lastBistDigest := rfl
@[simp] theorem Dev.zeroRange_resetAt (a n : Nat) : (d.zeroRange a n).resetAt = d.resetAt := rfl
@[simp] theorem Dev.zeroRange_leaveQ (a n : Nat) : (d.zeroRange a n).leaveQ = d.leaveQ := rfl
@[simp] theorem Dev.zeroRange_hubGrant (a n : Nat) : (d.zeroRange a n).hubGrant = d.hubGrant := rfl
@[simp] theorem Dev.zeroRange_resting (a n : Nat) : (d.zeroRange a n).resting = d.resting := rfl
@[simp] theorem Dev.zeroRange_gated (a n : Nat) : (d.zeroRange a n).gated = d.gated := rfl
@[simp] theorem Dev.zeroRange_unlocked (a n : Nat) : (d.zeroRange a n).unlocked = d.unlocked := rfl
@[simp] theorem Dev.zeroRange_hotSensors (a n : Nat) : (d.zeroRange a n).hotSensors = d.hotSensors := rfl
@[simp] theorem Dev.zeroRange_railHist (a n : Nat) : (d.zeroRange a n).railHist = d.railHist := rfl
@[simp] theorem Dev.zeroRange_bist (a n : Nat) : (d.zeroRange a n).bist = d.bist := rfl
@[simp] theorem Dev.zeroRange_frz (a n : Nat) : (d.zeroRange a n).frz = d.frz := rfl
@[simp] theorem Dev.zeroRange_faults (a n : Nat) : (d.zeroRange a n).faults = d.faults := rfl
@[simp] theorem Dev.zeroRange_reg (a n : Nat) (x : Nat) : (d.zeroRange a n).reg x = d.reg x := by simp [Dev.reg]
@[simp] theorem Dev.zeroRange_get (a n : Nat) (x : Fld) : (d.zeroRange a n).get x = d.get x := by simp [Dev.get]
@[simp] theorem Dev.zeroRange_chan (a n : Nat) (x y : Nat) : (d.zeroRange a n).chan x y = d.chan x y := by simp [Dev.chan]
@[simp] theorem Dev.zeroRange_bn (a n : Nat) (x : Nat) : (d.zeroRange a n).bn x = d.bn x := by simp [Dev.bn]

/-! ### d.setBn b u -/

@[simp] theorem Dev.setBn_mem (b : Nat) (u : Bench) : (d.setBn b u).mem = d.mem := rfl
@[simp] theorem Dev.setBn_errs (b : Nat) (u : Bench) : (d.setBn b u).errs = d.errs := rfl
@[simp] theorem Dev.setBn_tags (b : Nat) (u : Bench) : (d.setBn b u).tags = d.tags := rfl
@[simp] theorem Dev.setBn_tagErrs (b : Nat) (u : Bench) : (d.setBn b u).tagErrs = d.tagErrs := rfl
@[simp] theorem Dev.setBn_regs (b : Nat) (u : Bench) : (d.setBn b u).regs = d.regs := rfl
@[simp] theorem Dev.setBn_staged (b : Nat) (u : Bench) : (d.setBn b u).staged = d.staged := rfl
@[simp] theorem Dev.setBn_arith (b : Nat) (u : Bench) : (d.setBn b u).arith = d.arith := rfl
@[simp] theorem Dev.setBn_aonBeat (b : Nat) (u : Bench) : (d.setBn b u).aonBeat = d.aonBeat := rfl
@[simp] theorem Dev.setBn_countedBeats (b : Nat) (u : Bench) : (d.setBn b u).countedBeats = d.countedBeats := rfl
@[simp] theorem Dev.setBn_ageBeats (b : Nat) (u : Bench) : (d.setBn b u).ageBeats = d.ageBeats := rfl
@[simp] theorem Dev.setBn_liveBeats (b : Nat) (u : Bench) : (d.setBn b u).liveBeats = d.liveBeats := rfl
@[simp] theorem Dev.setBn_log (b : Nat) (u : Bench) : (d.setBn b u).log = d.log := rfl
@[simp] theorem Dev.setBn_logHeld (b : Nat) (u : Bench) : (d.setBn b u).logHeld = d.logHeld := rfl
@[simp] theorem Dev.setBn_outbox (b : Nat) (u : Bench) : (d.setBn b u).outbox = d.outbox := rfl
@[simp] theorem Dev.setBn_upq (b : Nat) (u : Bench) : (d.setBn b u).upq = d.upq := rfl
@[simp] theorem Dev.setBn_granted (b : Nat) (u : Bench) : (d.setBn b u).granted = d.granted := rfl
@[simp] theorem Dev.setBn_maxNeed (b : Nat) (u : Bench) : (d.setBn b u).maxNeed = d.maxNeed := rfl
@[simp] theorem Dev.setBn_free (b : Nat) (u : Bench) : (d.setBn b u).free = d.free := rfl
@[simp] theorem Dev.setBn_chans (b : Nat) (u : Bench) : (d.setBn b u).chans = d.chans := rfl
@[simp] theorem Dev.setBn_net (b : Nat) (u : Bench) : (d.setBn b u).net = d.net := rfl
@[simp] theorem Dev.setBn_floors (b : Nat) (u : Bench) : (d.setBn b u).floors = d.floors := rfl
@[simp] theorem Dev.setBn_fences (b : Nat) (u : Bench) : (d.setBn b u).fences = d.fences := rfl
@[simp] theorem Dev.setBn_step (b : Nat) (u : Bench) : (d.setBn b u).step = d.step := rfl
@[simp] theorem Dev.setBn_job (b : Nat) (u : Bench) : (d.setBn b u).job = d.job := rfl
@[simp] theorem Dev.setBn_saved (b : Nat) (u : Bench) : (d.setBn b u).saved = d.saved := rfl
@[simp] theorem Dev.setBn_lat (b : Nat) (u : Bench) : (d.setBn b u).lat = d.lat := rfl
@[simp] theorem Dev.setBn_flash (b : Nat) (u : Bench) : (d.setBn b u).flash = d.flash := rfl
@[simp] theorem Dev.setBn_boot (b : Nat) (u : Bench) : (d.setBn b u).boot = d.boot := rfl
@[simp] theorem Dev.setBn_pins (b : Nat) (u : Bench) : (d.setBn b u).pins = d.pins := rfl
@[simp] theorem Dev.setBn_time (b : Nat) (u : Bench) : (d.setBn b u).time = d.time := rfl
@[simp] theorem Dev.setBn_slipLeft (b : Nat) (u : Bench) : (d.setBn b u).slipLeft = d.slipLeft := rfl
@[simp] theorem Dev.setBn_smiper (b : Nat) (u : Bench) : (d.setBn b u).smiper = d.smiper := rfl
@[simp] theorem Dev.setBn_ops (b : Nat) (u : Bench) : (d.setBn b u).ops = d.ops := rfl
@[simp] theorem Dev.setBn_results (b : Nat) (u : Bench) : (d.setBn b u).results = d.results := rfl
@[simp] theorem Dev.setBn_lastBist (b : Nat) (u : Bench) : (d.setBn b u).lastBist = d.lastBist := rfl
@[simp] theorem Dev.setBn_lastBistDigest (b : Nat) (u : Bench) : (d.setBn b u).lastBistDigest = d.lastBistDigest := rfl
@[simp] theorem Dev.setBn_resetAt (b : Nat) (u : Bench) : (d.setBn b u).resetAt = d.resetAt := rfl
@[simp] theorem Dev.setBn_leaveQ (b : Nat) (u : Bench) : (d.setBn b u).leaveQ = d.leaveQ := rfl
@[simp] theorem Dev.setBn_hubGrant (b : Nat) (u : Bench) : (d.setBn b u).hubGrant = d.hubGrant := rfl
@[simp] theorem Dev.setBn_resting (b : Nat) (u : Bench) : (d.setBn b u).resting = d.resting := rfl
@[simp] theorem Dev.setBn_gated (b : Nat) (u : Bench) : (d.setBn b u).gated = d.gated := rfl
@[simp] theorem Dev.setBn_unlocked (b : Nat) (u : Bench) : (d.setBn b u).unlocked = d.unlocked := rfl
@[simp] theorem Dev.setBn_hotSensors (b : Nat) (u : Bench) : (d.setBn b u).hotSensors = d.hotSensors := rfl
@[simp] theorem Dev.setBn_railHist (b : Nat) (u : Bench) : (d.setBn b u).railHist = d.railHist := rfl
@[simp] theorem Dev.setBn_bist (b : Nat) (u : Bench) : (d.setBn b u).bist = d.bist := rfl
@[simp] theorem Dev.setBn_frz (b : Nat) (u : Bench) : (d.setBn b u).frz = d.frz := rfl
@[simp] theorem Dev.setBn_faults (b : Nat) (u : Bench) : (d.setBn b u).faults = d.faults := rfl
@[simp] theorem Dev.setBn_reg (b : Nat) (u : Bench) (x : Nat) : (d.setBn b u).reg x = d.reg x := by simp [Dev.reg]
@[simp] theorem Dev.setBn_get (b : Nat) (u : Bench) (x : Fld) : (d.setBn b u).get x = d.get x := by simp [Dev.get]
@[simp] theorem Dev.setBn_bytes (b : Nat) (u : Bench) (x y : Nat) : (d.setBn b u).bytes x y = d.bytes x y := by simp [Dev.bytes]
@[simp] theorem Dev.setBn_chan (b : Nat) (u : Bench) (x y : Nat) : (d.setBn b u).chan x y = d.chan x y := by simp [Dev.chan]

/-! ### d.setTags l v -/

@[simp] theorem Dev.setTags_mem (l : List Nat) (v : Bool) : (d.setTags l v).mem = d.mem := rfl
@[simp] theorem Dev.setTags_errs (l : List Nat) (v : Bool) : (d.setTags l v).errs = d.errs := rfl
@[simp] theorem Dev.setTags_tagErrs (l : List Nat) (v : Bool) : (d.setTags l v).tagErrs = d.tagErrs := rfl
@[simp] theorem Dev.setTags_regs (l : List Nat) (v : Bool) : (d.setTags l v).regs = d.regs := rfl
@[simp] theorem Dev.setTags_staged (l : List Nat) (v : Bool) : (d.setTags l v).staged = d.staged := rfl
@[simp] theorem Dev.setTags_arith (l : List Nat) (v : Bool) : (d.setTags l v).arith = d.arith := rfl
@[simp] theorem Dev.setTags_aonBeat (l : List Nat) (v : Bool) : (d.setTags l v).aonBeat = d.aonBeat := rfl
@[simp] theorem Dev.setTags_countedBeats (l : List Nat) (v : Bool) : (d.setTags l v).countedBeats = d.countedBeats := rfl
@[simp] theorem Dev.setTags_ageBeats (l : List Nat) (v : Bool) : (d.setTags l v).ageBeats = d.ageBeats := rfl
@[simp] theorem Dev.setTags_liveBeats (l : List Nat) (v : Bool) : (d.setTags l v).liveBeats = d.liveBeats := rfl
@[simp] theorem Dev.setTags_log (l : List Nat) (v : Bool) : (d.setTags l v).log = d.log := rfl
@[simp] theorem Dev.setTags_logHeld (l : List Nat) (v : Bool) : (d.setTags l v).logHeld = d.logHeld := rfl
@[simp] theorem Dev.setTags_bench (l : List Nat) (v : Bool) : (d.setTags l v).bench = d.bench := rfl
@[simp] theorem Dev.setTags_outbox (l : List Nat) (v : Bool) : (d.setTags l v).outbox = d.outbox := rfl
@[simp] theorem Dev.setTags_upq (l : List Nat) (v : Bool) : (d.setTags l v).upq = d.upq := rfl
@[simp] theorem Dev.setTags_granted (l : List Nat) (v : Bool) : (d.setTags l v).granted = d.granted := rfl
@[simp] theorem Dev.setTags_maxNeed (l : List Nat) (v : Bool) : (d.setTags l v).maxNeed = d.maxNeed := rfl
@[simp] theorem Dev.setTags_free (l : List Nat) (v : Bool) : (d.setTags l v).free = d.free := rfl
@[simp] theorem Dev.setTags_chans (l : List Nat) (v : Bool) : (d.setTags l v).chans = d.chans := rfl
@[simp] theorem Dev.setTags_net (l : List Nat) (v : Bool) : (d.setTags l v).net = d.net := rfl
@[simp] theorem Dev.setTags_floors (l : List Nat) (v : Bool) : (d.setTags l v).floors = d.floors := rfl
@[simp] theorem Dev.setTags_fences (l : List Nat) (v : Bool) : (d.setTags l v).fences = d.fences := rfl
@[simp] theorem Dev.setTags_step (l : List Nat) (v : Bool) : (d.setTags l v).step = d.step := rfl
@[simp] theorem Dev.setTags_job (l : List Nat) (v : Bool) : (d.setTags l v).job = d.job := rfl
@[simp] theorem Dev.setTags_saved (l : List Nat) (v : Bool) : (d.setTags l v).saved = d.saved := rfl
@[simp] theorem Dev.setTags_lat (l : List Nat) (v : Bool) : (d.setTags l v).lat = d.lat := rfl
@[simp] theorem Dev.setTags_flash (l : List Nat) (v : Bool) : (d.setTags l v).flash = d.flash := rfl
@[simp] theorem Dev.setTags_boot (l : List Nat) (v : Bool) : (d.setTags l v).boot = d.boot := rfl
@[simp] theorem Dev.setTags_pins (l : List Nat) (v : Bool) : (d.setTags l v).pins = d.pins := rfl
@[simp] theorem Dev.setTags_time (l : List Nat) (v : Bool) : (d.setTags l v).time = d.time := rfl
@[simp] theorem Dev.setTags_slipLeft (l : List Nat) (v : Bool) : (d.setTags l v).slipLeft = d.slipLeft := rfl
@[simp] theorem Dev.setTags_smiper (l : List Nat) (v : Bool) : (d.setTags l v).smiper = d.smiper := rfl
@[simp] theorem Dev.setTags_ops (l : List Nat) (v : Bool) : (d.setTags l v).ops = d.ops := rfl
@[simp] theorem Dev.setTags_results (l : List Nat) (v : Bool) : (d.setTags l v).results = d.results := rfl
@[simp] theorem Dev.setTags_lastBist (l : List Nat) (v : Bool) : (d.setTags l v).lastBist = d.lastBist := rfl
@[simp] theorem Dev.setTags_lastBistDigest (l : List Nat) (v : Bool) : (d.setTags l v).lastBistDigest = d.lastBistDigest := rfl
@[simp] theorem Dev.setTags_resetAt (l : List Nat) (v : Bool) : (d.setTags l v).resetAt = d.resetAt := rfl
@[simp] theorem Dev.setTags_leaveQ (l : List Nat) (v : Bool) : (d.setTags l v).leaveQ = d.leaveQ := rfl
@[simp] theorem Dev.setTags_hubGrant (l : List Nat) (v : Bool) : (d.setTags l v).hubGrant = d.hubGrant := rfl
@[simp] theorem Dev.setTags_resting (l : List Nat) (v : Bool) : (d.setTags l v).resting = d.resting := rfl
@[simp] theorem Dev.setTags_gated (l : List Nat) (v : Bool) : (d.setTags l v).gated = d.gated := rfl
@[simp] theorem Dev.setTags_unlocked (l : List Nat) (v : Bool) : (d.setTags l v).unlocked = d.unlocked := rfl
@[simp] theorem Dev.setTags_hotSensors (l : List Nat) (v : Bool) : (d.setTags l v).hotSensors = d.hotSensors := rfl
@[simp] theorem Dev.setTags_railHist (l : List Nat) (v : Bool) : (d.setTags l v).railHist = d.railHist := rfl
@[simp] theorem Dev.setTags_bist (l : List Nat) (v : Bool) : (d.setTags l v).bist = d.bist := rfl
@[simp] theorem Dev.setTags_frz (l : List Nat) (v : Bool) : (d.setTags l v).frz = d.frz := rfl
@[simp] theorem Dev.setTags_faults (l : List Nat) (v : Bool) : (d.setTags l v).faults = d.faults := rfl
@[simp] theorem Dev.setTags_reg (l : List Nat) (v : Bool) (x : Nat) : (d.setTags l v).reg x = d.reg x := by simp [Dev.reg]
@[simp] theorem Dev.setTags_get (l : List Nat) (v : Bool) (x : Fld) : (d.setTags l v).get x = d.get x := by simp [Dev.get]
@[simp] theorem Dev.setTags_bytes (l : List Nat) (v : Bool) (x y : Nat) : (d.setTags l v).bytes x y = d.bytes x y := by simp [Dev.bytes]
@[simp] theorem Dev.setTags_chan (l : List Nat) (v : Bool) (x y : Nat) : (d.setTags l v).chan x y = d.chan x y := by simp [Dev.chan]
@[simp] theorem Dev.setTags_bn (l : List Nat) (v : Bool) (x : Nat) : (d.setTags l v).bn x = d.bn x := by simp [Dev.bn]

/-! ### d.count u c -/

@[simp] theorem Dev.count_mem (u : Nat) (c : Cnt) : (d.count u c).mem = d.mem := rfl
@[simp] theorem Dev.count_errs (u : Nat) (c : Cnt) : (d.count u c).errs = d.errs := rfl
@[simp] theorem Dev.count_tags (u : Nat) (c : Cnt) : (d.count u c).tags = d.tags := rfl
@[simp] theorem Dev.count_tagErrs (u : Nat) (c : Cnt) : (d.count u c).tagErrs = d.tagErrs := rfl
@[simp] theorem Dev.count_regs (u : Nat) (c : Cnt) : (d.count u c).regs = d.regs := rfl
@[simp] theorem Dev.count_staged (u : Nat) (c : Cnt) : (d.count u c).staged = d.staged := rfl
@[simp] theorem Dev.count_aonBeat (u : Nat) (c : Cnt) : (d.count u c).aonBeat = d.aonBeat := rfl
@[simp] theorem Dev.count_countedBeats (u : Nat) (c : Cnt) : (d.count u c).countedBeats = d.countedBeats := rfl
@[simp] theorem Dev.count_ageBeats (u : Nat) (c : Cnt) : (d.count u c).ageBeats = d.ageBeats := rfl
@[simp] theorem Dev.count_liveBeats (u : Nat) (c : Cnt) : (d.count u c).liveBeats = d.liveBeats := rfl
@[simp] theorem Dev.count_log (u : Nat) (c : Cnt) : (d.count u c).log = d.log := rfl
@[simp] theorem Dev.count_logHeld (u : Nat) (c : Cnt) : (d.count u c).logHeld = d.logHeld := rfl
@[simp] theorem Dev.count_bench (u : Nat) (c : Cnt) : (d.count u c).bench = d.bench := rfl
@[simp] theorem Dev.count_outbox (u : Nat) (c : Cnt) : (d.count u c).outbox = d.outbox := rfl
@[simp] theorem Dev.count_upq (u : Nat) (c : Cnt) : (d.count u c).upq = d.upq := rfl
@[simp] theorem Dev.count_granted (u : Nat) (c : Cnt) : (d.count u c).granted = d.granted := rfl
@[simp] theorem Dev.count_maxNeed (u : Nat) (c : Cnt) : (d.count u c).maxNeed = d.maxNeed := rfl
@[simp] theorem Dev.count_free (u : Nat) (c : Cnt) : (d.count u c).free = d.free := rfl
@[simp] theorem Dev.count_chans (u : Nat) (c : Cnt) : (d.count u c).chans = d.chans := rfl
@[simp] theorem Dev.count_net (u : Nat) (c : Cnt) : (d.count u c).net = d.net := rfl
@[simp] theorem Dev.count_floors (u : Nat) (c : Cnt) : (d.count u c).floors = d.floors := rfl
@[simp] theorem Dev.count_fences (u : Nat) (c : Cnt) : (d.count u c).fences = d.fences := rfl
@[simp] theorem Dev.count_step (u : Nat) (c : Cnt) : (d.count u c).step = d.step := rfl
@[simp] theorem Dev.count_job (u : Nat) (c : Cnt) : (d.count u c).job = d.job := rfl
@[simp] theorem Dev.count_saved (u : Nat) (c : Cnt) : (d.count u c).saved = d.saved := rfl
@[simp] theorem Dev.count_lat (u : Nat) (c : Cnt) : (d.count u c).lat = d.lat := rfl
@[simp] theorem Dev.count_flash (u : Nat) (c : Cnt) : (d.count u c).flash = d.flash := rfl
@[simp] theorem Dev.count_boot (u : Nat) (c : Cnt) : (d.count u c).boot = d.boot := rfl
@[simp] theorem Dev.count_pins (u : Nat) (c : Cnt) : (d.count u c).pins = d.pins := rfl
@[simp] theorem Dev.count_time (u : Nat) (c : Cnt) : (d.count u c).time = d.time := rfl
@[simp] theorem Dev.count_slipLeft (u : Nat) (c : Cnt) : (d.count u c).slipLeft = d.slipLeft := rfl
@[simp] theorem Dev.count_smiper (u : Nat) (c : Cnt) : (d.count u c).smiper = d.smiper := rfl
@[simp] theorem Dev.count_ops (u : Nat) (c : Cnt) : (d.count u c).ops = d.ops := rfl
@[simp] theorem Dev.count_results (u : Nat) (c : Cnt) : (d.count u c).results = d.results := rfl
@[simp] theorem Dev.count_lastBist (u : Nat) (c : Cnt) : (d.count u c).lastBist = d.lastBist := rfl
@[simp] theorem Dev.count_lastBistDigest (u : Nat) (c : Cnt) : (d.count u c).lastBistDigest = d.lastBistDigest := rfl
@[simp] theorem Dev.count_resetAt (u : Nat) (c : Cnt) : (d.count u c).resetAt = d.resetAt := rfl
@[simp] theorem Dev.count_leaveQ (u : Nat) (c : Cnt) : (d.count u c).leaveQ = d.leaveQ := rfl
@[simp] theorem Dev.count_hubGrant (u : Nat) (c : Cnt) : (d.count u c).hubGrant = d.hubGrant := rfl
@[simp] theorem Dev.count_resting (u : Nat) (c : Cnt) : (d.count u c).resting = d.resting := rfl
@[simp] theorem Dev.count_gated (u : Nat) (c : Cnt) : (d.count u c).gated = d.gated := rfl
@[simp] theorem Dev.count_unlocked (u : Nat) (c : Cnt) : (d.count u c).unlocked = d.unlocked := rfl
@[simp] theorem Dev.count_hotSensors (u : Nat) (c : Cnt) : (d.count u c).hotSensors = d.hotSensors := rfl
@[simp] theorem Dev.count_railHist (u : Nat) (c : Cnt) : (d.count u c).railHist = d.railHist := rfl
@[simp] theorem Dev.count_bist (u : Nat) (c : Cnt) : (d.count u c).bist = d.bist := rfl
@[simp] theorem Dev.count_frz (u : Nat) (c : Cnt) : (d.count u c).frz = d.frz := rfl
@[simp] theorem Dev.count_faults (u : Nat) (c : Cnt) : (d.count u c).faults = d.faults := rfl
@[simp] theorem Dev.count_reg (u : Nat) (c : Cnt) (x : Nat) : (d.count u c).reg x = d.reg x := by simp [Dev.reg]
@[simp] theorem Dev.count_get (u : Nat) (c : Cnt) (x : Fld) : (d.count u c).get x = d.get x := by simp [Dev.get]
@[simp] theorem Dev.count_bytes (u : Nat) (c : Cnt) (x y : Nat) : (d.count u c).bytes x y = d.bytes x y := by simp [Dev.bytes]
@[simp] theorem Dev.count_chan (u : Nat) (c : Cnt) (x y : Nat) : (d.count u c).chan x y = d.chan x y := by simp [Dev.chan]
@[simp] theorem Dev.count_bn (u : Nat) (c : Cnt) (x : Nat) : (d.count u c).bn x = d.bn x := by simp [Dev.bn]

/-! ### d.setChan loc ch c -/

@[simp] theorem Dev.setChan_mem (loc ch : Nat) (c : Chan) : (d.setChan loc ch c).mem = d.mem := rfl
@[simp] theorem Dev.setChan_errs (loc ch : Nat) (c : Chan) : (d.setChan loc ch c).errs = d.errs := rfl
@[simp] theorem Dev.setChan_tags (loc ch : Nat) (c : Chan) : (d.setChan loc ch c).tags = d.tags := rfl
@[simp] theorem Dev.setChan_tagErrs (loc ch : Nat) (c : Chan) : (d.setChan loc ch c).tagErrs = d.tagErrs := rfl
@[simp] theorem Dev.setChan_regs (loc ch : Nat) (c : Chan) : (d.setChan loc ch c).regs = d.regs := rfl
@[simp] theorem Dev.setChan_staged (loc ch : Nat) (c : Chan) : (d.setChan loc ch c).staged = d.staged := rfl
@[simp] theorem Dev.setChan_arith (loc ch : Nat) (c : Chan) : (d.setChan loc ch c).arith = d.arith := rfl
@[simp] theorem Dev.setChan_aonBeat (loc ch : Nat) (c : Chan) : (d.setChan loc ch c).aonBeat = d.aonBeat := rfl
@[simp] theorem Dev.setChan_countedBeats (loc ch : Nat) (c : Chan) : (d.setChan loc ch c).countedBeats = d.countedBeats := rfl
@[simp] theorem Dev.setChan_ageBeats (loc ch : Nat) (c : Chan) : (d.setChan loc ch c).ageBeats = d.ageBeats := rfl
@[simp] theorem Dev.setChan_liveBeats (loc ch : Nat) (c : Chan) : (d.setChan loc ch c).liveBeats = d.liveBeats := rfl
@[simp] theorem Dev.setChan_log (loc ch : Nat) (c : Chan) : (d.setChan loc ch c).log = d.log := rfl
@[simp] theorem Dev.setChan_logHeld (loc ch : Nat) (c : Chan) : (d.setChan loc ch c).logHeld = d.logHeld := rfl
@[simp] theorem Dev.setChan_bench (loc ch : Nat) (c : Chan) : (d.setChan loc ch c).bench = d.bench := rfl
@[simp] theorem Dev.setChan_outbox (loc ch : Nat) (c : Chan) : (d.setChan loc ch c).outbox = d.outbox := rfl
@[simp] theorem Dev.setChan_upq (loc ch : Nat) (c : Chan) : (d.setChan loc ch c).upq = d.upq := rfl
@[simp] theorem Dev.setChan_granted (loc ch : Nat) (c : Chan) : (d.setChan loc ch c).granted = d.granted := rfl
@[simp] theorem Dev.setChan_maxNeed (loc ch : Nat) (c : Chan) : (d.setChan loc ch c).maxNeed = d.maxNeed := rfl
@[simp] theorem Dev.setChan_free (loc ch : Nat) (c : Chan) : (d.setChan loc ch c).free = d.free := rfl
@[simp] theorem Dev.setChan_net (loc ch : Nat) (c : Chan) : (d.setChan loc ch c).net = d.net := rfl
@[simp] theorem Dev.setChan_floors (loc ch : Nat) (c : Chan) : (d.setChan loc ch c).floors = d.floors := rfl
@[simp] theorem Dev.setChan_fences (loc ch : Nat) (c : Chan) : (d.setChan loc ch c).fences = d.fences := rfl
@[simp] theorem Dev.setChan_step (loc ch : Nat) (c : Chan) : (d.setChan loc ch c).step = d.step := rfl
@[simp] theorem Dev.setChan_job (loc ch : Nat) (c : Chan) : (d.setChan loc ch c).job = d.job := rfl
@[simp] theorem Dev.setChan_saved (loc ch : Nat) (c : Chan) : (d.setChan loc ch c).saved = d.saved := rfl
@[simp] theorem Dev.setChan_lat (loc ch : Nat) (c : Chan) : (d.setChan loc ch c).lat = d.lat := rfl
@[simp] theorem Dev.setChan_flash (loc ch : Nat) (c : Chan) : (d.setChan loc ch c).flash = d.flash := rfl
@[simp] theorem Dev.setChan_boot (loc ch : Nat) (c : Chan) : (d.setChan loc ch c).boot = d.boot := rfl
@[simp] theorem Dev.setChan_pins (loc ch : Nat) (c : Chan) : (d.setChan loc ch c).pins = d.pins := rfl
@[simp] theorem Dev.setChan_time (loc ch : Nat) (c : Chan) : (d.setChan loc ch c).time = d.time := rfl
@[simp] theorem Dev.setChan_slipLeft (loc ch : Nat) (c : Chan) : (d.setChan loc ch c).slipLeft = d.slipLeft := rfl
@[simp] theorem Dev.setChan_smiper (loc ch : Nat) (c : Chan) : (d.setChan loc ch c).smiper = d.smiper := rfl
@[simp] theorem Dev.setChan_ops (loc ch : Nat) (c : Chan) : (d.setChan loc ch c).ops = d.ops := rfl
@[simp] theorem Dev.setChan_results (loc ch : Nat) (c : Chan) : (d.setChan loc ch c).results = d.results := rfl
@[simp] theorem Dev.setChan_lastBist (loc ch : Nat) (c : Chan) : (d.setChan loc ch c).lastBist = d.lastBist := rfl
@[simp] theorem Dev.setChan_lastBistDigest (loc ch : Nat) (c : Chan) : (d.setChan loc ch c).lastBistDigest = d.lastBistDigest := rfl
@[simp] theorem Dev.setChan_resetAt (loc ch : Nat) (c : Chan) : (d.setChan loc ch c).resetAt = d.resetAt := rfl
@[simp] theorem Dev.setChan_leaveQ (loc ch : Nat) (c : Chan) : (d.setChan loc ch c).leaveQ = d.leaveQ := rfl
@[simp] theorem Dev.setChan_hubGrant (loc ch : Nat) (c : Chan) : (d.setChan loc ch c).hubGrant = d.hubGrant := rfl
@[simp] theorem Dev.setChan_resting (loc ch : Nat) (c : Chan) : (d.setChan loc ch c).resting = d.resting := rfl
@[simp] theorem Dev.setChan_gated (loc ch : Nat) (c : Chan) : (d.setChan loc ch c).gated = d.gated := rfl
@[simp] theorem Dev.setChan_unlocked (loc ch : Nat) (c : Chan) : (d.setChan loc ch c).unlocked = d.unlocked := rfl
@[simp] theorem Dev.setChan_hotSensors (loc ch : Nat) (c : Chan) : (d.setChan loc ch c).hotSensors = d.hotSensors := rfl
@[simp] theorem Dev.setChan_railHist (loc ch : Nat) (c : Chan) : (d.setChan loc ch c).railHist = d.railHist := rfl
@[simp] theorem Dev.setChan_bist (loc ch : Nat) (c : Chan) : (d.setChan loc ch c).bist = d.bist := rfl
@[simp] theorem Dev.setChan_frz (loc ch : Nat) (c : Chan) : (d.setChan loc ch c).frz = d.frz := rfl
@[simp] theorem Dev.setChan_faults (loc ch : Nat) (c : Chan) : (d.setChan loc ch c).faults = d.faults := rfl
@[simp] theorem Dev.setChan_reg (loc ch : Nat) (c : Chan) (x : Nat) : (d.setChan loc ch c).reg x = d.reg x := by simp [Dev.reg]
@[simp] theorem Dev.setChan_get (loc ch : Nat) (c : Chan) (x : Fld) : (d.setChan loc ch c).get x = d.get x := by simp [Dev.get]
@[simp] theorem Dev.setChan_bytes (loc ch : Nat) (c : Chan) (x y : Nat) : (d.setChan loc ch c).bytes x y = d.bytes x y := by simp [Dev.bytes]
@[simp] theorem Dev.setChan_bn (loc ch : Nat) (c : Chan) (x : Nat) : (d.setChan loc ch c).bn x = d.bn x := by simp [Dev.bn]

/-! ### d.onFloor k f -/

@[simp] theorem Dev.onFloor_mem (k : Nat) (f : FloorSt → FloorSt) : (d.onFloor k f).mem = d.mem := rfl
@[simp] theorem Dev.onFloor_errs (k : Nat) (f : FloorSt → FloorSt) : (d.onFloor k f).errs = d.errs := rfl
@[simp] theorem Dev.onFloor_tags (k : Nat) (f : FloorSt → FloorSt) : (d.onFloor k f).tags = d.tags := rfl
@[simp] theorem Dev.onFloor_tagErrs (k : Nat) (f : FloorSt → FloorSt) : (d.onFloor k f).tagErrs = d.tagErrs := rfl
@[simp] theorem Dev.onFloor_regs (k : Nat) (f : FloorSt → FloorSt) : (d.onFloor k f).regs = d.regs := rfl
@[simp] theorem Dev.onFloor_staged (k : Nat) (f : FloorSt → FloorSt) : (d.onFloor k f).staged = d.staged := rfl
@[simp] theorem Dev.onFloor_arith (k : Nat) (f : FloorSt → FloorSt) : (d.onFloor k f).arith = d.arith := rfl
@[simp] theorem Dev.onFloor_aonBeat (k : Nat) (f : FloorSt → FloorSt) : (d.onFloor k f).aonBeat = d.aonBeat := rfl
@[simp] theorem Dev.onFloor_countedBeats (k : Nat) (f : FloorSt → FloorSt) : (d.onFloor k f).countedBeats = d.countedBeats := rfl
@[simp] theorem Dev.onFloor_ageBeats (k : Nat) (f : FloorSt → FloorSt) : (d.onFloor k f).ageBeats = d.ageBeats := rfl
@[simp] theorem Dev.onFloor_liveBeats (k : Nat) (f : FloorSt → FloorSt) : (d.onFloor k f).liveBeats = d.liveBeats := rfl
@[simp] theorem Dev.onFloor_log (k : Nat) (f : FloorSt → FloorSt) : (d.onFloor k f).log = d.log := rfl
@[simp] theorem Dev.onFloor_logHeld (k : Nat) (f : FloorSt → FloorSt) : (d.onFloor k f).logHeld = d.logHeld := rfl
@[simp] theorem Dev.onFloor_bench (k : Nat) (f : FloorSt → FloorSt) : (d.onFloor k f).bench = d.bench := rfl
@[simp] theorem Dev.onFloor_outbox (k : Nat) (f : FloorSt → FloorSt) : (d.onFloor k f).outbox = d.outbox := rfl
@[simp] theorem Dev.onFloor_upq (k : Nat) (f : FloorSt → FloorSt) : (d.onFloor k f).upq = d.upq := rfl
@[simp] theorem Dev.onFloor_granted (k : Nat) (f : FloorSt → FloorSt) : (d.onFloor k f).granted = d.granted := rfl
@[simp] theorem Dev.onFloor_maxNeed (k : Nat) (f : FloorSt → FloorSt) : (d.onFloor k f).maxNeed = d.maxNeed := rfl
@[simp] theorem Dev.onFloor_free (k : Nat) (f : FloorSt → FloorSt) : (d.onFloor k f).free = d.free := rfl
@[simp] theorem Dev.onFloor_chans (k : Nat) (f : FloorSt → FloorSt) : (d.onFloor k f).chans = d.chans := rfl
@[simp] theorem Dev.onFloor_net (k : Nat) (f : FloorSt → FloorSt) : (d.onFloor k f).net = d.net := rfl
@[simp] theorem Dev.onFloor_fences (k : Nat) (f : FloorSt → FloorSt) : (d.onFloor k f).fences = d.fences := rfl
@[simp] theorem Dev.onFloor_step (k : Nat) (f : FloorSt → FloorSt) : (d.onFloor k f).step = d.step := rfl
@[simp] theorem Dev.onFloor_job (k : Nat) (f : FloorSt → FloorSt) : (d.onFloor k f).job = d.job := rfl
@[simp] theorem Dev.onFloor_saved (k : Nat) (f : FloorSt → FloorSt) : (d.onFloor k f).saved = d.saved := rfl
@[simp] theorem Dev.onFloor_lat (k : Nat) (f : FloorSt → FloorSt) : (d.onFloor k f).lat = d.lat := rfl
@[simp] theorem Dev.onFloor_flash (k : Nat) (f : FloorSt → FloorSt) : (d.onFloor k f).flash = d.flash := rfl
@[simp] theorem Dev.onFloor_boot (k : Nat) (f : FloorSt → FloorSt) : (d.onFloor k f).boot = d.boot := rfl
@[simp] theorem Dev.onFloor_pins (k : Nat) (f : FloorSt → FloorSt) : (d.onFloor k f).pins = d.pins := rfl
@[simp] theorem Dev.onFloor_time (k : Nat) (f : FloorSt → FloorSt) : (d.onFloor k f).time = d.time := rfl
@[simp] theorem Dev.onFloor_slipLeft (k : Nat) (f : FloorSt → FloorSt) : (d.onFloor k f).slipLeft = d.slipLeft := rfl
@[simp] theorem Dev.onFloor_smiper (k : Nat) (f : FloorSt → FloorSt) : (d.onFloor k f).smiper = d.smiper := rfl
@[simp] theorem Dev.onFloor_ops (k : Nat) (f : FloorSt → FloorSt) : (d.onFloor k f).ops = d.ops := rfl
@[simp] theorem Dev.onFloor_results (k : Nat) (f : FloorSt → FloorSt) : (d.onFloor k f).results = d.results := rfl
@[simp] theorem Dev.onFloor_lastBist (k : Nat) (f : FloorSt → FloorSt) : (d.onFloor k f).lastBist = d.lastBist := rfl
@[simp] theorem Dev.onFloor_lastBistDigest (k : Nat) (f : FloorSt → FloorSt) : (d.onFloor k f).lastBistDigest = d.lastBistDigest := rfl
@[simp] theorem Dev.onFloor_resetAt (k : Nat) (f : FloorSt → FloorSt) : (d.onFloor k f).resetAt = d.resetAt := rfl
@[simp] theorem Dev.onFloor_leaveQ (k : Nat) (f : FloorSt → FloorSt) : (d.onFloor k f).leaveQ = d.leaveQ := rfl
@[simp] theorem Dev.onFloor_hubGrant (k : Nat) (f : FloorSt → FloorSt) : (d.onFloor k f).hubGrant = d.hubGrant := rfl
@[simp] theorem Dev.onFloor_resting (k : Nat) (f : FloorSt → FloorSt) : (d.onFloor k f).resting = d.resting := rfl
@[simp] theorem Dev.onFloor_gated (k : Nat) (f : FloorSt → FloorSt) : (d.onFloor k f).gated = d.gated := rfl
@[simp] theorem Dev.onFloor_unlocked (k : Nat) (f : FloorSt → FloorSt) : (d.onFloor k f).unlocked = d.unlocked := rfl
@[simp] theorem Dev.onFloor_hotSensors (k : Nat) (f : FloorSt → FloorSt) : (d.onFloor k f).hotSensors = d.hotSensors := rfl
@[simp] theorem Dev.onFloor_railHist (k : Nat) (f : FloorSt → FloorSt) : (d.onFloor k f).railHist = d.railHist := rfl
@[simp] theorem Dev.onFloor_bist (k : Nat) (f : FloorSt → FloorSt) : (d.onFloor k f).bist = d.bist := rfl
@[simp] theorem Dev.onFloor_frz (k : Nat) (f : FloorSt → FloorSt) : (d.onFloor k f).frz = d.frz := rfl
@[simp] theorem Dev.onFloor_faults (k : Nat) (f : FloorSt → FloorSt) : (d.onFloor k f).faults = d.faults := rfl
@[simp] theorem Dev.onFloor_reg (k : Nat) (f : FloorSt → FloorSt) (x : Nat) : (d.onFloor k f).reg x = d.reg x := by simp [Dev.reg]
@[simp] theorem Dev.onFloor_get (k : Nat) (f : FloorSt → FloorSt) (x : Fld) : (d.onFloor k f).get x = d.get x := by simp [Dev.get]
@[simp] theorem Dev.onFloor_bytes (k : Nat) (f : FloorSt → FloorSt) (x y : Nat) : (d.onFloor k f).bytes x y = d.bytes x y := by simp [Dev.bytes]
@[simp] theorem Dev.onFloor_chan (k : Nat) (f : FloorSt → FloorSt) (x y : Nat) : (d.onFloor k f).chan x y = d.chan x y := by simp [Dev.chan]
@[simp] theorem Dev.onFloor_bn (k : Nat) (f : FloorSt → FloorSt) (x : Nat) : (d.onFloor k f).bn x = d.bn x := by simp [Dev.bn]

/-! ### d.onFence f g -/

@[simp] theorem Dev.onFence_mem (f : Nat) (g : FenceSt → FenceSt) : (d.onFence f g).mem = d.mem := rfl
@[simp] theorem Dev.onFence_errs (f : Nat) (g : FenceSt → FenceSt) : (d.onFence f g).errs = d.errs := rfl
@[simp] theorem Dev.onFence_tags (f : Nat) (g : FenceSt → FenceSt) : (d.onFence f g).tags = d.tags := rfl
@[simp] theorem Dev.onFence_tagErrs (f : Nat) (g : FenceSt → FenceSt) : (d.onFence f g).tagErrs = d.tagErrs := rfl
@[simp] theorem Dev.onFence_regs (f : Nat) (g : FenceSt → FenceSt) : (d.onFence f g).regs = d.regs := rfl
@[simp] theorem Dev.onFence_staged (f : Nat) (g : FenceSt → FenceSt) : (d.onFence f g).staged = d.staged := rfl
@[simp] theorem Dev.onFence_arith (f : Nat) (g : FenceSt → FenceSt) : (d.onFence f g).arith = d.arith := rfl
@[simp] theorem Dev.onFence_aonBeat (f : Nat) (g : FenceSt → FenceSt) : (d.onFence f g).aonBeat = d.aonBeat := rfl
@[simp] theorem Dev.onFence_countedBeats (f : Nat) (g : FenceSt → FenceSt) : (d.onFence f g).countedBeats = d.countedBeats := rfl
@[simp] theorem Dev.onFence_ageBeats (f : Nat) (g : FenceSt → FenceSt) : (d.onFence f g).ageBeats = d.ageBeats := rfl
@[simp] theorem Dev.onFence_liveBeats (f : Nat) (g : FenceSt → FenceSt) : (d.onFence f g).liveBeats = d.liveBeats := rfl
@[simp] theorem Dev.onFence_log (f : Nat) (g : FenceSt → FenceSt) : (d.onFence f g).log = d.log := rfl
@[simp] theorem Dev.onFence_logHeld (f : Nat) (g : FenceSt → FenceSt) : (d.onFence f g).logHeld = d.logHeld := rfl
@[simp] theorem Dev.onFence_bench (f : Nat) (g : FenceSt → FenceSt) : (d.onFence f g).bench = d.bench := rfl
@[simp] theorem Dev.onFence_outbox (f : Nat) (g : FenceSt → FenceSt) : (d.onFence f g).outbox = d.outbox := rfl
@[simp] theorem Dev.onFence_upq (f : Nat) (g : FenceSt → FenceSt) : (d.onFence f g).upq = d.upq := rfl
@[simp] theorem Dev.onFence_granted (f : Nat) (g : FenceSt → FenceSt) : (d.onFence f g).granted = d.granted := rfl
@[simp] theorem Dev.onFence_maxNeed (f : Nat) (g : FenceSt → FenceSt) : (d.onFence f g).maxNeed = d.maxNeed := rfl
@[simp] theorem Dev.onFence_free (f : Nat) (g : FenceSt → FenceSt) : (d.onFence f g).free = d.free := rfl
@[simp] theorem Dev.onFence_chans (f : Nat) (g : FenceSt → FenceSt) : (d.onFence f g).chans = d.chans := rfl
@[simp] theorem Dev.onFence_net (f : Nat) (g : FenceSt → FenceSt) : (d.onFence f g).net = d.net := rfl
@[simp] theorem Dev.onFence_floors (f : Nat) (g : FenceSt → FenceSt) : (d.onFence f g).floors = d.floors := rfl
@[simp] theorem Dev.onFence_step (f : Nat) (g : FenceSt → FenceSt) : (d.onFence f g).step = d.step := rfl
@[simp] theorem Dev.onFence_job (f : Nat) (g : FenceSt → FenceSt) : (d.onFence f g).job = d.job := rfl
@[simp] theorem Dev.onFence_saved (f : Nat) (g : FenceSt → FenceSt) : (d.onFence f g).saved = d.saved := rfl
@[simp] theorem Dev.onFence_lat (f : Nat) (g : FenceSt → FenceSt) : (d.onFence f g).lat = d.lat := rfl
@[simp] theorem Dev.onFence_flash (f : Nat) (g : FenceSt → FenceSt) : (d.onFence f g).flash = d.flash := rfl
@[simp] theorem Dev.onFence_boot (f : Nat) (g : FenceSt → FenceSt) : (d.onFence f g).boot = d.boot := rfl
@[simp] theorem Dev.onFence_pins (f : Nat) (g : FenceSt → FenceSt) : (d.onFence f g).pins = d.pins := rfl
@[simp] theorem Dev.onFence_time (f : Nat) (g : FenceSt → FenceSt) : (d.onFence f g).time = d.time := rfl
@[simp] theorem Dev.onFence_slipLeft (f : Nat) (g : FenceSt → FenceSt) : (d.onFence f g).slipLeft = d.slipLeft := rfl
@[simp] theorem Dev.onFence_smiper (f : Nat) (g : FenceSt → FenceSt) : (d.onFence f g).smiper = d.smiper := rfl
@[simp] theorem Dev.onFence_ops (f : Nat) (g : FenceSt → FenceSt) : (d.onFence f g).ops = d.ops := rfl
@[simp] theorem Dev.onFence_results (f : Nat) (g : FenceSt → FenceSt) : (d.onFence f g).results = d.results := rfl
@[simp] theorem Dev.onFence_lastBist (f : Nat) (g : FenceSt → FenceSt) : (d.onFence f g).lastBist = d.lastBist := rfl
@[simp] theorem Dev.onFence_lastBistDigest (f : Nat) (g : FenceSt → FenceSt) : (d.onFence f g).lastBistDigest = d.lastBistDigest := rfl
@[simp] theorem Dev.onFence_resetAt (f : Nat) (g : FenceSt → FenceSt) : (d.onFence f g).resetAt = d.resetAt := rfl
@[simp] theorem Dev.onFence_leaveQ (f : Nat) (g : FenceSt → FenceSt) : (d.onFence f g).leaveQ = d.leaveQ := rfl
@[simp] theorem Dev.onFence_hubGrant (f : Nat) (g : FenceSt → FenceSt) : (d.onFence f g).hubGrant = d.hubGrant := rfl
@[simp] theorem Dev.onFence_resting (f : Nat) (g : FenceSt → FenceSt) : (d.onFence f g).resting = d.resting := rfl
@[simp] theorem Dev.onFence_gated (f : Nat) (g : FenceSt → FenceSt) : (d.onFence f g).gated = d.gated := rfl
@[simp] theorem Dev.onFence_unlocked (f : Nat) (g : FenceSt → FenceSt) : (d.onFence f g).unlocked = d.unlocked := rfl
@[simp] theorem Dev.onFence_hotSensors (f : Nat) (g : FenceSt → FenceSt) : (d.onFence f g).hotSensors = d.hotSensors := rfl
@[simp] theorem Dev.onFence_railHist (f : Nat) (g : FenceSt → FenceSt) : (d.onFence f g).railHist = d.railHist := rfl
@[simp] theorem Dev.onFence_bist (f : Nat) (g : FenceSt → FenceSt) : (d.onFence f g).bist = d.bist := rfl
@[simp] theorem Dev.onFence_frz (f : Nat) (g : FenceSt → FenceSt) : (d.onFence f g).frz = d.frz := rfl
@[simp] theorem Dev.onFence_faults (f : Nat) (g : FenceSt → FenceSt) : (d.onFence f g).faults = d.faults := rfl
@[simp] theorem Dev.onFence_reg (f : Nat) (g : FenceSt → FenceSt) (x : Nat) : (d.onFence f g).reg x = d.reg x := by simp [Dev.reg]
@[simp] theorem Dev.onFence_get (f : Nat) (g : FenceSt → FenceSt) (x : Fld) : (d.onFence f g).get x = d.get x := by simp [Dev.get]
@[simp] theorem Dev.onFence_bytes (f : Nat) (g : FenceSt → FenceSt) (x y : Nat) : (d.onFence f g).bytes x y = d.bytes x y := by simp [Dev.bytes]
@[simp] theorem Dev.onFence_chan (f : Nat) (g : FenceSt → FenceSt) (x y : Nat) : (d.onFence f g).chan x y = d.chan x y := by simp [Dev.chan]
@[simp] theorem Dev.onFence_bn (f : Nat) (g : FenceSt → FenceSt) (x : Nat) : (d.onFence f g).bn x = d.bn x := by simp [Dev.bn]

/-! ### d.onPort p f -/

@[simp] theorem Dev.onPort_mem (p : Nat) (f : PortSt → PortSt) : (d.onPort p f).mem = d.mem := rfl
@[simp] theorem Dev.onPort_errs (p : Nat) (f : PortSt → PortSt) : (d.onPort p f).errs = d.errs := rfl
@[simp] theorem Dev.onPort_tags (p : Nat) (f : PortSt → PortSt) : (d.onPort p f).tags = d.tags := rfl
@[simp] theorem Dev.onPort_tagErrs (p : Nat) (f : PortSt → PortSt) : (d.onPort p f).tagErrs = d.tagErrs := rfl
@[simp] theorem Dev.onPort_regs (p : Nat) (f : PortSt → PortSt) : (d.onPort p f).regs = d.regs := rfl
@[simp] theorem Dev.onPort_staged (p : Nat) (f : PortSt → PortSt) : (d.onPort p f).staged = d.staged := rfl
@[simp] theorem Dev.onPort_arith (p : Nat) (f : PortSt → PortSt) : (d.onPort p f).arith = d.arith := rfl
@[simp] theorem Dev.onPort_aonBeat (p : Nat) (f : PortSt → PortSt) : (d.onPort p f).aonBeat = d.aonBeat := rfl
@[simp] theorem Dev.onPort_countedBeats (p : Nat) (f : PortSt → PortSt) : (d.onPort p f).countedBeats = d.countedBeats := rfl
@[simp] theorem Dev.onPort_ageBeats (p : Nat) (f : PortSt → PortSt) : (d.onPort p f).ageBeats = d.ageBeats := rfl
@[simp] theorem Dev.onPort_liveBeats (p : Nat) (f : PortSt → PortSt) : (d.onPort p f).liveBeats = d.liveBeats := rfl
@[simp] theorem Dev.onPort_log (p : Nat) (f : PortSt → PortSt) : (d.onPort p f).log = d.log := rfl
@[simp] theorem Dev.onPort_logHeld (p : Nat) (f : PortSt → PortSt) : (d.onPort p f).logHeld = d.logHeld := rfl
@[simp] theorem Dev.onPort_bench (p : Nat) (f : PortSt → PortSt) : (d.onPort p f).bench = d.bench := rfl
@[simp] theorem Dev.onPort_outbox (p : Nat) (f : PortSt → PortSt) : (d.onPort p f).outbox = d.outbox := rfl
@[simp] theorem Dev.onPort_upq (p : Nat) (f : PortSt → PortSt) : (d.onPort p f).upq = d.upq := rfl
@[simp] theorem Dev.onPort_granted (p : Nat) (f : PortSt → PortSt) : (d.onPort p f).granted = d.granted := rfl
@[simp] theorem Dev.onPort_maxNeed (p : Nat) (f : PortSt → PortSt) : (d.onPort p f).maxNeed = d.maxNeed := rfl
@[simp] theorem Dev.onPort_free (p : Nat) (f : PortSt → PortSt) : (d.onPort p f).free = d.free := rfl
@[simp] theorem Dev.onPort_chans (p : Nat) (f : PortSt → PortSt) : (d.onPort p f).chans = d.chans := rfl
@[simp] theorem Dev.onPort_net (p : Nat) (f : PortSt → PortSt) : (d.onPort p f).net = d.net := rfl
@[simp] theorem Dev.onPort_floors (p : Nat) (f : PortSt → PortSt) : (d.onPort p f).floors = d.floors := rfl
@[simp] theorem Dev.onPort_fences (p : Nat) (f : PortSt → PortSt) : (d.onPort p f).fences = d.fences := rfl
@[simp] theorem Dev.onPort_step (p : Nat) (f : PortSt → PortSt) : (d.onPort p f).step = d.step := rfl
@[simp] theorem Dev.onPort_job (p : Nat) (f : PortSt → PortSt) : (d.onPort p f).job = d.job := rfl
@[simp] theorem Dev.onPort_saved (p : Nat) (f : PortSt → PortSt) : (d.onPort p f).saved = d.saved := rfl
@[simp] theorem Dev.onPort_flash (p : Nat) (f : PortSt → PortSt) : (d.onPort p f).flash = d.flash := rfl
@[simp] theorem Dev.onPort_boot (p : Nat) (f : PortSt → PortSt) : (d.onPort p f).boot = d.boot := rfl
@[simp] theorem Dev.onPort_pins (p : Nat) (f : PortSt → PortSt) : (d.onPort p f).pins = d.pins := rfl
@[simp] theorem Dev.onPort_time (p : Nat) (f : PortSt → PortSt) : (d.onPort p f).time = d.time := rfl
@[simp] theorem Dev.onPort_slipLeft (p : Nat) (f : PortSt → PortSt) : (d.onPort p f).slipLeft = d.slipLeft := rfl
@[simp] theorem Dev.onPort_smiper (p : Nat) (f : PortSt → PortSt) : (d.onPort p f).smiper = d.smiper := rfl
@[simp] theorem Dev.onPort_ops (p : Nat) (f : PortSt → PortSt) : (d.onPort p f).ops = d.ops := rfl
@[simp] theorem Dev.onPort_results (p : Nat) (f : PortSt → PortSt) : (d.onPort p f).results = d.results := rfl
@[simp] theorem Dev.onPort_lastBist (p : Nat) (f : PortSt → PortSt) : (d.onPort p f).lastBist = d.lastBist := rfl
@[simp] theorem Dev.onPort_lastBistDigest (p : Nat) (f : PortSt → PortSt) : (d.onPort p f).lastBistDigest = d.lastBistDigest := rfl
@[simp] theorem Dev.onPort_resetAt (p : Nat) (f : PortSt → PortSt) : (d.onPort p f).resetAt = d.resetAt := rfl
@[simp] theorem Dev.onPort_leaveQ (p : Nat) (f : PortSt → PortSt) : (d.onPort p f).leaveQ = d.leaveQ := rfl
@[simp] theorem Dev.onPort_hubGrant (p : Nat) (f : PortSt → PortSt) : (d.onPort p f).hubGrant = d.hubGrant := rfl
@[simp] theorem Dev.onPort_resting (p : Nat) (f : PortSt → PortSt) : (d.onPort p f).resting = d.resting := rfl
@[simp] theorem Dev.onPort_gated (p : Nat) (f : PortSt → PortSt) : (d.onPort p f).gated = d.gated := rfl
@[simp] theorem Dev.onPort_unlocked (p : Nat) (f : PortSt → PortSt) : (d.onPort p f).unlocked = d.unlocked := rfl
@[simp] theorem Dev.onPort_hotSensors (p : Nat) (f : PortSt → PortSt) : (d.onPort p f).hotSensors = d.hotSensors := rfl
@[simp] theorem Dev.onPort_railHist (p : Nat) (f : PortSt → PortSt) : (d.onPort p f).railHist = d.railHist := rfl
@[simp] theorem Dev.onPort_bist (p : Nat) (f : PortSt → PortSt) : (d.onPort p f).bist = d.bist := rfl
@[simp] theorem Dev.onPort_frz (p : Nat) (f : PortSt → PortSt) : (d.onPort p f).frz = d.frz := rfl
@[simp] theorem Dev.onPort_faults (p : Nat) (f : PortSt → PortSt) : (d.onPort p f).faults = d.faults := rfl
@[simp] theorem Dev.onPort_reg (p : Nat) (f : PortSt → PortSt) (x : Nat) : (d.onPort p f).reg x = d.reg x := by simp [Dev.reg]
@[simp] theorem Dev.onPort_get (p : Nat) (f : PortSt → PortSt) (x : Fld) : (d.onPort p f).get x = d.get x := by simp [Dev.get]
@[simp] theorem Dev.onPort_bytes (p : Nat) (f : PortSt → PortSt) (x y : Nat) : (d.onPort p f).bytes x y = d.bytes x y := by simp [Dev.bytes]
@[simp] theorem Dev.onPort_chan (p : Nat) (f : PortSt → PortSt) (x y : Nat) : (d.onPort p f).chan x y = d.chan x y := by simp [Dev.chan]
@[simp] theorem Dev.onPort_bn (p : Nat) (f : PortSt → PortSt) (x : Nat) : (d.onPort p f).bn x = d.bn x := by simp [Dev.bn]

/-! ### d.onOp i f -/

@[simp] theorem Dev.onOp_mem (i : Nat) (f : LongOp → LongOp) : (d.onOp i f).mem = d.mem := rfl
@[simp] theorem Dev.onOp_errs (i : Nat) (f : LongOp → LongOp) : (d.onOp i f).errs = d.errs := rfl
@[simp] theorem Dev.onOp_tags (i : Nat) (f : LongOp → LongOp) : (d.onOp i f).tags = d.tags := rfl
@[simp] theorem Dev.onOp_tagErrs (i : Nat) (f : LongOp → LongOp) : (d.onOp i f).tagErrs = d.tagErrs := rfl
@[simp] theorem Dev.onOp_regs (i : Nat) (f : LongOp → LongOp) : (d.onOp i f).regs = d.regs := rfl
@[simp] theorem Dev.onOp_staged (i : Nat) (f : LongOp → LongOp) : (d.onOp i f).staged = d.staged := rfl
@[simp] theorem Dev.onOp_arith (i : Nat) (f : LongOp → LongOp) : (d.onOp i f).arith = d.arith := rfl
@[simp] theorem Dev.onOp_aonBeat (i : Nat) (f : LongOp → LongOp) : (d.onOp i f).aonBeat = d.aonBeat := rfl
@[simp] theorem Dev.onOp_countedBeats (i : Nat) (f : LongOp → LongOp) : (d.onOp i f).countedBeats = d.countedBeats := rfl
@[simp] theorem Dev.onOp_ageBeats (i : Nat) (f : LongOp → LongOp) : (d.onOp i f).ageBeats = d.ageBeats := rfl
@[simp] theorem Dev.onOp_liveBeats (i : Nat) (f : LongOp → LongOp) : (d.onOp i f).liveBeats = d.liveBeats := rfl
@[simp] theorem Dev.onOp_log (i : Nat) (f : LongOp → LongOp) : (d.onOp i f).log = d.log := rfl
@[simp] theorem Dev.onOp_logHeld (i : Nat) (f : LongOp → LongOp) : (d.onOp i f).logHeld = d.logHeld := rfl
@[simp] theorem Dev.onOp_bench (i : Nat) (f : LongOp → LongOp) : (d.onOp i f).bench = d.bench := rfl
@[simp] theorem Dev.onOp_outbox (i : Nat) (f : LongOp → LongOp) : (d.onOp i f).outbox = d.outbox := rfl
@[simp] theorem Dev.onOp_upq (i : Nat) (f : LongOp → LongOp) : (d.onOp i f).upq = d.upq := rfl
@[simp] theorem Dev.onOp_granted (i : Nat) (f : LongOp → LongOp) : (d.onOp i f).granted = d.granted := rfl
@[simp] theorem Dev.onOp_maxNeed (i : Nat) (f : LongOp → LongOp) : (d.onOp i f).maxNeed = d.maxNeed := rfl
@[simp] theorem Dev.onOp_free (i : Nat) (f : LongOp → LongOp) : (d.onOp i f).free = d.free := rfl
@[simp] theorem Dev.onOp_chans (i : Nat) (f : LongOp → LongOp) : (d.onOp i f).chans = d.chans := rfl
@[simp] theorem Dev.onOp_net (i : Nat) (f : LongOp → LongOp) : (d.onOp i f).net = d.net := rfl
@[simp] theorem Dev.onOp_floors (i : Nat) (f : LongOp → LongOp) : (d.onOp i f).floors = d.floors := rfl
@[simp] theorem Dev.onOp_fences (i : Nat) (f : LongOp → LongOp) : (d.onOp i f).fences = d.fences := rfl
@[simp] theorem Dev.onOp_step (i : Nat) (f : LongOp → LongOp) : (d.onOp i f).step = d.step := rfl
@[simp] theorem Dev.onOp_job (i : Nat) (f : LongOp → LongOp) : (d.onOp i f).job = d.job := rfl
@[simp] theorem Dev.onOp_saved (i : Nat) (f : LongOp → LongOp) : (d.onOp i f).saved = d.saved := rfl
@[simp] theorem Dev.onOp_lat (i : Nat) (f : LongOp → LongOp) : (d.onOp i f).lat = d.lat := rfl
@[simp] theorem Dev.onOp_flash (i : Nat) (f : LongOp → LongOp) : (d.onOp i f).flash = d.flash := rfl
@[simp] theorem Dev.onOp_boot (i : Nat) (f : LongOp → LongOp) : (d.onOp i f).boot = d.boot := rfl
@[simp] theorem Dev.onOp_pins (i : Nat) (f : LongOp → LongOp) : (d.onOp i f).pins = d.pins := rfl
@[simp] theorem Dev.onOp_time (i : Nat) (f : LongOp → LongOp) : (d.onOp i f).time = d.time := rfl
@[simp] theorem Dev.onOp_slipLeft (i : Nat) (f : LongOp → LongOp) : (d.onOp i f).slipLeft = d.slipLeft := rfl
@[simp] theorem Dev.onOp_smiper (i : Nat) (f : LongOp → LongOp) : (d.onOp i f).smiper = d.smiper := rfl
@[simp] theorem Dev.onOp_results (i : Nat) (f : LongOp → LongOp) : (d.onOp i f).results = d.results := rfl
@[simp] theorem Dev.onOp_lastBist (i : Nat) (f : LongOp → LongOp) : (d.onOp i f).lastBist = d.lastBist := rfl
@[simp] theorem Dev.onOp_lastBistDigest (i : Nat) (f : LongOp → LongOp) : (d.onOp i f).lastBistDigest = d.lastBistDigest := rfl
@[simp] theorem Dev.onOp_resetAt (i : Nat) (f : LongOp → LongOp) : (d.onOp i f).resetAt = d.resetAt := rfl
@[simp] theorem Dev.onOp_leaveQ (i : Nat) (f : LongOp → LongOp) : (d.onOp i f).leaveQ = d.leaveQ := rfl
@[simp] theorem Dev.onOp_hubGrant (i : Nat) (f : LongOp → LongOp) : (d.onOp i f).hubGrant = d.hubGrant := rfl
@[simp] theorem Dev.onOp_resting (i : Nat) (f : LongOp → LongOp) : (d.onOp i f).resting = d.resting := rfl
@[simp] theorem Dev.onOp_gated (i : Nat) (f : LongOp → LongOp) : (d.onOp i f).gated = d.gated := rfl
@[simp] theorem Dev.onOp_unlocked (i : Nat) (f : LongOp → LongOp) : (d.onOp i f).unlocked = d.unlocked := rfl
@[simp] theorem Dev.onOp_hotSensors (i : Nat) (f : LongOp → LongOp) : (d.onOp i f).hotSensors = d.hotSensors := rfl
@[simp] theorem Dev.onOp_railHist (i : Nat) (f : LongOp → LongOp) : (d.onOp i f).railHist = d.railHist := rfl
@[simp] theorem Dev.onOp_bist (i : Nat) (f : LongOp → LongOp) : (d.onOp i f).bist = d.bist := rfl
@[simp] theorem Dev.onOp_frz (i : Nat) (f : LongOp → LongOp) : (d.onOp i f).frz = d.frz := rfl
@[simp] theorem Dev.onOp_faults (i : Nat) (f : LongOp → LongOp) : (d.onOp i f).faults = d.faults := rfl
@[simp] theorem Dev.onOp_reg (i : Nat) (f : LongOp → LongOp) (x : Nat) : (d.onOp i f).reg x = d.reg x := by simp [Dev.reg]
@[simp] theorem Dev.onOp_get (i : Nat) (f : LongOp → LongOp) (x : Fld) : (d.onOp i f).get x = d.get x := by simp [Dev.get]
@[simp] theorem Dev.onOp_bytes (i : Nat) (f : LongOp → LongOp) (x y : Nat) : (d.onOp i f).bytes x y = d.bytes x y := by simp [Dev.bytes]
@[simp] theorem Dev.onOp_chan (i : Nat) (f : LongOp → LongOp) (x y : Nat) : (d.onOp i f).chan x y = d.chan x y := by simp [Dev.chan]
@[simp] theorem Dev.onOp_bn (i : Nat) (f : LongOp → LongOp) (x : Nat) : (d.onOp i f).bn x = d.bn x := by simp [Dev.bn]

/-! ### d.wrWord a w, d.setStatus i w -/

/-- What a counter, a floor and a write leave unchanged, a write of one word leaves unchanged. -/
theorem Dev.wrWord_keep {α : Type} (p : Dev → α) (h1 : ∀ (d : Dev) (k : Nat), p (d.inc (Reg.CELLAR_ECC_UNCORRECTABLE k)) = p d)
    (h2 : ∀ (d : Dev) (k : Nat), p (d.inc (Reg.CELLAR_ECC_CORRECTED k)) = p d)
    (h3 : ∀ (d : Dev) (k : Nat), p (d.inc (Reg.CELLAR_ECC_DIE_CORRECTIONS k)) = p d)
    (h4 : ∀ (d : Dev) (k : Nat) (f : FloorSt → FloorSt), p (d.onFloor k f) = p d)
    (h5 : ∀ (d : Dev) (a : Nat) (l : List Byte), p (d.wr a l) = p d) (a : Nat) (w : W64) : p (d.wrWord a w) = p d := by
  have fold : ∀ (f : Dev → Nat × Nat → Dev) (_ : ∀ d e, p (f d e) = p d) (l : List (Nat × Nat)) (d : Dev), p (l.foldl f d) = p d := by
    intro f hf l
    induction l with
    | nil => intro d; rfl
    | cons e l ih => intro d; rw [List.foldl_cons, ih, hf]
  unfold Dev.wrWord
  cases d.badWrite a 8 with
  | some _ => exact h1 d _
  | none =>
    refine (h5 _ a _).trans (fold _ ?_ _ d)
    intro d e
    dsimp only
    split
    · exact h2 d _
    · exact (h4 _ _ _).trans (h3 d _)

/-- A word in a codeword without a stored error is written, and nothing is counted. -/
theorem Dev.wrWord_clean {a : Nat} (w : W64) (h : d.errIn a 8 = []) : d.wrWord a w = d.wrLe a 8 w.toNat := by
  unfold Dev.wrWord Dev.badWrite
  rw [h]
  rfl

theorem Dev.setStatus_clean {i : Nat} (w : W64) (h : d.errIn (statusAddr i) 8 = []) :
    d.setStatus i w = d.wrLe (statusAddr i) 8 w.toNat := d.wrWord_clean w h

@[simp] theorem Dev.wrWord_tags (a : Nat) (w : W64) : (d.wrWord a w).tags = d.tags :=
  d.wrWord_keep Dev.tags (fun d _ => Dev.inc_tags d _) (fun d _ => Dev.inc_tags d _) (fun d _ => Dev.inc_tags d _)
    Dev.onFloor_tags Dev.wr_tags a w
@[simp] theorem Dev.wrWord_tagErrs (a : Nat) (w : W64) : (d.wrWord a w).tagErrs = d.tagErrs :=
  d.wrWord_keep Dev.tagErrs (fun d _ => Dev.inc_tagErrs d _) (fun d _ => Dev.inc_tagErrs d _) (fun d _ => Dev.inc_tagErrs d _)
    Dev.onFloor_tagErrs Dev.wr_tagErrs a w
@[simp] theorem Dev.wrWord_staged (a : Nat) (w : W64) : (d.wrWord a w).staged = d.staged :=
  d.wrWord_keep Dev.staged (fun d _ => Dev.inc_staged d _) (fun d _ => Dev.inc_staged d _) (fun d _ => Dev.inc_staged d _)
    Dev.onFloor_staged Dev.wr_staged a w
@[simp] theorem Dev.wrWord_arith (a : Nat) (w : W64) : (d.wrWord a w).arith = d.arith :=
  d.wrWord_keep Dev.arith (fun d _ => Dev.inc_arith d _) (fun d _ => Dev.inc_arith d _) (fun d _ => Dev.inc_arith d _)
    Dev.onFloor_arith Dev.wr_arith a w
@[simp] theorem Dev.wrWord_aonBeat (a : Nat) (w : W64) : (d.wrWord a w).aonBeat = d.aonBeat :=
  d.wrWord_keep Dev.aonBeat (fun d _ => Dev.inc_aonBeat d _) (fun d _ => Dev.inc_aonBeat d _) (fun d _ => Dev.inc_aonBeat d _)
    Dev.onFloor_aonBeat Dev.wr_aonBeat a w
@[simp] theorem Dev.wrWord_countedBeats (a : Nat) (w : W64) : (d.wrWord a w).countedBeats = d.countedBeats :=
  d.wrWord_keep Dev.countedBeats (fun d _ => Dev.inc_countedBeats d _) (fun d _ => Dev.inc_countedBeats d _) (fun d _ => Dev.inc_countedBeats d _)
    Dev.onFloor_countedBeats Dev.wr_countedBeats a w
@[simp] theorem Dev.wrWord_ageBeats (a : Nat) (w : W64) : (d.wrWord a w).ageBeats = d.ageBeats :=
  d.wrWord_keep Dev.ageBeats (fun d _ => Dev.inc_ageBeats d _) (fun d _ => Dev.inc_ageBeats d _) (fun d _ => Dev.inc_ageBeats d _)
    Dev.onFloor_ageBeats Dev.wr_ageBeats a w
@[simp] theorem Dev.wrWord_liveBeats (a : Nat) (w : W64) : (d.wrWord a w).liveBeats = d.liveBeats :=
  d.wrWord_keep Dev.liveBeats (fun d _ => Dev.inc_liveBeats d _) (fun d _ => Dev.inc_liveBeats d _) (fun d _ => Dev.inc_liveBeats d _)
    Dev.onFloor_liveBeats Dev.wr_liveBeats a w
@[simp] theorem Dev.wrWord_log (a : Nat) (w : W64) : (d.wrWord a w).log = d.log :=
  d.wrWord_keep Dev.log (fun d _ => Dev.inc_log d _) (fun d _ => Dev.inc_log d _) (fun d _ => Dev.inc_log d _)
    Dev.onFloor_log Dev.wr_log a w
@[simp] theorem Dev.wrWord_logHeld (a : Nat) (w : W64) : (d.wrWord a w).logHeld = d.logHeld :=
  d.wrWord_keep Dev.logHeld (fun d _ => Dev.inc_logHeld d _) (fun d _ => Dev.inc_logHeld d _) (fun d _ => Dev.inc_logHeld d _)
    Dev.onFloor_logHeld Dev.wr_logHeld a w
@[simp] theorem Dev.wrWord_bench (a : Nat) (w : W64) : (d.wrWord a w).bench = d.bench :=
  d.wrWord_keep Dev.bench (fun d _ => Dev.inc_bench d _) (fun d _ => Dev.inc_bench d _) (fun d _ => Dev.inc_bench d _)
    Dev.onFloor_bench Dev.wr_bench a w
@[simp] theorem Dev.wrWord_outbox (a : Nat) (w : W64) : (d.wrWord a w).outbox = d.outbox :=
  d.wrWord_keep Dev.outbox (fun d _ => Dev.inc_outbox d _) (fun d _ => Dev.inc_outbox d _) (fun d _ => Dev.inc_outbox d _)
    Dev.onFloor_outbox Dev.wr_outbox a w
@[simp] theorem Dev.wrWord_upq (a : Nat) (w : W64) : (d.wrWord a w).upq = d.upq :=
  d.wrWord_keep Dev.upq (fun d _ => Dev.inc_upq d _) (fun d _ => Dev.inc_upq d _) (fun d _ => Dev.inc_upq d _)
    Dev.onFloor_upq Dev.wr_upq a w
@[simp] theorem Dev.wrWord_granted (a : Nat) (w : W64) : (d.wrWord a w).granted = d.granted :=
  d.wrWord_keep Dev.granted (fun d _ => Dev.inc_granted d _) (fun d _ => Dev.inc_granted d _) (fun d _ => Dev.inc_granted d _)
    Dev.onFloor_granted Dev.wr_granted a w
@[simp] theorem Dev.wrWord_maxNeed (a : Nat) (w : W64) : (d.wrWord a w).maxNeed = d.maxNeed :=
  d.wrWord_keep Dev.maxNeed (fun d _ => Dev.inc_maxNeed d _) (fun d _ => Dev.inc_maxNeed d _) (fun d _ => Dev.inc_maxNeed d _)
    Dev.onFloor_maxNeed Dev.wr_maxNeed a w
@[simp] theorem Dev.wrWord_free (a : Nat) (w : W64) : (d.wrWord a w).free = d.free :=
  d.wrWord_keep Dev.free (fun d _ => Dev.inc_free d _) (fun d _ => Dev.inc_free d _) (fun d _ => Dev.inc_free d _)
    Dev.onFloor_free Dev.wr_free a w
@[simp] theorem Dev.wrWord_chans (a : Nat) (w : W64) : (d.wrWord a w).chans = d.chans :=
  d.wrWord_keep Dev.chans (fun d _ => Dev.inc_chans d _) (fun d _ => Dev.inc_chans d _) (fun d _ => Dev.inc_chans d _)
    Dev.onFloor_chans Dev.wr_chans a w
@[simp] theorem Dev.wrWord_net (a : Nat) (w : W64) : (d.wrWord a w).net = d.net :=
  d.wrWord_keep Dev.net (fun d _ => Dev.inc_net d _) (fun d _ => Dev.inc_net d _) (fun d _ => Dev.inc_net d _)
    Dev.onFloor_net Dev.wr_net a w
@[simp] theorem Dev.wrWord_fences (a : Nat) (w : W64) : (d.wrWord a w).fences = d.fences :=
  d.wrWord_keep Dev.fences (fun d _ => Dev.inc_fences d _) (fun d _ => Dev.inc_fences d _) (fun d _ => Dev.inc_fences d _)
    Dev.onFloor_fences Dev.wr_fences a w
@[simp] theorem Dev.wrWord_step (a : Nat) (w : W64) : (d.wrWord a w).step = d.step :=
  d.wrWord_keep Dev.step (fun d _ => Dev.inc_step d _) (fun d _ => Dev.inc_step d _) (fun d _ => Dev.inc_step d _)
    Dev.onFloor_step Dev.wr_step a w
@[simp] theorem Dev.wrWord_job (a : Nat) (w : W64) : (d.wrWord a w).job = d.job :=
  d.wrWord_keep Dev.job (fun d _ => Dev.inc_job d _) (fun d _ => Dev.inc_job d _) (fun d _ => Dev.inc_job d _)
    Dev.onFloor_job Dev.wr_job a w
@[simp] theorem Dev.wrWord_saved (a : Nat) (w : W64) : (d.wrWord a w).saved = d.saved :=
  d.wrWord_keep Dev.saved (fun d _ => Dev.inc_saved d _) (fun d _ => Dev.inc_saved d _) (fun d _ => Dev.inc_saved d _)
    Dev.onFloor_saved Dev.wr_saved a w
@[simp] theorem Dev.wrWord_lat (a : Nat) (w : W64) : (d.wrWord a w).lat = d.lat :=
  d.wrWord_keep Dev.lat (fun d _ => Dev.inc_lat d _) (fun d _ => Dev.inc_lat d _) (fun d _ => Dev.inc_lat d _)
    Dev.onFloor_lat Dev.wr_lat a w
@[simp] theorem Dev.wrWord_flash (a : Nat) (w : W64) : (d.wrWord a w).flash = d.flash :=
  d.wrWord_keep Dev.flash (fun d _ => Dev.inc_flash d _) (fun d _ => Dev.inc_flash d _) (fun d _ => Dev.inc_flash d _)
    Dev.onFloor_flash Dev.wr_flash a w
@[simp] theorem Dev.wrWord_boot (a : Nat) (w : W64) : (d.wrWord a w).boot = d.boot :=
  d.wrWord_keep Dev.boot (fun d _ => Dev.inc_boot d _) (fun d _ => Dev.inc_boot d _) (fun d _ => Dev.inc_boot d _)
    Dev.onFloor_boot Dev.wr_boot a w
@[simp] theorem Dev.wrWord_pins (a : Nat) (w : W64) : (d.wrWord a w).pins = d.pins :=
  d.wrWord_keep Dev.pins (fun d _ => Dev.inc_pins d _) (fun d _ => Dev.inc_pins d _) (fun d _ => Dev.inc_pins d _)
    Dev.onFloor_pins Dev.wr_pins a w
@[simp] theorem Dev.wrWord_time (a : Nat) (w : W64) : (d.wrWord a w).time = d.time :=
  d.wrWord_keep Dev.time (fun d _ => Dev.inc_time d _) (fun d _ => Dev.inc_time d _) (fun d _ => Dev.inc_time d _)
    Dev.onFloor_time Dev.wr_time a w
@[simp] theorem Dev.wrWord_slipLeft (a : Nat) (w : W64) : (d.wrWord a w).slipLeft = d.slipLeft :=
  d.wrWord_keep Dev.slipLeft (fun d _ => Dev.inc_slipLeft d _) (fun d _ => Dev.inc_slipLeft d _) (fun d _ => Dev.inc_slipLeft d _)
    Dev.onFloor_slipLeft Dev.wr_slipLeft a w
@[simp] theorem Dev.wrWord_smiper (a : Nat) (w : W64) : (d.wrWord a w).smiper = d.smiper :=
  d.wrWord_keep Dev.smiper (fun d _ => Dev.inc_smiper d _) (fun d _ => Dev.inc_smiper d _) (fun d _ => Dev.inc_smiper d _)
    Dev.onFloor_smiper Dev.wr_smiper a w
@[simp] theorem Dev.wrWord_ops (a : Nat) (w : W64) : (d.wrWord a w).ops = d.ops :=
  d.wrWord_keep Dev.ops (fun d _ => Dev.inc_ops d _) (fun d _ => Dev.inc_ops d _) (fun d _ => Dev.inc_ops d _)
    Dev.onFloor_ops Dev.wr_ops a w
@[simp] theorem Dev.wrWord_results (a : Nat) (w : W64) : (d.wrWord a w).results = d.results :=
  d.wrWord_keep Dev.results (fun d _ => Dev.inc_results d _) (fun d _ => Dev.inc_results d _) (fun d _ => Dev.inc_results d _)
    Dev.onFloor_results Dev.wr_results a w
@[simp] theorem Dev.wrWord_lastBist (a : Nat) (w : W64) : (d.wrWord a w).lastBist = d.lastBist :=
  d.wrWord_keep Dev.lastBist (fun d _ => Dev.inc_lastBist d _) (fun d _ => Dev.inc_lastBist d _) (fun d _ => Dev.inc_lastBist d _)
    Dev.onFloor_lastBist Dev.wr_lastBist a w
@[simp] theorem Dev.wrWord_lastBistDigest (a : Nat) (w : W64) : (d.wrWord a w).lastBistDigest = d.lastBistDigest :=
  d.wrWord_keep Dev.lastBistDigest (fun d _ => Dev.inc_lastBistDigest d _) (fun d _ => Dev.inc_lastBistDigest d _) (fun d _ => Dev.inc_lastBistDigest d _)
    Dev.onFloor_lastBistDigest Dev.wr_lastBistDigest a w
@[simp] theorem Dev.wrWord_resetAt (a : Nat) (w : W64) : (d.wrWord a w).resetAt = d.resetAt :=
  d.wrWord_keep Dev.resetAt (fun d _ => Dev.inc_resetAt d _) (fun d _ => Dev.inc_resetAt d _) (fun d _ => Dev.inc_resetAt d _)
    Dev.onFloor_resetAt Dev.wr_resetAt a w
@[simp] theorem Dev.wrWord_leaveQ (a : Nat) (w : W64) : (d.wrWord a w).leaveQ = d.leaveQ :=
  d.wrWord_keep Dev.leaveQ (fun d _ => Dev.inc_leaveQ d _) (fun d _ => Dev.inc_leaveQ d _) (fun d _ => Dev.inc_leaveQ d _)
    Dev.onFloor_leaveQ Dev.wr_leaveQ a w
@[simp] theorem Dev.wrWord_hubGrant (a : Nat) (w : W64) : (d.wrWord a w).hubGrant = d.hubGrant :=
  d.wrWord_keep Dev.hubGrant (fun d _ => Dev.inc_hubGrant d _) (fun d _ => Dev.inc_hubGrant d _) (fun d _ => Dev.inc_hubGrant d _)
    Dev.onFloor_hubGrant Dev.wr_hubGrant a w
@[simp] theorem Dev.wrWord_resting (a : Nat) (w : W64) : (d.wrWord a w).resting = d.resting :=
  d.wrWord_keep Dev.resting (fun d _ => Dev.inc_resting d _) (fun d _ => Dev.inc_resting d _) (fun d _ => Dev.inc_resting d _)
    Dev.onFloor_resting Dev.wr_resting a w
@[simp] theorem Dev.wrWord_gated (a : Nat) (w : W64) : (d.wrWord a w).gated = d.gated :=
  d.wrWord_keep Dev.gated (fun d _ => Dev.inc_gated d _) (fun d _ => Dev.inc_gated d _) (fun d _ => Dev.inc_gated d _)
    Dev.onFloor_gated Dev.wr_gated a w
@[simp] theorem Dev.wrWord_unlocked (a : Nat) (w : W64) : (d.wrWord a w).unlocked = d.unlocked :=
  d.wrWord_keep Dev.unlocked (fun d _ => Dev.inc_unlocked d _) (fun d _ => Dev.inc_unlocked d _) (fun d _ => Dev.inc_unlocked d _)
    Dev.onFloor_unlocked Dev.wr_unlocked a w
@[simp] theorem Dev.wrWord_hotSensors (a : Nat) (w : W64) : (d.wrWord a w).hotSensors = d.hotSensors :=
  d.wrWord_keep Dev.hotSensors (fun d _ => Dev.inc_hotSensors d _) (fun d _ => Dev.inc_hotSensors d _) (fun d _ => Dev.inc_hotSensors d _)
    Dev.onFloor_hotSensors Dev.wr_hotSensors a w
@[simp] theorem Dev.wrWord_railHist (a : Nat) (w : W64) : (d.wrWord a w).railHist = d.railHist :=
  d.wrWord_keep Dev.railHist (fun d _ => Dev.inc_railHist d _) (fun d _ => Dev.inc_railHist d _) (fun d _ => Dev.inc_railHist d _)
    Dev.onFloor_railHist Dev.wr_railHist a w
@[simp] theorem Dev.wrWord_bist (a : Nat) (w : W64) : (d.wrWord a w).bist = d.bist :=
  d.wrWord_keep Dev.bist (fun d _ => Dev.inc_bist d _) (fun d _ => Dev.inc_bist d _) (fun d _ => Dev.inc_bist d _)
    Dev.onFloor_bist Dev.wr_bist a w
@[simp] theorem Dev.wrWord_frz (a : Nat) (w : W64) : (d.wrWord a w).frz = d.frz :=
  d.wrWord_keep Dev.frz (fun d _ => Dev.inc_frz d _) (fun d _ => Dev.inc_frz d _) (fun d _ => Dev.inc_frz d _)
    Dev.onFloor_frz Dev.wr_frz a w
@[simp] theorem Dev.wrWord_faults (a : Nat) (w : W64) : (d.wrWord a w).faults = d.faults :=
  d.wrWord_keep Dev.faults (fun d _ => Dev.inc_faults d _) (fun d _ => Dev.inc_faults d _) (fun d _ => Dev.inc_faults d _)
    Dev.onFloor_faults Dev.wr_faults a w
@[simp] theorem Dev.setStatus_tags (i : Nat) (w : W64) : (d.setStatus i w).tags = d.tags := d.wrWord_tags _ w
@[simp] theorem Dev.setStatus_tagErrs (i : Nat) (w : W64) : (d.setStatus i w).tagErrs = d.tagErrs := d.wrWord_tagErrs _ w
@[simp] theorem Dev.setStatus_staged (i : Nat) (w : W64) : (d.setStatus i w).staged = d.staged := d.wrWord_staged _ w
@[simp] theorem Dev.setStatus_arith (i : Nat) (w : W64) : (d.setStatus i w).arith = d.arith := d.wrWord_arith _ w
@[simp] theorem Dev.setStatus_aonBeat (i : Nat) (w : W64) : (d.setStatus i w).aonBeat = d.aonBeat := d.wrWord_aonBeat _ w
@[simp] theorem Dev.setStatus_countedBeats (i : Nat) (w : W64) : (d.setStatus i w).countedBeats = d.countedBeats := d.wrWord_countedBeats _ w
@[simp] theorem Dev.setStatus_ageBeats (i : Nat) (w : W64) : (d.setStatus i w).ageBeats = d.ageBeats := d.wrWord_ageBeats _ w
@[simp] theorem Dev.setStatus_liveBeats (i : Nat) (w : W64) : (d.setStatus i w).liveBeats = d.liveBeats := d.wrWord_liveBeats _ w
@[simp] theorem Dev.setStatus_log (i : Nat) (w : W64) : (d.setStatus i w).log = d.log := d.wrWord_log _ w
@[simp] theorem Dev.setStatus_logHeld (i : Nat) (w : W64) : (d.setStatus i w).logHeld = d.logHeld := d.wrWord_logHeld _ w
@[simp] theorem Dev.setStatus_bench (i : Nat) (w : W64) : (d.setStatus i w).bench = d.bench := d.wrWord_bench _ w
@[simp] theorem Dev.setStatus_outbox (i : Nat) (w : W64) : (d.setStatus i w).outbox = d.outbox := d.wrWord_outbox _ w
@[simp] theorem Dev.setStatus_upq (i : Nat) (w : W64) : (d.setStatus i w).upq = d.upq := d.wrWord_upq _ w
@[simp] theorem Dev.setStatus_granted (i : Nat) (w : W64) : (d.setStatus i w).granted = d.granted := d.wrWord_granted _ w
@[simp] theorem Dev.setStatus_maxNeed (i : Nat) (w : W64) : (d.setStatus i w).maxNeed = d.maxNeed := d.wrWord_maxNeed _ w
@[simp] theorem Dev.setStatus_free (i : Nat) (w : W64) : (d.setStatus i w).free = d.free := d.wrWord_free _ w
@[simp] theorem Dev.setStatus_chans (i : Nat) (w : W64) : (d.setStatus i w).chans = d.chans := d.wrWord_chans _ w
@[simp] theorem Dev.setStatus_net (i : Nat) (w : W64) : (d.setStatus i w).net = d.net := d.wrWord_net _ w
@[simp] theorem Dev.setStatus_fences (i : Nat) (w : W64) : (d.setStatus i w).fences = d.fences := d.wrWord_fences _ w
@[simp] theorem Dev.setStatus_step (i : Nat) (w : W64) : (d.setStatus i w).step = d.step := d.wrWord_step _ w
@[simp] theorem Dev.setStatus_job (i : Nat) (w : W64) : (d.setStatus i w).job = d.job := d.wrWord_job _ w
@[simp] theorem Dev.setStatus_saved (i : Nat) (w : W64) : (d.setStatus i w).saved = d.saved := d.wrWord_saved _ w
@[simp] theorem Dev.setStatus_lat (i : Nat) (w : W64) : (d.setStatus i w).lat = d.lat := d.wrWord_lat _ w
@[simp] theorem Dev.setStatus_flash (i : Nat) (w : W64) : (d.setStatus i w).flash = d.flash := d.wrWord_flash _ w
@[simp] theorem Dev.setStatus_boot (i : Nat) (w : W64) : (d.setStatus i w).boot = d.boot := d.wrWord_boot _ w
@[simp] theorem Dev.setStatus_pins (i : Nat) (w : W64) : (d.setStatus i w).pins = d.pins := d.wrWord_pins _ w
@[simp] theorem Dev.setStatus_time (i : Nat) (w : W64) : (d.setStatus i w).time = d.time := d.wrWord_time _ w
@[simp] theorem Dev.setStatus_slipLeft (i : Nat) (w : W64) : (d.setStatus i w).slipLeft = d.slipLeft := d.wrWord_slipLeft _ w
@[simp] theorem Dev.setStatus_smiper (i : Nat) (w : W64) : (d.setStatus i w).smiper = d.smiper := d.wrWord_smiper _ w
@[simp] theorem Dev.setStatus_ops (i : Nat) (w : W64) : (d.setStatus i w).ops = d.ops := d.wrWord_ops _ w
@[simp] theorem Dev.setStatus_results (i : Nat) (w : W64) : (d.setStatus i w).results = d.results := d.wrWord_results _ w
@[simp] theorem Dev.setStatus_lastBist (i : Nat) (w : W64) : (d.setStatus i w).lastBist = d.lastBist := d.wrWord_lastBist _ w
@[simp] theorem Dev.setStatus_lastBistDigest (i : Nat) (w : W64) : (d.setStatus i w).lastBistDigest = d.lastBistDigest := d.wrWord_lastBistDigest _ w
@[simp] theorem Dev.setStatus_resetAt (i : Nat) (w : W64) : (d.setStatus i w).resetAt = d.resetAt := d.wrWord_resetAt _ w
@[simp] theorem Dev.setStatus_leaveQ (i : Nat) (w : W64) : (d.setStatus i w).leaveQ = d.leaveQ := d.wrWord_leaveQ _ w
@[simp] theorem Dev.setStatus_hubGrant (i : Nat) (w : W64) : (d.setStatus i w).hubGrant = d.hubGrant := d.wrWord_hubGrant _ w
@[simp] theorem Dev.setStatus_resting (i : Nat) (w : W64) : (d.setStatus i w).resting = d.resting := d.wrWord_resting _ w
@[simp] theorem Dev.setStatus_gated (i : Nat) (w : W64) : (d.setStatus i w).gated = d.gated := d.wrWord_gated _ w
@[simp] theorem Dev.setStatus_unlocked (i : Nat) (w : W64) : (d.setStatus i w).unlocked = d.unlocked := d.wrWord_unlocked _ w
@[simp] theorem Dev.setStatus_hotSensors (i : Nat) (w : W64) : (d.setStatus i w).hotSensors = d.hotSensors := d.wrWord_hotSensors _ w
@[simp] theorem Dev.setStatus_railHist (i : Nat) (w : W64) : (d.setStatus i w).railHist = d.railHist := d.wrWord_railHist _ w
@[simp] theorem Dev.setStatus_bist (i : Nat) (w : W64) : (d.setStatus i w).bist = d.bist := d.wrWord_bist _ w
@[simp] theorem Dev.setStatus_frz (i : Nat) (w : W64) : (d.setStatus i w).frz = d.frz := d.wrWord_frz _ w
@[simp] theorem Dev.setStatus_faults (i : Nat) (w : W64) : (d.setStatus i w).faults = d.faults := d.wrWord_faults _ w

end Sys2Proof.Machine
end

