-- ==== Sys2Proof/Laws/Regs.lean ====
section
/-! SUPPORT. Registers and fields: a write is read back, and changes no other register and no other field. -/

namespace Sys2Proof.Machine

variable (d : Dev)

theorem Dev.reg_setReg (a b : Nat) (v : W64) : (d.setReg a v).reg b = if b = a then v else d.reg b :=
  SMap.get_set regReset d.regs a b v

@[simp] theorem Dev.reg_setReg_self (a : Nat) (v : W64) : (d.setReg a v).reg a = v := SMap.get_set_self regReset d.regs a v

theorem Dev.reg_setReg_ne {a b : Nat} (v : W64) (h : b ≠ a) : (d.setReg a v).reg b = d.reg b :=
  SMap.get_set_ne regReset d.regs v h

@[simp] theorem Dev.reg_set_self (f : Fld) (v : Nat) : (d.set f v).reg f.addr = putFld (d.reg f.addr) f.hi f.lo v :=
  Dev.reg_setReg_self ..

theorem Dev.reg_set_ne {f : Fld} {a : Nat} (v : Nat) (h : a ≠ f.addr) : (d.set f v).reg a = d.reg a :=
  Dev.reg_setReg_ne d _ h

theorem Dev.get_setReg_ne {a : Nat} (v : W64) {g : Fld} (h : g.addr ≠ a) : (d.setReg a v).get g = d.get g := by
  unfold Dev.get; rw [Dev.reg_setReg_ne d v h]

/-- Two fields share no bit. -/
abbrev Fld.apart (f g : Fld) : Prop := g.addr ≠ f.addr ∨ f.hi < g.lo ∨ g.hi < f.lo

/-- A field lies in its word. -/
abbrev Fld.fits (f : Fld) : Prop := f.lo ≤ f.hi ∧ f.hi < 64

/-- A field reads as it was written, cut to its width. -/
theorem Dev.get_set_self {f : Fld} (hf : f.fits) (v : Nat) : (d.set f v).get f = v % 2 ^ (f.hi + 1 - f.lo) := by
  unfold Dev.get; rw [Dev.reg_set_self]; exact fld_putFld _ hf.1 hf.2 v

/-- A write of a field leaves every field that shares no bit with it. -/
theorem Dev.get_set_ne {f g : Fld} (hf : f.fits) (v : Nat) (h : f.apart g) : (d.set f v).get g = d.get g := by
  unfold Dev.get
  by_cases ha : g.addr = f.addr
  · rw [ha, Dev.reg_set_self]
    rcases h with h | h | h
    · exact absurd ha h
    · exact fld_putFld_above _ hf.1 hf.2 v _ _ h
    · exact fld_putFld_below _ hf.1 hf.2 v _ _ h
  · rw [Dev.reg_set_ne d v ha]

theorem Dev.get_lt (f : Fld) : d.get f < 2 ^ (f.hi + 1 - f.lo) := fld_lt _ _ _

theorem Dev.get_le_max (f : Fld) : d.get f ≤ f.max := by have := d.get_lt f; unfold Fld.max; omega

/-- A counter after a count: it stops at its largest value. -/
theorem Dev.get_addTo_self {f : Fld} (hf : f.fits) (n : Nat) : (d.addTo f n).get f = min f.max (d.get f + n) := by
  unfold Dev.addTo
  have := d.get_le_max f
  split
  · omega
  · rw [Dev.get_set_self d hf]
    apply Nat.mod_eq_of_lt
    have : 0 < 2 ^ (f.hi + 1 - f.lo) := Nat.two_pow_pos _
    unfold Fld.max
    omega

theorem Dev.get_addTo_ne {f g : Fld} (hf : f.fits) (n : Nat) (h : f.apart g) : (d.addTo f n).get g = d.get g := by
  unfold Dev.addTo
  split
  · rfl
  · exact Dev.get_set_ne d hf _ h

theorem Dev.get_inc_self {f : Fld} (hf : f.fits) : (d.inc f).get f = min f.max (d.get f + 1) := Dev.get_addTo_self d hf 1

theorem Dev.get_inc_ne {f g : Fld} (hf : f.fits) (h : f.apart g) : (d.inc f).get g = d.get g := Dev.get_addTo_ne d hf 1 h

theorem Dev.reg_addTo_ne {f : Fld} {a : Nat} (n : Nat) (h : a ≠ f.addr) : (d.addTo f n).reg a = d.reg a := by
  unfold Dev.addTo
  split
  · rfl
  · exact Dev.reg_set_ne d _ h

theorem Dev.reg_inc_ne {f : Fld} {a : Nat} (h : a ≠ f.addr) : (d.inc f).reg a = d.reg a := Dev.reg_addTo_ne d 1 h

/-- The counters of the cellars' code are all that a write of one word may change among the registers. -/
theorem Dev.wrWord_reg (a : Nat) (w : W64) {x : Nat} (h : ∀ k, x ≠ Reg.CELLAR_ECC k) : (d.wrWord a w).reg x = d.reg x :=
  d.wrWord_keep (fun d => d.reg x) (fun d k => Dev.reg_inc_ne d (h k)) (fun d k => Dev.reg_inc_ne d (h k))
    (fun d k => Dev.reg_inc_ne d (h k)) (fun d k f => Dev.onFloor_reg d k f x) (fun d a l => Dev.wr_reg d a l x) a w

theorem Dev.wrWord_get (a : Nat) (w : W64) {f : Fld} (h : ∀ k, f.addr ≠ Reg.CELLAR_ECC k) : (d.wrWord a w).get f = d.get f := by
  unfold Dev.get; rw [Dev.wrWord_reg d a w h]

theorem Dev.setStatus_reg (i : Nat) (w : W64) {x : Nat} (h : ∀ k, x ≠ Reg.CELLAR_ECC k) : (d.setStatus i w).reg x = d.reg x :=
  d.wrWord_reg _ w h

theorem Dev.setStatus_get (i : Nat) (w : W64) {f : Fld} (h : ∀ k, f.addr ≠ Reg.CELLAR_ECC k) : (d.setStatus i w).get f = d.get f :=
  d.wrWord_get _ w h

end Sys2Proof.Machine
end

