-- ==== Sys2Proof/Safety.lean ====
section
/-! DEFINITION. The terms that statements use: packets that the command unit hears, the replies it gives, fuses that change
one way, rows that a stopped clock holds still. -/

namespace Sys2Proof.Machine

/-! ### Packets (15 R400 to R412) -/

/-- A packet that passes every check before its own row's: the device serves commands, VERSION is 1, LENGTH is the row's,
the device state and the life-cycle state admit the opcode, and the row's precondition holds. -/
structure Heard (c : Cmd) (s : State) (h : Hdr) (w : List W64) : Prop where
  serving : s.dev.serving = true
  version : h.version = 1
  length : c.len w = true
  short : w.length ≤ 1138
  admitted : s.dev.admits c.op = true
  life : s.dev.life ∈ c.states
  pre : c.pre s.dev = true

/-- A packet outside the sequence. -/
structure Asked (c : Cmd) (s : State) (h : Hdr) (w : List W64) : Prop extends Heard c s h w where
  noseq : h.noseq = true

/-- The next packet in the sequence of the open session, with no command held before it. -/
structure Sent (c : Cmd) (s : State) (h : Hdr) (w : List W64) : Prop extends Heard c s h w where
  noseq : h.noseq = false
  session : h.session ≠ 0 ∧ h.session.toNat = s.dev.get Reg.SM_STATE_SESSION
  next : h.seq = s.dev.expected
  alone : s.dev.smiper.heldCmds = []

/-- The state with another device; the queue and the fuses stay. -/
abbrev State.withDev (s : State) (d : Dev) : State := { s with dev := d }

/-- The device once an unsequenced packet is counted (15 R436). -/
abbrev State.counted (s : State) : Dev := s.dev.inc Reg.SM_COUNT1_UNSEQUENCED

/-- The device once a sequenced packet has taken its number (15 R406). -/
abbrev State.taken (s : State) (op : Nat) (h : Hdr) : Dev := s.dev.takeNumber op h

/-- The reply OK to an unsequenced packet (15 R402). -/
abbrev Dev.okRead (d : Dev) (op : Nat) (h : Hdr) (block : List W64) : Dev := d.reply op h rcOk noDetail block

/-- The reply OK to a sequenced packet, kept for a resent one (15 R402, R406). -/
abbrev Dev.okReply (d : Dev) (op : Nat) (h : Hdr) (block : List W64) : Dev :=
  (d.keepReply h op rcOk noDetail block).reply op h rcOk noDetail block

/-- A cache with no entry (15 R405, R409). -/
abbrev Dev.emptyCache (d : Dev) : Dev := { d with smiper := { d.smiper with cache := [] } }

/-- The reply ACCEPTED to a long operation (15 R402, R415). -/
abbrev Dev.acceptReply (d : Dev) (op : Nat) (h : Hdr) : Dev :=
  (d.keepReply h op rcAccepted noDetail []).reply op h rcAccepted noDetail []

/-- A refusal of a sequenced packet (15 R403). -/
abbrev Dev.refusal (d : Dev) (op : Nat) (h : Hdr) (code detail : Nat) : Dev :=
  (d.keepReply h op code detail []).reply op h code detail []

/-- A long operation enters its slot, QUEUED (15 R415). -/
def Dev.queueOp (d : Dev) (op : Nat) (h : Hdr) (w : List W64) : Dev :=
  let slot := h.tag.toNat % 256
  let d := d.setStatus slot (packFlds [(63, 60, 1), (25, 18, h.tag.toNat / 256), (17, 2, op)])
  { d with ops := d.ops ++ [{ slot := slot, opcode := op, params := w, running := false }]
           results := SMap.set (fun _ => []) d.results slot [] }

/-- The state after a long operation is accepted: it takes its number, enters its slot, `f` is done, ACCEPTED is answered. -/
abbrev State.accepted (s : State) (op : Nat) (h : Hdr) (w : List W64) (f : Dev → Dev) : State :=
  s.withDev ((f ((s.taken op h).queueOp op h w)).acceptReply op h)

/-- A slot is free and fewer than 32 operations live (15 R413, R415). -/
def Dev.roomFor (d : Dev) (h : Hdr) : Prop := d.opOf (h.tag.toNat % 256) = none ∧ d.ops.length < 32

/-! ### Register writes and the end of operations (00 R20, 15 R421) -/

/-- Register writes, each an address, a value and a mask, made in listed order. -/
def Dev.writesDone (d : Dev) (l : List (Nat × W64 × W64)) : Dev := l.foldl (fun d x => d.writeReg x.1 x.2.1 x.2.2) d

/-- No check refuses any of the writes, each looked at after those before it. -/
def Dev.WritesPass (d : Dev) (l : List (Nat × W64 × W64)) : Prop :=
  ∀ i x, l[i]? = some x → (d.writesDone (l.take i)).writeBad x.1 x.2.1 x.2.2 false = none

/-- Runs of physical memory that hold no word in error. -/
def Dev.CleanRuns (d : Dev) (l : List (Nat × Nat)) : Prop :=
  ∀ r ∈ l, (r.1 < cellarEnd ∨ spBase 0 ≤ r.1) ∧ d.errIn r.1 r.2 = []

/-- No scratchpad that holds any of the runs is under STRICT (07 R216). -/
def Dev.Relaxed (d : Dev) (l : List (Nat × Nat)) : Prop :=
  ∀ r ∈ l, r.1 < cellarEnd ∨ d.get (Reg.SP_CTRL_STRICT ((r.1 - spBase 0) / spSize)) ≠ 1

/-- The value of a check that passed. -/
def valueOr {ε α : Type} (a : α) : Except ε α → α
  | .ok b => b
  | .error _ => a

/-- The operations that OP_ABORT ends while they run: copies, scrubs, self-tests, attestations, the formation of a domain,
firmware updates and a job's run (15 R421). -/
def endable : List Nat := [0x203, 0x502, 0x503, 0x701, 0x103, 0x703, 0x302]

/-- The device once an operation has been aborted. -/
def Dev.aborted (d : Dev) (o : LongOp) : Dev := (d.abortOp o).getD d

/-! ### Bench records (03 to 06) -/

/-- The rows that run an engine's record, and the engine, by the record's words (04 R114, 05 R152, 06 R198, 11 R307). -/
inductive EngineRow (b : Nat) (w : List W64) : Instr → Nat → Prop
  | compress : recType w = 0x21 → EngineRow b w (.compress b) 0
  | expand : recType w = 0x22 → EngineRow b w (.expand b) 0
  | gather : recType w = 0x23 → EngineRow b w (.gather b) 0
  | scatterAdd : recType w = 0x24 → EngineRow b w (.scatterAdd b) 0
  | sort : recType w = 0x25 → EngineRow b w (.sort b) 0
  | wsum : recType w = 0x26 → EngineRow b w (.wsum b) 0
  | routeDispatch : recType w = 0x38 → rtMode w = 0 → EngineRow b w (.routeDispatch b) 0
  | routeCollect : recType w = 0x38 → rtMode w = 1 → EngineRow b w (.routeCollect b) 0
  | transpose : recType w = 0x40 → trInPlace w = false → EngineRow b w (.transpose b) 1
  | transposeInPlace : recType w = 0x40 → trInPlace w = true → EngineRow b w (.transposeInPlace b) 1
  | vectorRecord : recType w = 0xA0 → EngineRow b w (.vectorRecord b) 2

/-- What the record `it` names has been read (06 R182, 02 R567). -/
def Dev.engNamed (d : Dev) (b e : Nat) (it : Item) : Dev := d.correctReads b (engLatch e d b it).1

/-- The record `it` taken from an engine's queue with what it names, `rest` behind it. -/
def Dev.engTaken (d : Dev) (b e : Nat) (it : Item) (rest : List Item) : Dev :=
  (d.engNamed b e it).onEng b e (fun s => { s with queue := rest, cur := some ⟨(engLatch e d b it).2, 0, none⟩ })

/-- The record has its leave (18 R487). -/
def Dev.engStarted (d : Dev) (b e : Nat) (it : Item) (rest : List Item) : Dev :=
  noteNeed (engPhase e 1 (d.engTaken b e it rest) b) b

/-- The slots that a record waits for at its source: full ones (07 R223). -/
def Plan.fullSlots (p : Plan) (b : Nat) : List Nat := if p.srcFe = 0 then [] else rangeSlots b p.src

/-- The slots that a record waits for at its destination: empty ones (07 R223). -/
def Plan.emptySlots (p : Plan) (b : Nat) : List Nat := if p.dstFe = 0 then [] else rangeSlots b p.dst

/-- The tag words of a list of slots hold no error. -/
def Dev.tagsClean (d : Dev) (l : List Nat) : Prop := ∀ k ∈ l, d.tagErr k = 0

/-- A list of slots is as a tagged access wants it, with no error in its tags. -/
def Dev.slotsReady (d : Dev) (l : List Nat) (full : Bool) : Prop := d.tagsClean l ∧ d.tagsAre l full = true

/-- The tag changes that a record makes after its last byte (07 R223). -/
def Plan.tagged (p : Plan) (b : Nat) (d : Dev) : Dev :=
  let d := if p.srcFe = 2 then d.setTags (rangeSlots b p.src) false else d
  if p.dstFe = 1 then d.setTags (rangeSlots b p.dst) true else d

/-- The record in progress has found its tags and met the other ports. -/
def Dev.engMet (d : Dev) (b e : Nat) (w : List W64) (p : Plan) : Dev × Option Nat :=
  engMeet e w p (engPhase e 3 (engPhase e 2 d b) b) b

/-- Its words have been read. -/
def Dev.engRead (d : Dev) (b e : Nat) (w : List W64) (p : Plan) : Dev × Option (Nat × Nat) := engErrors e w p (d.engMet b e w p).1 b

/-- Its work is done, its tags are changed, and it has left the engine. -/
def Dev.engWorked (d : Dev) (b e : Nat) (w : List W64) (p : Plan) : Dev :=
  engDrop (p.tagged b (p.run (d.engRead b e w p).1).1) b e

/-- Nothing stops the record in progress: its slots are as its tagged ends want them, no meeting refuses it, no word that it
reads is uncorrectable, and its work meets no error. -/
structure Dev.EngEnds (d : Dev) (b e : Nat) (w : List W64) (p : Plan) : Prop where
  full : d.slotsReady (p.fullSlots b) true
  empty : d.slotsReady (p.emptySlots b) false
  met : (d.engMet b e w p).2 = none
  clean : (d.engRead b e w p).2 = none
  works : (p.run (d.engRead b e w p).1).2 = none

/-- The record at the head of an engine's queue passes its checks, has its leave, and nothing stops it. -/
structure Dev.EngRuns (d : Dev) (b e : Nat) (it : Item) (rest : List Item) (p : Plan) : Prop where
  named : d.badRanges b (engLatch e d b it).1 = none
  checked : (enginePlan e (d.engNamed b e it) b (engLatch e d b it).2).isOk = true
  plan : enginePlan e (d.engTaken b e it rest) b (engLatch e d b it).2 = .ok p
  leave : leaveOk (d.engTaken b e it rest) b (leaveUnits (d.engTaken b e it rest) (engLeave it.words)) = true
  ends : (d.engStarted b e it rest).EngEnds b e it.words p

/-! ### Flits (13 R355) -/

/-- A flit that the port hears, good, whose number has not been taken before. -/
structure Dev.TakesFlit (d : Dev) (p : Nat) (f : Flit) : Prop where
  hears : d.portHears p = true
  good : flGood f = true
  fresh : Machine.seqAhead (d.port p).recvNext (flSeq f) = 0 ∨
    Machine.seqAhead (d.port p).recvNext (flSeq f) < 512 ∧ (d.port p).early.contains (flSeq f) = false

/-- The flit's ACK_SEQ and its number have been taken. -/
def Dev.tookFlit (d : Dev) (p : Nat) (f : Flit) : Dev := ((d.takeAck p (flAck f)).takeSeq p (flSeq f)).1

/-- The beat in which a flit counts as having arrived: for a resent one, that in which it was found missing (13 R376). -/
def Dev.flitBeat (d : Dev) (p : Nat) (f : Flit) : Nat :=
  (((d.port p).gaps.find? (fun g => g.1 = flSeq f)).map Prod.snd).getD d.beat

/-- The messages of a SERVICE flit have taken effect: bursts that ACK_SEQ covers are settled, waiting additions are made. -/
abbrev Dev.serviced (d : Dev) (p : Nat) : Dev := (d.settleCovered p).drainAdds

/-- The oldest poll of a fence that this device has joined has been taken off. -/
def Dev.lessPoll (d : Dev) (f : Nat) : Dev :=
  { d with lat := { d.lat with polls := d.lat.polls.takeWhile (fun x => !(x.1 = f && x.2.own.isSome)) ++
      (d.lat.polls.dropWhile (fun x => !(x.1 = f && x.2.own.isSome))).drop 1 } }

/-- The state after a change of the device that may let the held commands be served (15 R407). -/
abbrev State.tried (s : State) (d : Dev) : State :=
  { s with fuses := (thenHeld s.fuses d).1, dev := (thenHeld s.fuses d).2 }

/-! ### Clocked work (21 R532) -/

/-- Rows that are work of the device's own clocks: benches, floors, channels, the bulk network, ports, fences, leave. -/
def Instr.clocked : Instr → Bool
  | .recordFetch _ | .laneRowRecord _ | .batchRowArrive _ | .batchTimeout _ | .laneResidueMismatch _ _ _ => true
  | .compact _ | .compress _ | .expand _ | .gather _ | .scatterAdd _ | .sort _ | .wsum _ | .raggedLoop _ => true
  | .routeDispatch _ | .routeCollect _ | .transpose _ | .transposeInPlace _ | .select _ | .vectorRecord _ => true
  | .outputReform _ _ | .tagWaitSatisfied _ | .slotTimeout _ | .scratchpadScrubRead _ _ _ => true
  | .scratchpadEccWriteback _ _ | .cellarScrubRead _ _ _ | .cellarEccWriteback _ _ => true
  | .dmaTwoD _ _ | .dmaCircular _ _ | .dmaShape _ _ | .dmaBurstIssue _ _ | .dmaLimitReread _ _ => true
  | .limitTimeout _ _ | .dmaStop _ _ | .bulkWrite _ | .bulkReadReq _ | .bulkReadData _ | .bulkAck _ _ => true
  | .bulkNack _ | .bulkMulticast _ | .bulkReduce _ | .reduceTimeout _ | .linkCrcReplay _ _ _ => true
  | .mergeWindowClose _ _ | .stash _ | .recall _ | .free _ | .phaseRecord _ | .flitWrite _ _ => true
  | .flitReduceAdd _ _ | .flitReadReq _ _ | .flitReadData _ _ | .flitStream _ _ | .flitIdle _ _ => true
  | .beatMessage _ _ _ | .flood _ _ | .retryReq _ _ | .resendTimeout _ _ | .nack _ _ | .poll _ _ => true
  | .result _ _ | .vote _ _ | .voteResult _ _ | .norm _ _ | .fprint _ _ | .cal _ _ _ | .laneLoss _ _ => true
  | .retrainComplete _ | .portFailed _ | .beatSkew _ | .degradeEffect | .abortEffect | .preemptEffect => true
  | .flitCrcMismatch _ _ _ | .syncArrive _ _ | .fenceRelease _ | .syncTimeout _ | .slipReq _ _ _ | .slip _ _ => true
  | .domainFencePoll _ | .domainFenceResult _ | .quiesced _ | .stepStart | .elementwise _ | .orthoMomentum _ => true
  | .orthoApply _ | .floorVote _ | .stepReplayStart | .leaveRequest _ | .leaveGrant => true
  | _ => false

/-! ### Fuses (19 R502, R506, R510) -/

/-- What a seed bank may become: an unblown bank anything, a seed only destroyed, an abandoned bank only destroyed, a
destroyed bank nothing else. -/
def SeedBank.le : SeedBank → SeedBank → Prop
  | .unblown, _ => True
  | .seed a, b => b = .seed a ∨ b = .destroyed
  | .abandoned, b => b = .abandoned ∨ b = .destroyed
  | .destroyed, b => b = .destroyed

/-- Fuses only blow: a state word once blown stays blown, the rollback count does not fall, banks move one way, and
nothing else changes. -/
structure Fuses.le (f g : Fuses) : Prop where
  blown : ∀ n, f.blown n = true → g.blown n = true
  rollback : f.rollback ≤ g.rollback
  banks : ∀ (i : Nat) (a : SeedBank), f.banks[i]? = some a → ∃ b, g.banks[i]? = some b ∧ SeedBank.le a b
  maps : g.laneMaps = f.laneMaps
  serial : g.serial = f.serial
  mac : g.mac = f.mac

end Sys2Proof.Machine
end

