-- ==== Sys2Proof/Laws/Smiper.lean ====
section
/-! SUPPORT. What the command unit does with a packet, said once: unsequenced packets, and the next packet in sequence. -/

namespace Sys2Proof.Machine

variable (d : Dev)

/-! ### Counting a packet and taking a number touch only the registers of the command unit -/

@[simp] theorem Dev.counted_get (f : Fld) (h : f.addr ≠ Reg.SM_COUNT1) : (d.inc Reg.SM_COUNT1_UNSEQUENCED).get f = d.get f :=
  Dev.get_inc_ne d (by decide) (.inl h)

@[simp] theorem Dev.counted_reg (a : Nat) (h : a ≠ Reg.SM_COUNT1) : (d.inc Reg.SM_COUNT1_UNSEQUENCED).reg a = d.reg a :=
  Dev.reg_inc_ne d h

theorem Dev.taken_get (op : Nat) (h : Hdr) (f : Fld) (h1 : f.addr ≠ Reg.SM_STATE) (h2 : f.addr ≠ Reg.SM_COUNT0) :
    (d.takeNumber op h).get f = d.get f := by
  show (((d.set Reg.SM_STATE_LAST_SEQ h.seq.toNat).inc Reg.SM_COUNT0_EXECUTED).get f) = d.get f
  rw [Dev.get_inc_ne _ (by decide) (.inl h2), Dev.get_set_ne _ (by decide) _ (.inl h1)]

theorem Dev.taken_reg (op : Nat) (h : Hdr) (a : Nat) (h1 : a ≠ Reg.SM_STATE) (h2 : a ≠ Reg.SM_COUNT0) :
    (d.takeNumber op h).reg a = d.reg a := by
  show (((d.set Reg.SM_STATE_LAST_SEQ h.seq.toNat).inc Reg.SM_COUNT0_EXECUTED).reg a) = d.reg a
  rw [Dev.reg_inc_ne _ h2, Dev.reg_set_ne _ _ h1]

@[simp] theorem Dev.taken_mem (op : Nat) (h : Hdr) : (d.takeNumber op h).mem = d.mem := by simp [Dev.takeNumber]
@[simp] theorem Dev.taken_errs (op : Nat) (h : Hdr) : (d.takeNumber op h).errs = d.errs := by simp [Dev.takeNumber]
@[simp] theorem Dev.taken_tags (op : Nat) (h : Hdr) : (d.takeNumber op h).tags = d.tags := by simp [Dev.takeNumber]
@[simp] theorem Dev.taken_tagErrs (op : Nat) (h : Hdr) : (d.takeNumber op h).tagErrs = d.tagErrs := by simp [Dev.takeNumber]
@[simp] theorem Dev.taken_staged (op : Nat) (h : Hdr) : (d.takeNumber op h).staged = d.staged := by simp [Dev.takeNumber]
@[simp] theorem Dev.taken_arith (op : Nat) (h : Hdr) : (d.takeNumber op h).arith = d.arith := by simp [Dev.takeNumber]
@[simp] theorem Dev.taken_aonBeat (op : Nat) (h : Hdr) : (d.takeNumber op h).aonBeat = d.aonBeat := by simp [Dev.takeNumber]
@[simp] theorem Dev.taken_countedBeats (op : Nat) (h : Hdr) : (d.takeNumber op h).countedBeats = d.countedBeats := by simp [Dev.takeNumber]
@[simp] theorem Dev.taken_ageBeats (op : Nat) (h : Hdr) : (d.takeNumber op h).ageBeats = d.ageBeats := by simp [Dev.takeNumber]
@[simp] theorem Dev.taken_liveBeats (op : Nat) (h : Hdr) : (d.takeNumber op h).liveBeats = d.liveBeats := by simp [Dev.takeNumber]
@[simp] theorem Dev.taken_log (op : Nat) (h : Hdr) : (d.takeNumber op h).log = d.log := by simp [Dev.takeNumber]
@[simp] theorem Dev.taken_logHeld (op : Nat) (h : Hdr) : (d.takeNumber op h).logHeld = d.logHeld := by simp [Dev.takeNumber]
@[simp] theorem Dev.taken_bench (op : Nat) (h : Hdr) : (d.takeNumber op h).bench = d.bench := by simp [Dev.takeNumber]
@[simp] theorem Dev.taken_outbox (op : Nat) (h : Hdr) : (d.takeNumber op h).outbox = d.outbox := by simp [Dev.takeNumber]
@[simp] theorem Dev.taken_upq (op : Nat) (h : Hdr) : (d.takeNumber op h).upq = d.upq := by simp [Dev.takeNumber]
@[simp] theorem Dev.taken_granted (op : Nat) (h : Hdr) : (d.takeNumber op h).granted = d.granted := by simp [Dev.takeNumber]
@[simp] theorem Dev.taken_maxNeed (op : Nat) (h : Hdr) : (d.takeNumber op h).maxNeed = d.maxNeed := by simp [Dev.takeNumber]
@[simp] theorem Dev.taken_free (op : Nat) (h : Hdr) : (d.takeNumber op h).free = d.free := by simp [Dev.takeNumber]
@[simp] theorem Dev.taken_chans (op : Nat) (h : Hdr) : (d.takeNumber op h).chans = d.chans := by simp [Dev.takeNumber]
@[simp] theorem Dev.taken_net (op : Nat) (h : Hdr) : (d.takeNumber op h).net = d.net := by simp [Dev.takeNumber]
@[simp] theorem Dev.taken_floors (op : Nat) (h : Hdr) : (d.takeNumber op h).floors = d.floors := by simp [Dev.takeNumber]
@[simp] theorem Dev.taken_fences (op : Nat) (h : Hdr) : (d.takeNumber op h).fences = d.fences := by simp [Dev.takeNumber]
@[simp] theorem Dev.taken_step (op : Nat) (h : Hdr) : (d.takeNumber op h).step = d.step := by simp [Dev.takeNumber]
@[simp] theorem Dev.taken_job (op : Nat) (h : Hdr) : (d.takeNumber op h).job = d.job := by simp [Dev.takeNumber]
@[simp] theorem Dev.taken_saved (op : Nat) (h : Hdr) : (d.takeNumber op h).saved = d.saved := by simp [Dev.takeNumber]
@[simp] theorem Dev.taken_lat (op : Nat) (h : Hdr) : (d.takeNumber op h).lat = d.lat := by simp [Dev.takeNumber]
@[simp] theorem Dev.taken_flash (op : Nat) (h : Hdr) : (d.takeNumber op h).flash = d.flash := by simp [Dev.takeNumber]
@[simp] theorem Dev.taken_boot (op : Nat) (h : Hdr) : (d.takeNumber op h).boot = d.boot := by simp [Dev.takeNumber]
@[simp] theorem Dev.taken_pins (op : Nat) (h : Hdr) : (d.takeNumber op h).pins = d.pins := by simp [Dev.takeNumber]
@[simp] theorem Dev.taken_time (op : Nat) (h : Hdr) : (d.takeNumber op h).time = d.time := by simp [Dev.takeNumber]
@[simp] theorem Dev.taken_slipLeft (op : Nat) (h : Hdr) : (d.takeNumber op h).slipLeft = d.slipLeft := by simp [Dev.takeNumber]
@[simp] theorem Dev.taken_ops (op : Nat) (h : Hdr) : (d.takeNumber op h).ops = d.ops := by simp [Dev.takeNumber]
@[simp] theorem Dev.taken_results (op : Nat) (h : Hdr) : (d.takeNumber op h).results = d.results := by simp [Dev.takeNumber]
@[simp] theorem Dev.taken_lastBist (op : Nat) (h : Hdr) : (d.takeNumber op h).lastBist = d.lastBist := by simp [Dev.takeNumber]
@[simp] theorem Dev.taken_lastBistDigest (op : Nat) (h : Hdr) : (d.takeNumber op h).lastBistDigest = d.lastBistDigest := by simp [Dev.takeNumber]
@[simp] theorem Dev.taken_resetAt (op : Nat) (h : Hdr) : (d.takeNumber op h).resetAt = d.resetAt := by simp [Dev.takeNumber]
@[simp] theorem Dev.taken_leaveQ (op : Nat) (h : Hdr) : (d.takeNumber op h).leaveQ = d.leaveQ := by simp [Dev.takeNumber]
@[simp] theorem Dev.taken_hubGrant (op : Nat) (h : Hdr) : (d.takeNumber op h).hubGrant = d.hubGrant := by simp [Dev.takeNumber]
@[simp] theorem Dev.taken_resting (op : Nat) (h : Hdr) : (d.takeNumber op h).resting = d.resting := by simp [Dev.takeNumber]
@[simp] theorem Dev.taken_gated (op : Nat) (h : Hdr) : (d.takeNumber op h).gated = d.gated := by simp [Dev.takeNumber]
@[simp] theorem Dev.taken_unlocked (op : Nat) (h : Hdr) : (d.takeNumber op h).unlocked = d.unlocked := by simp [Dev.takeNumber]
@[simp] theorem Dev.taken_hotSensors (op : Nat) (h : Hdr) : (d.takeNumber op h).hotSensors = d.hotSensors := by simp [Dev.takeNumber]
@[simp] theorem Dev.taken_railHist (op : Nat) (h : Hdr) : (d.takeNumber op h).railHist = d.railHist := by simp [Dev.takeNumber]
@[simp] theorem Dev.taken_bist (op : Nat) (h : Hdr) : (d.takeNumber op h).bist = d.bist := by simp [Dev.takeNumber]
@[simp] theorem Dev.taken_frz (op : Nat) (h : Hdr) : (d.takeNumber op h).frz = d.frz := by simp [Dev.takeNumber]
@[simp] theorem Dev.taken_faults (op : Nat) (h : Hdr) : (d.takeNumber op h).faults = d.faults := by simp [Dev.takeNumber]

/-- What a register command never reads of the command unit: the fields that decide whether a packet is admitted. -/
theorem Dev.counted_admits (op : Nat) : (d.inc Reg.SM_COUNT1_UNSEQUENCED).admits op = d.admits op := by
  unfold Dev.admits Dev.frozen Dev.safe
  rw [Dev.counted_get d _ (by decide), Dev.counted_get d _ (by decide), Dev.inc_boot]

theorem Dev.taken_admits (op' : Nat) (op : Nat) (h : Hdr) : (d.takeNumber op h).admits op' = d.admits op' := by
  unfold Dev.admits Dev.frozen Dev.safe
  rw [Dev.taken_get d _ _ _ (by decide) (by decide), Dev.taken_get d _ _ _ (by decide) (by decide), Dev.taken_boot]

theorem Dev.counted_life : (d.inc Reg.SM_COUNT1_UNSEQUENCED).life = d.life := Dev.counted_get d _ (by decide)

theorem Dev.taken_life (op : Nat) (h : Hdr) : (d.takeNumber op h).life = d.life :=
  Dev.taken_get d _ _ _ (by decide) (by decide)

theorem Dev.counted_replyMax : (d.inc Reg.SM_COUNT1_UNSEQUENCED).replyMax = d.replyMax := by
  unfold Dev.replyMax; rw [Dev.counted_get d _ (by decide)]

theorem Dev.taken_replyMax (op : Nat) (h : Hdr) : (d.takeNumber op h).replyMax = d.replyMax := by
  unfold Dev.replyMax; rw [Dev.taken_get d _ _ _ (by decide) (by decide)]

/-! ### Unsequenced packets -/

/-- An unsequenced packet of a row marked n is counted and its row's checks decide. -/
theorem Cmd.exec_asked {c : Cmd} {s : State} {h : Hdr} {w : List W64} (a : Asked c s h w) (hf : c.free = true)
    (hp : c.pre s.counted = true) :
    c.exec s.fuses s.dev h w = (answer c.op h false s.fuses s.counted
      (match c.run s.fuses s.counted h w with
        | .ok d' b => if s.counted.replyMax < 8 * b.length then .refuse rcParameter noDetail else .ok d' b
        | a => a)).getD (s.fuses, s.counted) := by
  have h1 : s.counted.admits c.op = true := by rw [Dev.counted_admits]; exact a.admitted
  have h2 : c.states.contains s.counted.life = true := by rw [Dev.counted_life]; simpa using a.life
  have hs : ¬ 1138 < w.length := by have := a.short; omega
  unfold Cmd.exec Cmd.serve
  simp only [a.serving, a.version, a.length, hs, a.noseq, hf, h1, h2, hp]
  rfl

/-- A row marked n that reads answers OK with its block. -/
theorem Cmd.exec_read {c : Cmd} {s : State} {h : Hdr} {w : List W64} (a : Asked c s h w) (hf : c.free = true)
    (hp : c.pre s.counted = true) {d' : Dev} {b : List W64} (hr : c.run s.fuses s.counted h w = .ok d' b)
    (hb : 8 * b.length ≤ s.dev.replyMax) :
    c.exec s.fuses s.dev h w = (s.fuses, d'.okRead c.op h b) := by
  rw [Cmd.exec_asked a hf hp, hr]
  have : ¬ s.counted.replyMax < 8 * b.length := by rw [Dev.counted_replyMax]; omega
  simp only [this, ↓reduceIte]
  simp [answer]

/-! ### The next packet in sequence -/

theorem Dev.seqAhead_expected {q : W32} (h : q = d.expected) : d.seqAhead q = 1 := by
  have := d.get_lt Reg.SM_STATE_LAST_SEQ
  subst h
  unfold Dev.seqAhead Dev.expected
  rw [BitVec.toNat_ofNat]
  have e : 2 ^ ((Reg.SM_STATE_LAST_SEQ).hi + 1 - (Reg.SM_STATE_LAST_SEQ).lo) = 2 ^ 32 := by decide
  omega

/-- A packet that is the next in sequence, with none held before it. -/
theorem Cmd.next_one (c : Cmd) (f : Fuses) (h : Hdr) (w : List W64) (hn : d.seqAhead h.seq = 1)
    (h3 : (d.takeNumber c.op h).smiper.heldCmds = []) :
    c.next f d h w = (answer c.op h true f (d.takeNumber c.op h) (c.serve f (d.takeNumber c.op h) h w)).getD
      (f, (d.takeNumber c.op h).hold c.op h w) := by
  unfold Cmd.next
  generalize d.takeNumber c.op h = d' at *
  rw [hn]
  simp only [h3]
  generalize answer c.op h true f d' (c.serve f d' h w) = r
  cases r <;> simp

/-- The next packet in sequence takes its number, and its row's checks decide; a row that must wait holds it. -/
theorem Cmd.exec_sent {c : Cmd} {s : State} {h : Hdr} {w : List W64} (a : Sent c s h w) (ho : basicOp c.op ≠ 0x102)
    (hp : c.pre (s.taken c.op h) = true) :
    c.exec s.fuses s.dev h w = (answer c.op h true s.fuses (s.taken c.op h)
      (match c.run s.fuses (s.taken c.op h) h w with
        | .ok d' b => if (s.taken c.op h).replyMax < 8 * b.length then .refuse rcParameter noDetail else .ok d' b
        | a => a)).getD (s.fuses, (s.taken c.op h).hold c.op h w) := by
  have h1 : (s.dev.takeNumber c.op h).admits c.op = true := by rw [Dev.taken_admits]; exact a.admitted
  have h2 : c.states.contains (s.dev.takeNumber c.op h).life = true := by rw [Dev.taken_life]; simpa using a.life
  have h3 : (s.dev.takeNumber c.op h).smiper.heldCmds = [] := by simp [Dev.takeNumber, a.alone]
  have hs : ¬ 1138 < w.length := by have := a.short; omega
  have hn := Cmd.next_one s.dev c s.fuses h w (Dev.seqAhead_expected _ a.next) h3
  have he : c.serve s.fuses (s.dev.takeNumber c.op h) h w = (match c.run s.fuses (s.dev.takeNumber c.op h) h w with
        | .ok d' b => if (s.dev.takeNumber c.op h).replyMax < 8 * b.length then .refuse rcParameter noDetail else .ok d' b
        | a => a) := by unfold Cmd.serve; simp only [h1, h2, hp]; rfl
  rw [he] at hn
  unfold Cmd.exec
  simp only [a.serving, a.version, a.length, hs, a.noseq, ho, a.session.1, a.session.2, hn]
  simp

/-- A row that answers OK at once. -/
theorem Cmd.exec_ok {c : Cmd} {s : State} {h : Hdr} {w : List W64} (a : Sent c s h w) (ho : basicOp c.op ≠ 0x102)
    (hp : c.pre (s.taken c.op h) = true) {d' : Dev} {b : List W64}
    (hr : c.run s.fuses (s.taken c.op h) h w = .ok d' b) (hb : 8 * b.length ≤ s.dev.replyMax) :
    c.exec s.fuses s.dev h w = (s.fuses, d'.okReply c.op h b) := by
  rw [Cmd.exec_sent a ho hp, hr]
  have : ¬ (s.taken c.op h).replyMax < 8 * b.length := by rw [Dev.taken_replyMax]; omega
  simp only [this, ↓reduceIte]
  simp [answer]

/-- A row that answers OK with no block. -/
theorem Cmd.exec_done {c : Cmd} {s : State} {h : Hdr} {w : List W64} (a : Sent c s h w) (ho : basicOp c.op ≠ 0x102)
    (hp : c.pre (s.taken c.op h) = true) {d' : Dev} (hr : c.run s.fuses (s.taken c.op h) h w = .ok d' []) :
    c.exec s.fuses s.dev h w = (s.fuses, d'.okReply c.op h []) := Cmd.exec_ok a ho hp hr (by simp)

/-- A row that does something more after its reply. -/
theorem Cmd.exec_okThen {c : Cmd} {s : State} {h : Hdr} {w : List W64} (a : Sent c s h w) (ho : basicOp c.op ≠ 0x102)
    (hp : c.pre (s.taken c.op h) = true) {d' : Dev} {b : List W64} {g : Fuses → Dev → Dev}
    (hr : c.run s.fuses (s.taken c.op h) h w = .okThen d' b g) :
    c.exec s.fuses s.dev h w = (s.fuses, g s.fuses (d'.okReply c.op h b)) := by
  rw [Cmd.exec_sent a ho hp, hr]; simp [answer]

/-- A row that blows fuses. -/
theorem Cmd.exec_okF {c : Cmd} {s : State} {h : Hdr} {w : List W64} (a : Sent c s h w) (ho : basicOp c.op ≠ 0x102)
    (hp : c.pre (s.taken c.op h) = true) {f' : Fuses} {d' : Dev} {b : List W64}
    (hr : c.run s.fuses (s.taken c.op h) h w = .okF f' d' b) :
    c.exec s.fuses s.dev h w = (f', d'.okReply c.op h b) := by
  rw [Cmd.exec_sent a ho hp, hr]; simp [answer]

/-- A long operation that is accepted. -/
theorem Cmd.exec_accepted {c : Cmd} {s : State} {h : Hdr} {w : List W64} (a : Sent c s h w) (ho : basicOp c.op ≠ 0x102)
    (hp : c.pre (s.taken c.op h) = true) {d' : Dev} (hr : c.run s.fuses (s.taken c.op h) h w = .accepted d') :
    c.exec s.fuses s.dev h w = (s.fuses, d'.acceptReply c.op h) := by
  rw [Cmd.exec_sent a ho hp, hr]; simp [answer]

/-- A refusal of a row. -/
theorem Cmd.exec_refused {c : Cmd} {s : State} {h : Hdr} {w : List W64} (a : Sent c s h w) (ho : basicOp c.op ≠ 0x102)
    (hp : c.pre (s.taken c.op h) = true) {code detail : Nat}
    (hr : c.run s.fuses (s.taken c.op h) h w = .refuse code detail) :
    c.exec s.fuses s.dev h w = (s.fuses, (s.taken c.op h).refusal c.op h code detail) := by
  rw [Cmd.exec_sent a ho hp, hr]; simp [answer]

/-- A long operation with room is queued. -/
theorem Dev.acceptOp_room {op : Nat} {h : Hdr} {w : List W64} (hr : d.roomFor h) :
    d.acceptOp op h w = .accepted (d.queueOp op h w) := by
  unfold Dev.acceptOp Dev.queueOp
  have h2 : ¬ 32 ≤ d.ops.length := by have := hr.2; omega
  simp [hr.1, h2]

/-! ### Several register writes -/

/-- Writes that pass their checks, each after those before it, are all made (15 R426). -/
theorem Dev.writeAll_pass (d : Dev) (k : Nat) (l : List (Nat × W64 × W64)) (h : d.WritesPass l) :
    d.writeAll false k l = .ok (d.writesDone l) := by
  induction l generalizing d k with
  | nil => rfl
  | cons x t ih =>
    have h0 : d.writeBad x.1 x.2.1 x.2.2 false = none := h 0 x rfl
    unfold Dev.writeAll
    rw [h0]
    exact ih (d.writeReg x.1 x.2.1 x.2.2) (k + 1) (fun i y hy => h (i + 1) y hy)

end Sys2Proof.Machine
end

