-- ==== Sys2Proof/Laws/Frames.lean ====
section
/-! SUPPORT. What moves of the power and job states and the waking of units leave as they were. -/

namespace Sys2Proof.Machine

variable (d : Dev)

/-! ### d.setPower n -/

@[simp] theorem Dev.setPower_mem (n : Nat) : (d.setPower n).mem = d.mem := by unfold Dev.setPower; dsimp only; split <;> simp
@[simp] theorem Dev.setPower_errs (n : Nat) : (d.setPower n).errs = d.errs := by unfold Dev.setPower; dsimp only; split <;> simp
@[simp] theorem Dev.setPower_tags (n : Nat) : (d.setPower n).tags = d.tags := by unfold Dev.setPower; dsimp only; split <;> simp
@[simp] theorem Dev.setPower_tagErrs (n : Nat) : (d.setPower n).tagErrs = d.tagErrs := by unfold Dev.setPower; dsimp only; split <;> simp
@[simp] theorem Dev.setPower_staged (n : Nat) : (d.setPower n).staged = d.staged := by unfold Dev.setPower; dsimp only; split <;> simp
@[simp] theorem Dev.setPower_arith (n : Nat) : (d.setPower n).arith = d.arith := by unfold Dev.setPower; dsimp only; split <;> simp
@[simp] theorem Dev.setPower_aonBeat (n : Nat) : (d.setPower n).aonBeat = d.aonBeat := by unfold Dev.setPower; dsimp only; split <;> simp
@[simp] theorem Dev.setPower_countedBeats (n : Nat) : (d.setPower n).countedBeats = d.countedBeats := by unfold Dev.setPower; dsimp only; split <;> simp
@[simp] theorem Dev.setPower_ageBeats (n : Nat) : (d.setPower n).ageBeats = d.ageBeats := by unfold Dev.setPower; dsimp only; split <;> simp
@[simp] theorem Dev.setPower_liveBeats (n : Nat) : (d.setPower n).liveBeats = d.liveBeats := by unfold Dev.setPower; dsimp only; split <;> simp
@[simp] theorem Dev.setPower_log (n : Nat) : (d.setPower n).log = d.log := by unfold Dev.setPower; dsimp only; split <;> simp
@[simp] theorem Dev.setPower_bench (n : Nat) : (d.setPower n).bench = d.bench := by unfold Dev.setPower; dsimp only; split <;> simp
@[simp] theorem Dev.setPower_outbox (n : Nat) : (d.setPower n).outbox = d.outbox := by unfold Dev.setPower; dsimp only; split <;> simp
@[simp] theorem Dev.setPower_upq (n : Nat) : (d.setPower n).upq = d.upq := by unfold Dev.setPower; dsimp only; split <;> simp
@[simp] theorem Dev.setPower_granted (n : Nat) : (d.setPower n).granted = d.granted := by unfold Dev.setPower; dsimp only; split <;> simp
@[simp] theorem Dev.setPower_maxNeed (n : Nat) : (d.setPower n).maxNeed = d.maxNeed := by unfold Dev.setPower; dsimp only; split <;> simp
@[simp] theorem Dev.setPower_chans (n : Nat) : (d.setPower n).chans = d.chans := by unfold Dev.setPower; dsimp only; split <;> simp
@[simp] theorem Dev.setPower_net (n : Nat) : (d.setPower n).net = d.net := by unfold Dev.setPower; dsimp only; split <;> simp
@[simp] theorem Dev.setPower_floors (n : Nat) : (d.setPower n).floors = d.floors := by unfold Dev.setPower; dsimp only; split <;> simp
@[simp] theorem Dev.setPower_fences (n : Nat) : (d.setPower n).fences = d.fences := by unfold Dev.setPower; dsimp only; split <;> simp
@[simp] theorem Dev.setPower_step (n : Nat) : (d.setPower n).step = d.step := by unfold Dev.setPower; dsimp only; split <;> simp
@[simp] theorem Dev.setPower_job (n : Nat) : (d.setPower n).job = d.job := by unfold Dev.setPower; dsimp only; split <;> simp
@[simp] theorem Dev.setPower_saved (n : Nat) : (d.setPower n).saved = d.saved := by unfold Dev.setPower; dsimp only; split <;> simp
@[simp] theorem Dev.setPower_lat (n : Nat) : (d.setPower n).lat = d.lat := by unfold Dev.setPower; dsimp only; split <;> simp
@[simp] theorem Dev.setPower_flash (n : Nat) : (d.setPower n).flash = d.flash := by unfold Dev.setPower; dsimp only; split <;> simp
@[simp] theorem Dev.setPower_boot (n : Nat) : (d.setPower n).boot = d.boot := by unfold Dev.setPower; dsimp only; split <;> simp
@[simp] theorem Dev.setPower_pins (n : Nat) : (d.setPower n).pins = d.pins := by unfold Dev.setPower; dsimp only; split <;> simp
@[simp] theorem Dev.setPower_time (n : Nat) : (d.setPower n).time = d.time := by unfold Dev.setPower; dsimp only; split <;> simp
@[simp] theorem Dev.setPower_slipLeft (n : Nat) : (d.setPower n).slipLeft = d.slipLeft := by unfold Dev.setPower; dsimp only; split <;> simp
@[simp] theorem Dev.setPower_smiper (n : Nat) : (d.setPower n).smiper = d.smiper := by unfold Dev.setPower; dsimp only; split <;> simp
@[simp] theorem Dev.setPower_ops (n : Nat) : (d.setPower n).ops = d.ops := by unfold Dev.setPower; dsimp only; split <;> simp
@[simp] theorem Dev.setPower_results (n : Nat) : (d.setPower n).results = d.results := by unfold Dev.setPower; dsimp only; split <;> simp
@[simp] theorem Dev.setPower_lastBist (n : Nat) : (d.setPower n).lastBist = d.lastBist := by unfold Dev.setPower; dsimp only; split <;> simp
@[simp] theorem Dev.setPower_lastBistDigest (n : Nat) : (d.setPower n).lastBistDigest = d.lastBistDigest := by unfold Dev.setPower; dsimp only; split <;> simp
@[simp] theorem Dev.setPower_resetAt (n : Nat) : (d.setPower n).resetAt = d.resetAt := by unfold Dev.setPower; dsimp only; split <;> simp
@[simp] theorem Dev.setPower_leaveQ (n : Nat) : (d.setPower n).leaveQ = d.leaveQ := by unfold Dev.setPower; dsimp only; split <;> simp
@[simp] theorem Dev.setPower_hubGrant (n : Nat) : (d.setPower n).hubGrant = d.hubGrant := by unfold Dev.setPower; dsimp only; split <;> simp
@[simp] theorem Dev.setPower_resting (n : Nat) : (d.setPower n).resting = d.resting := by unfold Dev.setPower; dsimp only; split <;> simp
@[simp] theorem Dev.setPower_gated (n : Nat) : (d.setPower n).gated = d.gated := by unfold Dev.setPower; dsimp only; split <;> simp
@[simp] theorem Dev.setPower_unlocked (n : Nat) : (d.setPower n).unlocked = d.unlocked := by unfold Dev.setPower; dsimp only; split <;> simp
@[simp] theorem Dev.setPower_hotSensors (n : Nat) : (d.setPower n).hotSensors = d.hotSensors := by unfold Dev.setPower; dsimp only; split <;> simp
@[simp] theorem Dev.setPower_railHist (n : Nat) : (d.setPower n).railHist = d.railHist := by unfold Dev.setPower; dsimp only; split <;> simp
@[simp] theorem Dev.setPower_bist (n : Nat) : (d.setPower n).bist = d.bist := by unfold Dev.setPower; dsimp only; split <;> simp
@[simp] theorem Dev.setPower_frz (n : Nat) : (d.setPower n).frz = d.frz := by unfold Dev.setPower; dsimp only; split <;> simp
@[simp] theorem Dev.setPower_faults (n : Nat) : (d.setPower n).faults = d.faults := by unfold Dev.setPower; dsimp only; split <;> simp

/-! ### d.setJs n -/

@[simp] theorem Dev.setJs_mem (n : Nat) : (d.setJs n).mem = d.mem := by unfold Dev.setJs; dsimp only; split <;> simp
@[simp] theorem Dev.setJs_errs (n : Nat) : (d.setJs n).errs = d.errs := by unfold Dev.setJs; dsimp only; split <;> simp
@[simp] theorem Dev.setJs_tags (n : Nat) : (d.setJs n).tags = d.tags := by unfold Dev.setJs; dsimp only; split <;> simp
@[simp] theorem Dev.setJs_tagErrs (n : Nat) : (d.setJs n).tagErrs = d.tagErrs := by unfold Dev.setJs; dsimp only; split <;> simp
@[simp] theorem Dev.setJs_staged (n : Nat) : (d.setJs n).staged = d.staged := by unfold Dev.setJs; dsimp only; split <;> simp
@[simp] theorem Dev.setJs_arith (n : Nat) : (d.setJs n).arith = d.arith := by unfold Dev.setJs; dsimp only; split <;> simp
@[simp] theorem Dev.setJs_aonBeat (n : Nat) : (d.setJs n).aonBeat = d.aonBeat := by unfold Dev.setJs; dsimp only; split <;> simp
@[simp] theorem Dev.setJs_countedBeats (n : Nat) : (d.setJs n).countedBeats = d.countedBeats := by unfold Dev.setJs; dsimp only; split <;> simp
@[simp] theorem Dev.setJs_ageBeats (n : Nat) : (d.setJs n).ageBeats = d.ageBeats := by unfold Dev.setJs; dsimp only; split <;> simp
@[simp] theorem Dev.setJs_liveBeats (n : Nat) : (d.setJs n).liveBeats = d.liveBeats := by unfold Dev.setJs; dsimp only; split <;> simp
@[simp] theorem Dev.setJs_log (n : Nat) : (d.setJs n).log = d.log := by unfold Dev.setJs; dsimp only; split <;> simp
@[simp] theorem Dev.setJs_bench (n : Nat) : (d.setJs n).bench = d.bench := by unfold Dev.setJs; dsimp only; split <;> simp
@[simp] theorem Dev.setJs_outbox (n : Nat) : (d.setJs n).outbox = d.outbox := by unfold Dev.setJs; dsimp only; split <;> simp
@[simp] theorem Dev.setJs_upq (n : Nat) : (d.setJs n).upq = d.upq := by unfold Dev.setJs; dsimp only; split <;> simp
@[simp] theorem Dev.setJs_granted (n : Nat) : (d.setJs n).granted = d.granted := by unfold Dev.setJs; dsimp only; split <;> simp
@[simp] theorem Dev.setJs_maxNeed (n : Nat) : (d.setJs n).maxNeed = d.maxNeed := by unfold Dev.setJs; dsimp only; split <;> simp
@[simp] theorem Dev.setJs_chans (n : Nat) : (d.setJs n).chans = d.chans := by unfold Dev.setJs; dsimp only; split <;> simp
@[simp] theorem Dev.setJs_net (n : Nat) : (d.setJs n).net = d.net := by unfold Dev.setJs; dsimp only; split <;> simp
@[simp] theorem Dev.setJs_floors (n : Nat) : (d.setJs n).floors = d.floors := by unfold Dev.setJs; dsimp only; split <;> simp
@[simp] theorem Dev.setJs_fences (n : Nat) : (d.setJs n).fences = d.fences := by unfold Dev.setJs; dsimp only; split <;> simp
@[simp] theorem Dev.setJs_step (n : Nat) : (d.setJs n).step = d.step := by unfold Dev.setJs; dsimp only; split <;> simp
@[simp] theorem Dev.setJs_job (n : Nat) : (d.setJs n).job = d.job := by unfold Dev.setJs; dsimp only; split <;> simp
@[simp] theorem Dev.setJs_saved (n : Nat) : (d.setJs n).saved = d.saved := by unfold Dev.setJs; dsimp only; split <;> simp
@[simp] theorem Dev.setJs_lat (n : Nat) : (d.setJs n).lat = d.lat := by unfold Dev.setJs; dsimp only; split <;> simp
@[simp] theorem Dev.setJs_flash (n : Nat) : (d.setJs n).flash = d.flash := by unfold Dev.setJs; dsimp only; split <;> simp
@[simp] theorem Dev.setJs_boot (n : Nat) : (d.setJs n).boot = d.boot := by unfold Dev.setJs; dsimp only; split <;> simp
@[simp] theorem Dev.setJs_pins (n : Nat) : (d.setJs n).pins = d.pins := by unfold Dev.setJs; dsimp only; split <;> simp
@[simp] theorem Dev.setJs_time (n : Nat) : (d.setJs n).time = d.time := by unfold Dev.setJs; dsimp only; split <;> simp
@[simp] theorem Dev.setJs_slipLeft (n : Nat) : (d.setJs n).slipLeft = d.slipLeft := by unfold Dev.setJs; dsimp only; split <;> simp
@[simp] theorem Dev.setJs_smiper (n : Nat) : (d.setJs n).smiper = d.smiper := by unfold Dev.setJs; dsimp only; split <;> simp
@[simp] theorem Dev.setJs_ops (n : Nat) : (d.setJs n).ops = d.ops := by unfold Dev.setJs; dsimp only; split <;> simp
@[simp] theorem Dev.setJs_results (n : Nat) : (d.setJs n).results = d.results := by unfold Dev.setJs; dsimp only; split <;> simp
@[simp] theorem Dev.setJs_lastBist (n : Nat) : (d.setJs n).lastBist = d.lastBist := by unfold Dev.setJs; dsimp only; split <;> simp
@[simp] theorem Dev.setJs_lastBistDigest (n : Nat) : (d.setJs n).lastBistDigest = d.lastBistDigest := by unfold Dev.setJs; dsimp only; split <;> simp
@[simp] theorem Dev.setJs_resetAt (n : Nat) : (d.setJs n).resetAt = d.resetAt := by unfold Dev.setJs; dsimp only; split <;> simp
@[simp] theorem Dev.setJs_leaveQ (n : Nat) : (d.setJs n).leaveQ = d.leaveQ := by unfold Dev.setJs; dsimp only; split <;> simp
@[simp] theorem Dev.setJs_hubGrant (n : Nat) : (d.setJs n).hubGrant = d.hubGrant := by unfold Dev.setJs; dsimp only; split <;> simp
@[simp] theorem Dev.setJs_resting (n : Nat) : (d.setJs n).resting = d.resting := by unfold Dev.setJs; dsimp only; split <;> simp
@[simp] theorem Dev.setJs_gated (n : Nat) : (d.setJs n).gated = d.gated := by unfold Dev.setJs; dsimp only; split <;> simp
@[simp] theorem Dev.setJs_unlocked (n : Nat) : (d.setJs n).unlocked = d.unlocked := by unfold Dev.setJs; dsimp only; split <;> simp
@[simp] theorem Dev.setJs_hotSensors (n : Nat) : (d.setJs n).hotSensors = d.hotSensors := by unfold Dev.setJs; dsimp only; split <;> simp
@[simp] theorem Dev.setJs_railHist (n : Nat) : (d.setJs n).railHist = d.railHist := by unfold Dev.setJs; dsimp only; split <;> simp
@[simp] theorem Dev.setJs_bist (n : Nat) : (d.setJs n).bist = d.bist := by unfold Dev.setJs; dsimp only; split <;> simp
@[simp] theorem Dev.setJs_frz (n : Nat) : (d.setJs n).frz = d.frz := by unfold Dev.setJs; dsimp only; split <;> simp
@[simp] theorem Dev.setJs_faults (n : Nat) : (d.setJs n).faults = d.faults := by unfold Dev.setJs; dsimp only; split <;> simp

/-! ### d.wakeUnits l -/

theorem Dev.iteSetPower_mem (p : Prop) [Decidable p] (n : Nat) : (if p then d.setPower n else d).mem = d.mem := by split <;> simp
@[simp] theorem Dev.wakeUnits_mem (l : List Nat) : (d.wakeUnits l).mem = d.mem := Dev.iteSetPower_mem _ _ _
theorem Dev.iteSetPower_errs (p : Prop) [Decidable p] (n : Nat) : (if p then d.setPower n else d).errs = d.errs := by split <;> simp
@[simp] theorem Dev.wakeUnits_errs (l : List Nat) : (d.wakeUnits l).errs = d.errs := Dev.iteSetPower_errs _ _ _
theorem Dev.iteSetPower_tags (p : Prop) [Decidable p] (n : Nat) : (if p then d.setPower n else d).tags = d.tags := by split <;> simp
@[simp] theorem Dev.wakeUnits_tags (l : List Nat) : (d.wakeUnits l).tags = d.tags := Dev.iteSetPower_tags _ _ _
theorem Dev.iteSetPower_tagErrs (p : Prop) [Decidable p] (n : Nat) : (if p then d.setPower n else d).tagErrs = d.tagErrs := by split <;> simp
@[simp] theorem Dev.wakeUnits_tagErrs (l : List Nat) : (d.wakeUnits l).tagErrs = d.tagErrs := Dev.iteSetPower_tagErrs _ _ _
theorem Dev.iteSetPower_staged (p : Prop) [Decidable p] (n : Nat) : (if p then d.setPower n else d).staged = d.staged := by split <;> simp
@[simp] theorem Dev.wakeUnits_staged (l : List Nat) : (d.wakeUnits l).staged = d.staged := Dev.iteSetPower_staged _ _ _
theorem Dev.iteSetPower_arith (p : Prop) [Decidable p] (n : Nat) : (if p then d.setPower n else d).arith = d.arith := by split <;> simp
@[simp] theorem Dev.wakeUnits_arith (l : List Nat) : (d.wakeUnits l).arith = d.arith := Dev.iteSetPower_arith _ _ _
theorem Dev.iteSetPower_aonBeat (p : Prop) [Decidable p] (n : Nat) : (if p then d.setPower n else d).aonBeat = d.aonBeat := by split <;> simp
@[simp] theorem Dev.wakeUnits_aonBeat (l : List Nat) : (d.wakeUnits l).aonBeat = d.aonBeat := Dev.iteSetPower_aonBeat _ _ _
theorem Dev.iteSetPower_countedBeats (p : Prop) [Decidable p] (n : Nat) : (if p then d.setPower n else d).countedBeats = d.countedBeats := by split <;> simp
@[simp] theorem Dev.wakeUnits_countedBeats (l : List Nat) : (d.wakeUnits l).countedBeats = d.countedBeats := Dev.iteSetPower_countedBeats _ _ _
theorem Dev.iteSetPower_ageBeats (p : Prop) [Decidable p] (n : Nat) : (if p then d.setPower n else d).ageBeats = d.ageBeats := by split <;> simp
theorem Dev.iteSetPower_liveBeats (p : Prop) [Decidable p] (n : Nat) : (if p then d.setPower n else d).liveBeats = d.liveBeats := by split <;> simp
@[simp] theorem Dev.wakeUnits_ageBeats (l : List Nat) : (d.wakeUnits l).ageBeats = d.ageBeats := Dev.iteSetPower_ageBeats _ _ _
@[simp] theorem Dev.wakeUnits_liveBeats (l : List Nat) : (d.wakeUnits l).liveBeats = d.liveBeats := Dev.iteSetPower_liveBeats _ _ _
theorem Dev.iteSetPower_log (p : Prop) [Decidable p] (n : Nat) : (if p then d.setPower n else d).log = d.log := by split <;> simp
@[simp] theorem Dev.wakeUnits_log (l : List Nat) : (d.wakeUnits l).log = d.log := Dev.iteSetPower_log _ _ _
theorem Dev.iteSetPower_bench (p : Prop) [Decidable p] (n : Nat) : (if p then d.setPower n else d).bench = d.bench := by split <;> simp
@[simp] theorem Dev.wakeUnits_bench (l : List Nat) : (d.wakeUnits l).bench = d.bench := Dev.iteSetPower_bench _ _ _
theorem Dev.iteSetPower_outbox (p : Prop) [Decidable p] (n : Nat) : (if p then d.setPower n else d).outbox = d.outbox := by split <;> simp
@[simp] theorem Dev.wakeUnits_outbox (l : List Nat) : (d.wakeUnits l).outbox = d.outbox := Dev.iteSetPower_outbox _ _ _
theorem Dev.iteSetPower_upq (p : Prop) [Decidable p] (n : Nat) : (if p then d.setPower n else d).upq = d.upq := by split <;> simp
@[simp] theorem Dev.wakeUnits_upq (l : List Nat) : (d.wakeUnits l).upq = d.upq := Dev.iteSetPower_upq _ _ _
theorem Dev.iteSetPower_granted (p : Prop) [Decidable p] (n : Nat) : (if p then d.setPower n else d).granted = d.granted := by split <;> simp
@[simp] theorem Dev.wakeUnits_granted (l : List Nat) : (d.wakeUnits l).granted = d.granted := Dev.iteSetPower_granted _ _ _
theorem Dev.iteSetPower_maxNeed (p : Prop) [Decidable p] (n : Nat) : (if p then d.setPower n else d).maxNeed = d.maxNeed := by split <;> simp
@[simp] theorem Dev.wakeUnits_maxNeed (l : List Nat) : (d.wakeUnits l).maxNeed = d.maxNeed := Dev.iteSetPower_maxNeed _ _ _
theorem Dev.iteSetPower_chans (p : Prop) [Decidable p] (n : Nat) : (if p then d.setPower n else d).chans = d.chans := by split <;> simp
@[simp] theorem Dev.wakeUnits_chans (l : List Nat) : (d.wakeUnits l).chans = d.chans := Dev.iteSetPower_chans _ _ _
theorem Dev.iteSetPower_net (p : Prop) [Decidable p] (n : Nat) : (if p then d.setPower n else d).net = d.net := by split <;> simp
@[simp] theorem Dev.wakeUnits_net (l : List Nat) : (d.wakeUnits l).net = d.net := Dev.iteSetPower_net _ _ _
theorem Dev.iteSetPower_floors (p : Prop) [Decidable p] (n : Nat) : (if p then d.setPower n else d).floors = d.floors := by split <;> simp
@[simp] theorem Dev.wakeUnits_floors (l : List Nat) : (d.wakeUnits l).floors = d.floors := Dev.iteSetPower_floors _ _ _
theorem Dev.iteSetPower_fences (p : Prop) [Decidable p] (n : Nat) : (if p then d.setPower n else d).fences = d.fences := by split <;> simp
@[simp] theorem Dev.wakeUnits_fences (l : List Nat) : (d.wakeUnits l).fences = d.fences := Dev.iteSetPower_fences _ _ _
theorem Dev.iteSetPower_step (p : Prop) [Decidable p] (n : Nat) : (if p then d.setPower n else d).step = d.step := by split <;> simp
@[simp] theorem Dev.wakeUnits_step (l : List Nat) : (d.wakeUnits l).step = d.step := Dev.iteSetPower_step _ _ _
theorem Dev.iteSetPower_job (p : Prop) [Decidable p] (n : Nat) : (if p then d.setPower n else d).job = d.job := by split <;> simp
@[simp] theorem Dev.wakeUnits_job (l : List Nat) : (d.wakeUnits l).job = d.job := Dev.iteSetPower_job _ _ _
theorem Dev.iteSetPower_saved (p : Prop) [Decidable p] (n : Nat) : (if p then d.setPower n else d).saved = d.saved := by split <;> simp
@[simp] theorem Dev.wakeUnits_saved (l : List Nat) : (d.wakeUnits l).saved = d.saved := Dev.iteSetPower_saved _ _ _
theorem Dev.iteSetPower_lat (p : Prop) [Decidable p] (n : Nat) : (if p then d.setPower n else d).lat = d.lat := by split <;> simp
@[simp] theorem Dev.wakeUnits_lat (l : List Nat) : (d.wakeUnits l).lat = d.lat := Dev.iteSetPower_lat _ _ _
theorem Dev.iteSetPower_flash (p : Prop) [Decidable p] (n : Nat) : (if p then d.setPower n else d).flash = d.flash := by split <;> simp
@[simp] theorem Dev.wakeUnits_flash (l : List Nat) : (d.wakeUnits l).flash = d.flash := Dev.iteSetPower_flash _ _ _
theorem Dev.iteSetPower_boot (p : Prop) [Decidable p] (n : Nat) : (if p then d.setPower n else d).boot = d.boot := by split <;> simp
@[simp] theorem Dev.wakeUnits_boot (l : List Nat) : (d.wakeUnits l).boot = d.boot := Dev.iteSetPower_boot _ _ _
theorem Dev.iteSetPower_pins (p : Prop) [Decidable p] (n : Nat) : (if p then d.setPower n else d).pins = d.pins := by split <;> simp
@[simp] theorem Dev.wakeUnits_pins (l : List Nat) : (d.wakeUnits l).pins = d.pins := Dev.iteSetPower_pins _ _ _
theorem Dev.iteSetPower_time (p : Prop) [Decidable p] (n : Nat) : (if p then d.setPower n else d).time = d.time := by split <;> simp
@[simp] theorem Dev.wakeUnits_time (l : List Nat) : (d.wakeUnits l).time = d.time := Dev.iteSetPower_time _ _ _
theorem Dev.iteSetPower_slipLeft (p : Prop) [Decidable p] (n : Nat) : (if p then d.setPower n else d).slipLeft = d.slipLeft := by split <;> simp
@[simp] theorem Dev.wakeUnits_slipLeft (l : List Nat) : (d.wakeUnits l).slipLeft = d.slipLeft := Dev.iteSetPower_slipLeft _ _ _
theorem Dev.iteSetPower_smiper (p : Prop) [Decidable p] (n : Nat) : (if p then d.setPower n else d).smiper = d.smiper := by split <;> simp
@[simp] theorem Dev.wakeUnits_smiper (l : List Nat) : (d.wakeUnits l).smiper = d.smiper := Dev.iteSetPower_smiper _ _ _
theorem Dev.iteSetPower_ops (p : Prop) [Decidable p] (n : Nat) : (if p then d.setPower n else d).ops = d.ops := by split <;> simp
@[simp] theorem Dev.wakeUnits_ops (l : List Nat) : (d.wakeUnits l).ops = d.ops := Dev.iteSetPower_ops _ _ _
theorem Dev.iteSetPower_results (p : Prop) [Decidable p] (n : Nat) : (if p then d.setPower n else d).results = d.results := by split <;> simp
@[simp] theorem Dev.wakeUnits_results (l : List Nat) : (d.wakeUnits l).results = d.results := Dev.iteSetPower_results _ _ _
theorem Dev.iteSetPower_lastBist (p : Prop) [Decidable p] (n : Nat) : (if p then d.setPower n else d).lastBist = d.lastBist := by split <;> simp
@[simp] theorem Dev.wakeUnits_lastBist (l : List Nat) : (d.wakeUnits l).lastBist = d.lastBist := Dev.iteSetPower_lastBist _ _ _
theorem Dev.iteSetPower_lastBistDigest (p : Prop) [Decidable p] (n : Nat) : (if p then d.setPower n else d).lastBistDigest = d.lastBistDigest := by split <;> simp
@[simp] theorem Dev.wakeUnits_lastBistDigest (l : List Nat) : (d.wakeUnits l).lastBistDigest = d.lastBistDigest := Dev.iteSetPower_lastBistDigest _ _ _
theorem Dev.iteSetPower_resetAt (p : Prop) [Decidable p] (n : Nat) : (if p then d.setPower n else d).resetAt = d.resetAt := by split <;> simp
@[simp] theorem Dev.wakeUnits_resetAt (l : List Nat) : (d.wakeUnits l).resetAt = d.resetAt := Dev.iteSetPower_resetAt _ _ _
theorem Dev.iteSetPower_leaveQ (p : Prop) [Decidable p] (n : Nat) : (if p then d.setPower n else d).leaveQ = d.leaveQ := by split <;> simp
@[simp] theorem Dev.wakeUnits_leaveQ (l : List Nat) : (d.wakeUnits l).leaveQ = d.leaveQ := Dev.iteSetPower_leaveQ _ _ _
theorem Dev.iteSetPower_hubGrant (p : Prop) [Decidable p] (n : Nat) : (if p then d.setPower n else d).hubGrant = d.hubGrant := by split <;> simp
@[simp] theorem Dev.wakeUnits_hubGrant (l : List Nat) : (d.wakeUnits l).hubGrant = d.hubGrant := Dev.iteSetPower_hubGrant _ _ _
theorem Dev.iteSetPower_gated (p : Prop) [Decidable p] (n : Nat) : (if p then d.setPower n else d).gated = d.gated := by split <;> simp
@[simp] theorem Dev.wakeUnits_gated (l : List Nat) : (d.wakeUnits l).gated = d.gated := Dev.iteSetPower_gated _ _ _
theorem Dev.iteSetPower_hotSensors (p : Prop) [Decidable p] (n : Nat) : (if p then d.setPower n else d).hotSensors = d.hotSensors := by split <;> simp
@[simp] theorem Dev.wakeUnits_hotSensors (l : List Nat) : (d.wakeUnits l).hotSensors = d.hotSensors := Dev.iteSetPower_hotSensors _ _ _
theorem Dev.iteSetPower_railHist (p : Prop) [Decidable p] (n : Nat) : (if p then d.setPower n else d).railHist = d.railHist := by split <;> simp
@[simp] theorem Dev.wakeUnits_railHist (l : List Nat) : (d.wakeUnits l).railHist = d.railHist := Dev.iteSetPower_railHist _ _ _
theorem Dev.iteSetPower_bist (p : Prop) [Decidable p] (n : Nat) : (if p then d.setPower n else d).bist = d.bist := by split <;> simp
@[simp] theorem Dev.wakeUnits_bist (l : List Nat) : (d.wakeUnits l).bist = d.bist := Dev.iteSetPower_bist _ _ _
theorem Dev.iteSetPower_frz (p : Prop) [Decidable p] (n : Nat) : (if p then d.setPower n else d).frz = d.frz := by split <;> simp
@[simp] theorem Dev.wakeUnits_frz (l : List Nat) : (d.wakeUnits l).frz = d.frz := Dev.iteSetPower_frz _ _ _
theorem Dev.iteSetPower_faults (p : Prop) [Decidable p] (n : Nat) : (if p then d.setPower n else d).faults = d.faults := by split <;> simp
@[simp] theorem Dev.wakeUnits_faults (l : List Nat) : (d.wakeUnits l).faults = d.faults := Dev.iteSetPower_faults _ _ _

/-! ### d.wakeRegs l -/

@[simp] theorem Dev.wakeRegs_mem (l : List Nat) : (d.wakeRegs l).mem = d.mem := by unfold Dev.wakeRegs; split <;> simp
@[simp] theorem Dev.wakeRegs_errs (l : List Nat) : (d.wakeRegs l).errs = d.errs := by unfold Dev.wakeRegs; split <;> simp
@[simp] theorem Dev.wakeRegs_tags (l : List Nat) : (d.wakeRegs l).tags = d.tags := by unfold Dev.wakeRegs; split <;> simp
@[simp] theorem Dev.wakeRegs_tagErrs (l : List Nat) : (d.wakeRegs l).tagErrs = d.tagErrs := by unfold Dev.wakeRegs; split <;> simp
@[simp] theorem Dev.wakeRegs_staged (l : List Nat) : (d.wakeRegs l).staged = d.staged := by unfold Dev.wakeRegs; split <;> simp
@[simp] theorem Dev.wakeRegs_arith (l : List Nat) : (d.wakeRegs l).arith = d.arith := by unfold Dev.wakeRegs; split <;> simp
@[simp] theorem Dev.wakeRegs_aonBeat (l : List Nat) : (d.wakeRegs l).aonBeat = d.aonBeat := by unfold Dev.wakeRegs; split <;> simp
@[simp] theorem Dev.wakeRegs_countedBeats (l : List Nat) : (d.wakeRegs l).countedBeats = d.countedBeats := by unfold Dev.wakeRegs; split <;> simp
@[simp] theorem Dev.wakeRegs_ageBeats (l : List Nat) : (d.wakeRegs l).ageBeats = d.ageBeats := by unfold Dev.wakeRegs; split <;> simp
@[simp] theorem Dev.wakeRegs_liveBeats (l : List Nat) : (d.wakeRegs l).liveBeats = d.liveBeats := by unfold Dev.wakeRegs; split <;> simp
@[simp] theorem Dev.wakeRegs_log (l : List Nat) : (d.wakeRegs l).log = d.log := by unfold Dev.wakeRegs; split <;> simp
@[simp] theorem Dev.wakeRegs_bench (l : List Nat) : (d.wakeRegs l).bench = d.bench := by unfold Dev.wakeRegs; split <;> simp
@[simp] theorem Dev.wakeRegs_outbox (l : List Nat) : (d.wakeRegs l).outbox = d.outbox := by unfold Dev.wakeRegs; split <;> simp
@[simp] theorem Dev.wakeRegs_upq (l : List Nat) : (d.wakeRegs l).upq = d.upq := by unfold Dev.wakeRegs; split <;> simp
@[simp] theorem Dev.wakeRegs_granted (l : List Nat) : (d.wakeRegs l).granted = d.granted := by unfold Dev.wakeRegs; split <;> simp
@[simp] theorem Dev.wakeRegs_maxNeed (l : List Nat) : (d.wakeRegs l).maxNeed = d.maxNeed := by unfold Dev.wakeRegs; split <;> simp
@[simp] theorem Dev.wakeRegs_chans (l : List Nat) : (d.wakeRegs l).chans = d.chans := by unfold Dev.wakeRegs; split <;> simp
@[simp] theorem Dev.wakeRegs_net (l : List Nat) : (d.wakeRegs l).net = d.net := by unfold Dev.wakeRegs; split <;> simp
@[simp] theorem Dev.wakeRegs_floors (l : List Nat) : (d.wakeRegs l).floors = d.floors := by unfold Dev.wakeRegs; split <;> simp
@[simp] theorem Dev.wakeRegs_fences (l : List Nat) : (d.wakeRegs l).fences = d.fences := by unfold Dev.wakeRegs; split <;> simp
@[simp] theorem Dev.wakeRegs_step (l : List Nat) : (d.wakeRegs l).step = d.step := by unfold Dev.wakeRegs; split <;> simp
@[simp] theorem Dev.wakeRegs_job (l : List Nat) : (d.wakeRegs l).job = d.job := by unfold Dev.wakeRegs; split <;> simp
@[simp] theorem Dev.wakeRegs_saved (l : List Nat) : (d.wakeRegs l).saved = d.saved := by unfold Dev.wakeRegs; split <;> simp
@[simp] theorem Dev.wakeRegs_lat (l : List Nat) : (d.wakeRegs l).lat = d.lat := by unfold Dev.wakeRegs; split <;> simp
@[simp] theorem Dev.wakeRegs_flash (l : List Nat) : (d.wakeRegs l).flash = d.flash := by unfold Dev.wakeRegs; split <;> simp
@[simp] theorem Dev.wakeRegs_boot (l : List Nat) : (d.wakeRegs l).boot = d.boot := by unfold Dev.wakeRegs; split <;> simp
@[simp] theorem Dev.wakeRegs_pins (l : List Nat) : (d.wakeRegs l).pins = d.pins := by unfold Dev.wakeRegs; split <;> simp
@[simp] theorem Dev.wakeRegs_time (l : List Nat) : (d.wakeRegs l).time = d.time := by unfold Dev.wakeRegs; split <;> simp
@[simp] theorem Dev.wakeRegs_slipLeft (l : List Nat) : (d.wakeRegs l).slipLeft = d.slipLeft := by unfold Dev.wakeRegs; split <;> simp
@[simp] theorem Dev.wakeRegs_smiper (l : List Nat) : (d.wakeRegs l).smiper = d.smiper := by unfold Dev.wakeRegs; split <;> simp
@[simp] theorem Dev.wakeRegs_ops (l : List Nat) : (d.wakeRegs l).ops = d.ops := by unfold Dev.wakeRegs; split <;> simp
@[simp] theorem Dev.wakeRegs_results (l : List Nat) : (d.wakeRegs l).results = d.results := by unfold Dev.wakeRegs; split <;> simp
@[simp] theorem Dev.wakeRegs_lastBist (l : List Nat) : (d.wakeRegs l).lastBist = d.lastBist := by unfold Dev.wakeRegs; split <;> simp
@[simp] theorem Dev.wakeRegs_lastBistDigest (l : List Nat) : (d.wakeRegs l).lastBistDigest = d.lastBistDigest := by unfold Dev.wakeRegs; split <;> simp
@[simp] theorem Dev.wakeRegs_resetAt (l : List Nat) : (d.wakeRegs l).resetAt = d.resetAt := by unfold Dev.wakeRegs; split <;> simp
@[simp] theorem Dev.wakeRegs_leaveQ (l : List Nat) : (d.wakeRegs l).leaveQ = d.leaveQ := by unfold Dev.wakeRegs; split <;> simp
@[simp] theorem Dev.wakeRegs_hubGrant (l : List Nat) : (d.wakeRegs l).hubGrant = d.hubGrant := by unfold Dev.wakeRegs; split <;> simp
@[simp] theorem Dev.wakeRegs_gated (l : List Nat) : (d.wakeRegs l).gated = d.gated := by unfold Dev.wakeRegs; split <;> simp
@[simp] theorem Dev.wakeRegs_hotSensors (l : List Nat) : (d.wakeRegs l).hotSensors = d.hotSensors := by unfold Dev.wakeRegs; split <;> simp
@[simp] theorem Dev.wakeRegs_railHist (l : List Nat) : (d.wakeRegs l).railHist = d.railHist := by unfold Dev.wakeRegs; split <;> simp
@[simp] theorem Dev.wakeRegs_bist (l : List Nat) : (d.wakeRegs l).bist = d.bist := by unfold Dev.wakeRegs; split <;> simp
@[simp] theorem Dev.wakeRegs_frz (l : List Nat) : (d.wakeRegs l).frz = d.frz := by unfold Dev.wakeRegs; split <;> simp
@[simp] theorem Dev.wakeRegs_faults (l : List Nat) : (d.wakeRegs l).faults = d.faults := by unfold Dev.wakeRegs; split <;> simp

/-! ### d.wakeRuns l -/

@[simp] theorem Dev.wakeRuns_mem (l : List (Nat × Nat)) : (d.wakeRuns l).mem = d.mem := by
  unfold Dev.wakeRuns; induction l generalizing d with
  | nil => rfl
  | cons r t ih => rw [List.foldl_cons, ih, Dev.wakeUnits_mem]
@[simp] theorem Dev.wakeRuns_errs (l : List (Nat × Nat)) : (d.wakeRuns l).errs = d.errs := by
  unfold Dev.wakeRuns; induction l generalizing d with
  | nil => rfl
  | cons r t ih => rw [List.foldl_cons, ih, Dev.wakeUnits_errs]
@[simp] theorem Dev.wakeRuns_tags (l : List (Nat × Nat)) : (d.wakeRuns l).tags = d.tags := by
  unfold Dev.wakeRuns; induction l generalizing d with
  | nil => rfl
  | cons r t ih => rw [List.foldl_cons, ih, Dev.wakeUnits_tags]
@[simp] theorem Dev.wakeRuns_tagErrs (l : List (Nat × Nat)) : (d.wakeRuns l).tagErrs = d.tagErrs := by
  unfold Dev.wakeRuns; induction l generalizing d with
  | nil => rfl
  | cons r t ih => rw [List.foldl_cons, ih, Dev.wakeUnits_tagErrs]
@[simp] theorem Dev.wakeRuns_staged (l : List (Nat × Nat)) : (d.wakeRuns l).staged = d.staged := by
  unfold Dev.wakeRuns; induction l generalizing d with
  | nil => rfl
  | cons r t ih => rw [List.foldl_cons, ih, Dev.wakeUnits_staged]
@[simp] theorem Dev.wakeRuns_arith (l : List (Nat × Nat)) : (d.wakeRuns l).arith = d.arith := by
  unfold Dev.wakeRuns; induction l generalizing d with
  | nil => rfl
  | cons r t ih => rw [List.foldl_cons, ih, Dev.wakeUnits_arith]
@[simp] theorem Dev.wakeRuns_aonBeat (l : List (Nat × Nat)) : (d.wakeRuns l).aonBeat = d.aonBeat := by
  unfold Dev.wakeRuns; induction l generalizing d with
  | nil => rfl
  | cons r t ih => rw [List.foldl_cons, ih, Dev.wakeUnits_aonBeat]
@[simp] theorem Dev.wakeRuns_countedBeats (l : List (Nat × Nat)) : (d.wakeRuns l).countedBeats = d.countedBeats := by
  unfold Dev.wakeRuns; induction l generalizing d with
  | nil => rfl
  | cons r t ih => rw [List.foldl_cons, ih, Dev.wakeUnits_countedBeats]
@[simp] theorem Dev.wakeRuns_ageBeats (l : List (Nat × Nat)) : (d.wakeRuns l).ageBeats = d.ageBeats := by
  unfold Dev.wakeRuns; induction l generalizing d with
  | nil => rfl
  | cons r t ih => rw [List.foldl_cons, ih, Dev.wakeUnits_ageBeats]
@[simp] theorem Dev.wakeRuns_liveBeats (l : List (Nat × Nat)) : (d.wakeRuns l).liveBeats = d.liveBeats := by
  unfold Dev.wakeRuns; induction l generalizing d with
  | nil => rfl
  | cons r t ih => rw [List.foldl_cons, ih, Dev.wakeUnits_liveBeats]
@[simp] theorem Dev.wakeRuns_log (l : List (Nat × Nat)) : (d.wakeRuns l).log = d.log := by
  unfold Dev.wakeRuns; induction l generalizing d with
  | nil => rfl
  | cons r t ih => rw [List.foldl_cons, ih, Dev.wakeUnits_log]
@[simp] theorem Dev.wakeRuns_bench (l : List (Nat × Nat)) : (d.wakeRuns l).bench = d.bench := by
  unfold Dev.wakeRuns; induction l generalizing d with
  | nil => rfl
  | cons r t ih => rw [List.foldl_cons, ih, Dev.wakeUnits_bench]
@[simp] theorem Dev.wakeRuns_outbox (l : List (Nat × Nat)) : (d.wakeRuns l).outbox = d.outbox := by
  unfold Dev.wakeRuns; induction l generalizing d with
  | nil => rfl
  | cons r t ih => rw [List.foldl_cons, ih, Dev.wakeUnits_outbox]
@[simp] theorem Dev.wakeRuns_upq (l : List (Nat × Nat)) : (d.wakeRuns l).upq = d.upq := by
  unfold Dev.wakeRuns; induction l generalizing d with
  | nil => rfl
  | cons r t ih => rw [List.foldl_cons, ih, Dev.wakeUnits_upq]
@[simp] theorem Dev.wakeRuns_granted (l : List (Nat × Nat)) : (d.wakeRuns l).granted = d.granted := by
  unfold Dev.wakeRuns; induction l generalizing d with
  | nil => rfl
  | cons r t ih => rw [List.foldl_cons, ih, Dev.wakeUnits_granted]
@[simp] theorem Dev.wakeRuns_maxNeed (l : List (Nat × Nat)) : (d.wakeRuns l).maxNeed = d.maxNeed := by
  unfold Dev.wakeRuns; induction l generalizing d with
  | nil => rfl
  | cons r t ih => rw [List.foldl_cons, ih, Dev.wakeUnits_maxNeed]
@[simp] theorem Dev.wakeRuns_chans (l : List (Nat × Nat)) : (d.wakeRuns l).chans = d.chans := by
  unfold Dev.wakeRuns; induction l generalizing d with
  | nil => rfl
  | cons r t ih => rw [List.foldl_cons, ih, Dev.wakeUnits_chans]
@[simp] theorem Dev.wakeRuns_net (l : List (Nat × Nat)) : (d.wakeRuns l).net = d.net := by
  unfold Dev.wakeRuns; induction l generalizing d with
  | nil => rfl
  | cons r t ih => rw [List.foldl_cons, ih, Dev.wakeUnits_net]
@[simp] theorem Dev.wakeRuns_floors (l : List (Nat × Nat)) : (d.wakeRuns l).floors = d.floors := by
  unfold Dev.wakeRuns; induction l generalizing d with
  | nil => rfl
  | cons r t ih => rw [List.foldl_cons, ih, Dev.wakeUnits_floors]
@[simp] theorem Dev.wakeRuns_fences (l : List (Nat × Nat)) : (d.wakeRuns l).fences = d.fences := by
  unfold Dev.wakeRuns; induction l generalizing d with
  | nil => rfl
  | cons r t ih => rw [List.foldl_cons, ih, Dev.wakeUnits_fences]
@[simp] theorem Dev.wakeRuns_step (l : List (Nat × Nat)) : (d.wakeRuns l).step = d.step := by
  unfold Dev.wakeRuns; induction l generalizing d with
  | nil => rfl
  | cons r t ih => rw [List.foldl_cons, ih, Dev.wakeUnits_step]
@[simp] theorem Dev.wakeRuns_job (l : List (Nat × Nat)) : (d.wakeRuns l).job = d.job := by
  unfold Dev.wakeRuns; induction l generalizing d with
  | nil => rfl
  | cons r t ih => rw [List.foldl_cons, ih, Dev.wakeUnits_job]
@[simp] theorem Dev.wakeRuns_saved (l : List (Nat × Nat)) : (d.wakeRuns l).saved = d.saved := by
  unfold Dev.wakeRuns; induction l generalizing d with
  | nil => rfl
  | cons r t ih => rw [List.foldl_cons, ih, Dev.wakeUnits_saved]
@[simp] theorem Dev.wakeRuns_lat (l : List (Nat × Nat)) : (d.wakeRuns l).lat = d.lat := by
  unfold Dev.wakeRuns; induction l generalizing d with
  | nil => rfl
  | cons r t ih => rw [List.foldl_cons, ih, Dev.wakeUnits_lat]
@[simp] theorem Dev.wakeRuns_flash (l : List (Nat × Nat)) : (d.wakeRuns l).flash = d.flash := by
  unfold Dev.wakeRuns; induction l generalizing d with
  | nil => rfl
  | cons r t ih => rw [List.foldl_cons, ih, Dev.wakeUnits_flash]
@[simp] theorem Dev.wakeRuns_boot (l : List (Nat × Nat)) : (d.wakeRuns l).boot = d.boot := by
  unfold Dev.wakeRuns; induction l generalizing d with
  | nil => rfl
  | cons r t ih => rw [List.foldl_cons, ih, Dev.wakeUnits_boot]
@[simp] theorem Dev.wakeRuns_pins (l : List (Nat × Nat)) : (d.wakeRuns l).pins = d.pins := by
  unfold Dev.wakeRuns; induction l generalizing d with
  | nil => rfl
  | cons r t ih => rw [List.foldl_cons, ih, Dev.wakeUnits_pins]
@[simp] theorem Dev.wakeRuns_time (l : List (Nat × Nat)) : (d.wakeRuns l).time = d.time := by
  unfold Dev.wakeRuns; induction l generalizing d with
  | nil => rfl
  | cons r t ih => rw [List.foldl_cons, ih, Dev.wakeUnits_time]
@[simp] theorem Dev.wakeRuns_slipLeft (l : List (Nat × Nat)) : (d.wakeRuns l).slipLeft = d.slipLeft := by
  unfold Dev.wakeRuns; induction l generalizing d with
  | nil => rfl
  | cons r t ih => rw [List.foldl_cons, ih, Dev.wakeUnits_slipLeft]
@[simp] theorem Dev.wakeRuns_smiper (l : List (Nat × Nat)) : (d.wakeRuns l).smiper = d.smiper := by
  unfold Dev.wakeRuns; induction l generalizing d with
  | nil => rfl
  | cons r t ih => rw [List.foldl_cons, ih, Dev.wakeUnits_smiper]
@[simp] theorem Dev.wakeRuns_ops (l : List (Nat × Nat)) : (d.wakeRuns l).ops = d.ops := by
  unfold Dev.wakeRuns; induction l generalizing d with
  | nil => rfl
  | cons r t ih => rw [List.foldl_cons, ih, Dev.wakeUnits_ops]
@[simp] theorem Dev.wakeRuns_results (l : List (Nat × Nat)) : (d.wakeRuns l).results = d.results := by
  unfold Dev.wakeRuns; induction l generalizing d with
  | nil => rfl
  | cons r t ih => rw [List.foldl_cons, ih, Dev.wakeUnits_results]
@[simp] theorem Dev.wakeRuns_lastBist (l : List (Nat × Nat)) : (d.wakeRuns l).lastBist = d.lastBist := by
  unfold Dev.wakeRuns; induction l generalizing d with
  | nil => rfl
  | cons r t ih => rw [List.foldl_cons, ih, Dev.wakeUnits_lastBist]
@[simp] theorem Dev.wakeRuns_lastBistDigest (l : List (Nat × Nat)) : (d.wakeRuns l).lastBistDigest = d.lastBistDigest := by
  unfold Dev.wakeRuns; induction l generalizing d with
  | nil => rfl
  | cons r t ih => rw [List.foldl_cons, ih, Dev.wakeUnits_lastBistDigest]
@[simp] theorem Dev.wakeRuns_resetAt (l : List (Nat × Nat)) : (d.wakeRuns l).resetAt = d.resetAt := by
  unfold Dev.wakeRuns; induction l generalizing d with
  | nil => rfl
  | cons r t ih => rw [List.foldl_cons, ih, Dev.wakeUnits_resetAt]
@[simp] theorem Dev.wakeRuns_leaveQ (l : List (Nat × Nat)) : (d.wakeRuns l).leaveQ = d.leaveQ := by
  unfold Dev.wakeRuns; induction l generalizing d with
  | nil => rfl
  | cons r t ih => rw [List.foldl_cons, ih, Dev.wakeUnits_leaveQ]
@[simp] theorem Dev.wakeRuns_hubGrant (l : List (Nat × Nat)) : (d.wakeRuns l).hubGrant = d.hubGrant := by
  unfold Dev.wakeRuns; induction l generalizing d with
  | nil => rfl
  | cons r t ih => rw [List.foldl_cons, ih, Dev.wakeUnits_hubGrant]
@[simp] theorem Dev.wakeRuns_gated (l : List (Nat × Nat)) : (d.wakeRuns l).gated = d.gated := by
  unfold Dev.wakeRuns; induction l generalizing d with
  | nil => rfl
  | cons r t ih => rw [List.foldl_cons, ih, Dev.wakeUnits_gated]
@[simp] theorem Dev.wakeRuns_hotSensors (l : List (Nat × Nat)) : (d.wakeRuns l).hotSensors = d.hotSensors := by
  unfold Dev.wakeRuns; induction l generalizing d with
  | nil => rfl
  | cons r t ih => rw [List.foldl_cons, ih, Dev.wakeUnits_hotSensors]
@[simp] theorem Dev.wakeRuns_railHist (l : List (Nat × Nat)) : (d.wakeRuns l).railHist = d.railHist := by
  unfold Dev.wakeRuns; induction l generalizing d with
  | nil => rfl
  | cons r t ih => rw [List.foldl_cons, ih, Dev.wakeUnits_railHist]
@[simp] theorem Dev.wakeRuns_bist (l : List (Nat × Nat)) : (d.wakeRuns l).bist = d.bist := by
  unfold Dev.wakeRuns; induction l generalizing d with
  | nil => rfl
  | cons r t ih => rw [List.foldl_cons, ih, Dev.wakeUnits_bist]
@[simp] theorem Dev.wakeRuns_frz (l : List (Nat × Nat)) : (d.wakeRuns l).frz = d.frz := by
  unfold Dev.wakeRuns; induction l generalizing d with
  | nil => rfl
  | cons r t ih => rw [List.foldl_cons, ih, Dev.wakeUnits_frz]
@[simp] theorem Dev.wakeRuns_faults (l : List (Nat × Nat)) : (d.wakeRuns l).faults = d.faults := by
  unfold Dev.wakeRuns; induction l generalizing d with
  | nil => rfl
  | cons r t ih => rw [List.foldl_cons, ih, Dev.wakeUnits_faults]

end Sys2Proof.Machine
end

