-- ==== Sys2Proof/Laws/Memory.lean ====
section
/-! SUPPORT. Memory: what a read after a write, a clear or a copy gives, and that each keeps the canonical form. -/

namespace Sys2Proof.Machine

/-! ### Lists of cells -/

theorem SMap.get_append {α : Type} (d : Nat → α) (m n : SMap α) (k : Nat) :
    SMap.get d (m ++ n) k = if k ∈ m.map Prod.fst then SMap.get d m k else SMap.get d n k := by
  induction m with
  | nil => simp
  | cons p t ih =>
    obtain ⟨a, v⟩ := p
    rw [List.cons_append, SMap.get, ih]
    by_cases h : k = a
    · rw [if_pos h, if_pos (by rw [h, List.map_cons]; exact List.mem_cons_self ..), SMap.get, if_pos h]
    · rw [if_neg h]
      by_cases hm : k ∈ t.map Prod.fst
      · rw [if_pos hm, if_pos (by rw [List.map_cons]; exact List.mem_cons_of_mem _ hm), SMap.get, if_neg h]
      · rw [if_neg hm, if_neg (by rw [List.map_cons, List.mem_cons]; exact fun e => e.elim h hm)]

theorem SMap.get_absent {α : Type} (d : Nat → α) (m : SMap α) {k : Nat} (h : k ∉ m.map Prod.fst) : SMap.get d m k = d k := by
  induction m with
  | nil => rfl
  | cons p t ih =>
    obtain ⟨a, v⟩ := p
    simp only [List.map_cons, List.mem_cons, not_or] at h
    rw [SMap.get, if_neg h.1, ih h.2]

theorem SMap.get_filter {α : Type} (d : Nat → α) (m : SMap α) (p : Nat → Bool) (k : Nat) :
    SMap.get d (m.filter (fun c => p c.1)) k = if p k then SMap.get d m k else d k := by
  induction m with
  | nil => simp
  | cons q t ih =>
    obtain ⟨a, v⟩ := q
    rw [List.filter_cons]
    by_cases h : k = a
    · subst h
      by_cases hp : p k = true
      · simp [SMap.get, hp]
      · simp only [hp, Bool.false_eq_true, ↓reduceIte] at ih ⊢
        exact ih
    · by_cases hp : p a = true
      · simp only [hp, ↓reduceIte, SMap.get, h, ih]
      · simp only [hp, Bool.false_eq_true, ↓reduceIte, SMap.get, h, ih]

theorem SMap.mem_filter_keys {α : Type} (m : SMap α) (p : Nat → Bool) (k : Nat) :
    k ∈ (m.filter (fun c => p c.1)).map Prod.fst ↔ p k = true ∧ k ∈ m.map Prod.fst := by
  simp only [List.mem_map, List.mem_filter]
  constructor
  · rintro ⟨c, ⟨h1, h2⟩, rfl⟩; exact ⟨h2, c, h1, rfl⟩
  · rintro ⟨h, c, h1, rfl⟩; exact ⟨c, ⟨h1, h⟩, rfl⟩

/-! ### Runs of bytes -/

theorem Memory.cells_keys (a : Nat) (l : List Byte) (k : Nat) (h : k ∈ (Memory.cells a l).map Prod.fst) :
    a ≤ k ∧ k < a + l.length := by
  induction l generalizing a with
  | nil => simp [Memory.cells] at h
  | cons b t ih =>
    simp only [Memory.cells] at h
    split at h
    · have := ih (a + 1) h; simp only [List.length_cons]; omega
    · simp only [List.map_cons, List.mem_cons] at h
      rcases h with h | h
      · simp only [List.length_cons]; omega
      · have := ih (a + 1) h; simp only [List.length_cons]; omega

theorem Memory.get_cells (a : Nat) (l : List Byte) (k : Nat) :
    SMap.get Memory.unlisted (Memory.cells a l) k = if a ≤ k then l.getD (k - a) 0 else 0 := by
  induction l generalizing a with
  | nil => simp [Memory.cells, Memory.unlisted]
  | cons b t ih =>
    have step : (if a + 1 ≤ k then t.getD (k - (a + 1)) 0 else (0 : Byte)) = if a < k then (b :: t).getD (k - a) 0 else 0 := by
      by_cases h : a < k
      · have e : k - a = (k - (a + 1)) + 1 := by omega
        have h' : a + 1 ≤ k := h
        rw [if_pos h', if_pos h, e]; simp
      · have h' : ¬ a + 1 ≤ k := h
        rw [if_neg h', if_neg h]
    simp only [Memory.cells]
    by_cases hk : k = a
    · subst hk
      split
      · subst_vars; rw [ih, step]; simp
      · simp [SMap.get]
    · have e : (a ≤ k) = (a < k) := by apply propext; omega
      simp only [e]
      split
      · rw [ih, step]
      · rw [SMap.get, if_neg hk, ih, step]

theorem Memory.wf_cells (a : Nat) (l : List Byte) : Memory.wf (Memory.cells a l) := by
  induction l generalizing a with
  | nil => rfl
  | cons b t ih =>
    simp only [Memory.cells]
    split
    · exact ih _
    · rename_i hb
      refine (SMap.wf_cons ..).2 ⟨hb, ?_, ih _⟩
      intro p hp
      have := Memory.cells_keys (a + 1) t p.1 (List.mem_map_of_mem hp)
      omega

/-- A run of bytes reads as its bytes one by one. -/
theorem Memory.readRun_eq (m : List Host.Cell) (a n : Nat) :
    Memory.readRun m a n = (List.range n).map (fun i => Memory.read m (a + i)) := by
  unfold Memory.readRun Memory.read
  apply List.map_congr_left
  intro i hi
  rw [List.mem_range] at hi
  have := SMap.get_filter Memory.unlisted m (fun k => decide (a ≤ k) && decide (k < a + n)) (a + i)
  simp only [Bool.and_eq_true, decide_eq_true_iff] at this
  rw [this, if_pos (by omega)]

/-- A byte after a run is written: the run's byte inside it, the old byte outside. -/
theorem Memory.read_writeRun (m : List Host.Cell) (a : Nat) (l : List Byte) (k : Nat) :
    Memory.read (Memory.writeRun m a l) k = if a ≤ k ∧ k < a + l.length then l.getD (k - a) 0 else Memory.read m k := by
  have hlo := SMap.get_filter Memory.unlisted m (fun x => decide (x < a)) k
  have hhi := SMap.get_filter Memory.unlisted m (fun x => decide (a + l.length ≤ x)) k
  have klo := SMap.mem_filter_keys m (fun x => decide (x < a)) k
  unfold Memory.read Memory.writeRun
  rw [List.append_assoc, SMap.get_append, SMap.get_append]
  simp only [decide_eq_true_iff] at hlo hhi klo
  have hcell (h : ¬(a ≤ k ∧ k < a + l.length)) : k ∉ (Memory.cells a l).map Prod.fst :=
    fun hm => h (Memory.cells_keys a l k hm)
  by_cases h1 : a ≤ k ∧ k < a + l.length
  · have h2 : k ∉ (m.filter (fun c => decide (c.1 < a))).map Prod.fst := fun h => by have := (klo.1 h).1; omega
    rw [if_pos h1, if_neg h2]
    by_cases hc : k ∈ (Memory.cells a l).map Prod.fst
    · rw [if_pos hc, Memory.get_cells, if_pos h1.1]
    · have := SMap.get_absent Memory.unlisted _ hc
      rw [Memory.get_cells, if_pos h1.1] at this
      rw [if_neg hc, hhi, if_neg (by omega), this]
  · rw [if_neg h1, if_neg (hcell h1), hlo, hhi]
    by_cases h2 : k < a
    · have h3 : ¬ a + l.length ≤ k := by omega
      by_cases hk : k ∈ m.map Prod.fst
      · rw [if_pos (klo.2 ⟨h2, hk⟩), if_pos h2]
      · rw [if_neg (fun h => hk (klo.1 h).2), if_neg h3, SMap.get_absent _ _ hk]
    · rw [if_neg (fun h => h2 (klo.1 h).1), if_pos (by omega)]

/-- A byte after a range is cleared. -/
theorem Memory.read_zero (m : List Host.Cell) (a n k : Nat) :
    Memory.read (Memory.zero m a n) k = if a ≤ k ∧ k < a + n then 0 else Memory.read m k := by
  have h := SMap.get_filter Memory.unlisted m (fun x => decide (x < a) || decide (a + n ≤ x)) k
  simp only [Bool.or_eq_true, decide_eq_true_iff] at h
  unfold Memory.read Memory.zero
  rw [h]
  by_cases hk : a ≤ k ∧ k < a + n
  · rw [if_neg (by omega), if_pos hk]; rfl
  · rw [if_pos (by omega), if_neg hk]

/-! ### The canonical form -/

theorem Memory.wf_zero (m : List Host.Cell) (a n : Nat) (h : Memory.wf m) : Memory.wf (Memory.zero m a n) :=
  SMap.wf_filter _ _ _ h

/-- A write keeps the canonical form. -/
theorem Memory.wf_writeRun (m : List Host.Cell) (a : Nat) (l : List Byte) (h : Memory.wf m) :
    Memory.wf (Memory.writeRun m a l) := by
  refine SMap.wf_append _ _ _ (SMap.wf_append _ _ _ (SMap.wf_filter _ _ _ h) (Memory.wf_cells a l) ?_) (SMap.wf_filter _ _ _ h) ?_
  · intro p hp q hq
    have h1 := (List.mem_filter.1 hp).2
    have h2 := Memory.cells_keys a l q.1 (List.mem_map_of_mem hq)
    simp only [decide_eq_true_iff] at h1
    omega
  · intro p hp q hq
    have h2 := (List.mem_filter.1 hq).2
    simp only [decide_eq_true_iff] at h2
    rcases List.mem_append.1 hp with hp | hp
    · have h1 := (List.mem_filter.1 hp).2
      simp only [decide_eq_true_iff] at h1
      omega
    · have h1 := Memory.cells_keys a l p.1 (List.mem_map_of_mem hp)
      omega

theorem State.reset_memory_wf : Memory.wf State.reset.dev.mem := rfl

/-! ### The device's own reads and writes -/

variable (d : Dev)

/-- A byte of physical memory after a write. -/
theorem Dev.read_wr (a : Nat) (l : List Byte) (k : Nat) :
    Memory.read (d.wr a l).mem k = if a ≤ k ∧ k < a + l.length then l.getD (k - a) 0 else Memory.read d.mem k := by
  unfold Dev.wr
  split
  · rename_i hl
    have : l = [] := by simpa using hl
    subst this
    rw [if_neg]; simp
  · exact Memory.read_writeRun ..

theorem Dev.wf_wr (a : Nat) (l : List Byte) (h : Memory.wf d.mem) : Memory.wf (d.wr a l).mem := by
  unfold Dev.wr
  split
  · exact h
  · exact Memory.wf_writeRun _ _ _ h

theorem Dev.read_zeroRange (a n k : Nat) :
    Memory.read (d.zeroRange a n).mem k = if a ≤ k ∧ k < a + n then 0 else Memory.read d.mem k := Memory.read_zero ..

/-- Bytes read back as they were written. -/
theorem Dev.bytes_wr (a : Nat) (l : List Byte) : (d.wr a l).bytes a l.length = l := by
  unfold Dev.bytes
  rw [Memory.readRun_eq]
  apply List.ext_getElem
  · simp
  · intro i h1 h2
    simp only [List.getElem_map, List.getElem_range, Dev.read_wr]
    rw [if_pos (by omega)]
    simp [h2]

/-- A write leaves the bytes of every range it does not meet. -/
theorem Dev.bytes_wr_apart (a : Nat) (l : List Byte) (b n : Nat) (h : b + n ≤ a ∨ a + l.length ≤ b) :
    (d.wr a l).bytes b n = d.bytes b n := by
  unfold Dev.bytes
  rw [Memory.readRun_eq, Memory.readRun_eq]
  apply List.map_congr_left
  intro i hi
  rw [List.mem_range] at hi
  rw [Dev.read_wr, if_neg (by omega)]

end Sys2Proof.Machine
end

