-- ==== Sys2Proof/Laws/Space.lean ====
section
/-! SUPPORT. The job address space and the checks of memory commands depend on a few registers only, and a packet's number
changes none of them; answers of the rows that a host sends. -/

namespace Sys2Proof.Machine

/-! ### Maps and filters -/

theorem SMap.filter_erase {α : Type} (m : SMap α) (k : Nat) (p : Nat × α → Bool) (h : ∀ v, p (k, v) = false) :
    (m.erase k).filter p = m.filter p := by
  induction m with
  | nil => rfl
  | cons q t ih =>
    obtain ⟨a, v⟩ := q
    simp only [SMap.erase]
    split
    · subst_vars; rw [ih, List.filter_cons, if_neg (by simp [h])]
    · rw [List.filter_cons, List.filter_cons, ih]

theorem SMap.filter_insert {α : Type} (m : SMap α) (k : Nat) (v : α) (p : Nat × α → Bool) (h : ∀ v, p (k, v) = false) :
    (m.insert k v).filter p = m.filter p := by
  induction m with
  | nil => simp [SMap.insert, h]
  | cons q t ih =>
    obtain ⟨a, w⟩ := q
    simp only [SMap.insert]
    split
    · subst_vars; rw [List.filter_cons, List.filter_cons, if_neg (by simp [h]), if_neg (by simp [h])]
    · split
      · rw [List.filter_cons, if_neg (by simp [h])]
      · rw [List.filter_cons, List.filter_cons, ih]

/-- A write of one key leaves what a filter that drops the key shows. -/
theorem SMap.filter_set {α : Type} [DecidableEq α] (d : Nat → α) (m : SMap α) (k : Nat) (v : α) (p : Nat × α → Bool)
    (h : ∀ v, p (k, v) = false) : (SMap.set d m k v).filter p = m.filter p := by
  unfold SMap.set
  split
  · exact SMap.filter_erase m k p h
  · exact SMap.filter_insert m k v p h

variable (d : Dev)

/-! ### The segment table and translation -/

/-- A register outside the segment table leaves the table. -/
theorem Dev.segTable_setReg (a : Nat) (v : W64) (h : ¬(0xFF00010000 ≤ a ∧ a < 0xFF00010000 + 8 * 576)) :
    (d.setReg a v).segTable = d.segTable := by
  unfold Dev.segTable
  have := SMap.filter_set regReset d.regs a v
    (fun e => decide (0xFF00010000 ≤ e.1) && decide (e.1 < 0xFF00010000 + 8 * 576)) (by intro v; simp; omega)
  show ((List.filter _ (SMap.set regReset d.regs a v)).map Prod.snd).filter _ = _
  rw [this]

theorem Dev.segTable_set (f : Fld) (v : Nat) (h : ¬(0xFF00010000 ≤ f.addr ∧ f.addr < 0xFF00010000 + 8 * 576)) :
    (d.set f v).segTable = d.segTable := Dev.segTable_setReg d _ _ h

theorem Dev.segTable_inc (f : Fld) (h : ¬(0xFF00010000 ≤ f.addr ∧ f.addr < 0xFF00010000 + 8 * 576)) :
    (d.inc f).segTable = d.segTable := by
  unfold Dev.inc Dev.addTo
  rw [if_neg (by decide)]
  exact Dev.segTable_set d f _ h

theorem Dev.taken_segTable (op : Nat) (h : Hdr) : (d.takeNumber op h).segTable = d.segTable := by
  show ((d.set Reg.SM_STATE_LAST_SEQ h.seq.toNat).inc Reg.SM_COUNT0_EXECUTED).segTable = d.segTable
  rw [Dev.segTable_inc _ _ (by decide), Dev.segTable_set _ _ _ (by decide)]

/-- Translation reads the table, PENDING_DELTA and COMMIT_PARITY, and nothing else. -/
theorem Dev.xlate_congr {d e : Dev} (h1 : d.segTable = e.segTable)
    (h2 : d.get Reg.COMMIT_CTRL_PENDING_DELTA = e.get Reg.COMMIT_CTRL_PENDING_DELTA)
    (h3 : d.get Reg.COMMIT_STATUS_COMMIT_PARITY = e.get Reg.COMMIT_STATUS_COMMIT_PARITY) (a : Nat) : d.xlate a = e.xlate a := by
  simp only [Dev.xlate, h1, h2, h3]

theorem Dev.xlateRange_congr {d e : Dev} (h : ∀ a, d.xlate a = e.xlate a) (f a n : Nat) :
    d.xlateRange f a n = e.xlateRange f a n := by
  induction f generalizing a n with
  | zero => rfl
  | succ f ih => simp only [Dev.xlateRange, h, ih]

theorem Dev.jobRuns_congr {d e : Dev} (h : ∀ a, d.xlate a = e.xlate a) (a n : Nat) : d.jobRuns a n = e.jobRuns a n :=
  Dev.xlateRange_congr h _ _ _

theorem Dev.taken_xlate (op : Nat) (h : Hdr) (a : Nat) : (d.takeNumber op h).xlate a = d.xlate a :=
  Dev.xlate_congr (d.taken_segTable op h) (d.taken_get op h _ (by decide) (by decide)) (d.taken_get op h _ (by decide) (by decide)) a

theorem Dev.taken_jobRuns (op : Nat) (h : Hdr) (a n : Nat) : (d.takeNumber op h).jobRuns a n = d.jobRuns a n :=
  Dev.jobRuns_congr (fun a => d.taken_xlate op h a) a n

theorem Dev.taken_js (op : Nat) (h : Hdr) : (d.takeNumber op h).js = d.js := d.taken_get op h _ (by decide) (by decide)

theorem Dev.taken_jobLoaded (op : Nat) (h : Hdr) : (d.takeNumber op h).jobLoaded = d.jobLoaded := by
  simp only [Dev.jobLoaded, Dev.taken_js]

theorem Dev.taken_frozen (op : Nat) (h : Hdr) : (d.takeNumber op h).frozen = d.frozen := by
  unfold Dev.frozen; rw [Dev.taken_get d op h _ (by decide) (by decide), Dev.taken_boot]

theorem Dev.taken_power (op : Nat) (h : Hdr) : (d.takeNumber op h).power = d.power := d.taken_get op h _ (by decide) (by decide)

theorem Dev.taken_physTo (op : Nat) (h : Hdr) (a n : Nat) (write : Bool) :
    (d.takeNumber op h).physTo a n write = d.physTo a n write := by
  have h1 : (d.takeNumber op h).segMapped = d.segMapped := by funext x; simp only [Dev.segMapped, Dev.taken_segTable]
  have h2 : (d.takeNumber op h).inTest a n = d.inTest a n := by unfold Dev.inTest; rw [Dev.taken_bist]
  have h3 : (d.takeNumber op h).clearing = d.clearing := by unfold Dev.clearing; rw [Dev.taken_ops]
  simp only [Dev.physTo, Dev.taken_jobLoaded, h1, h2, h3]

theorem Dev.taken_jobTo (op : Nat) (h : Hdr) (a n : Nat) (write : Bool) :
    (d.takeNumber op h).jobTo a n write = d.jobTo a n write := by
  simp only [Dev.jobTo, Dev.taken_jobLoaded, Dev.taken_jobRuns, Dev.taken_get d op h Reg.STEP_STATE_PHASE (by decide) (by decide)]

theorem Dev.taken_memTo (op : Nat) (h : Hdr) (w : W64) (off n : Nat) (write : Bool) :
    (d.takeNumber op h).memTo w off n write = d.memTo w off n write := by
  simp only [Dev.memTo, Dev.taken_jobLoaded, Dev.taken_jobTo, Dev.taken_physTo]

theorem Dev.taken_memLines (op : Nat) (h : Hdr) (w : W64) (line stride lines : Nat) (write : Bool) :
    (d.takeNumber op h).memLines w line stride lines write = d.memLines w line stride lines write := by
  simp only [Dev.memLines, Dev.taken_memTo]

/-! ### Waking -/

/-- Registers of the hub wake nothing. -/
theorem Dev.wakeRegs_hub (a : Nat) (h : a < 0xFF01000000) : d.wakeRegs [a] = d := by
  unfold Dev.wakeRegs
  split
  · rfl
  · rename_i hr
    have hr' : d.resting ≠ [] := by intro h; simp [h] at hr
    rw [List.filterMap_cons, if_neg (by omega), if_neg (by omega)]
    have keep : d.resting.filter (fun _ => true) = d.resting := by simp
    have drop : d.resting.filter (fun _ => false) = [] := by simp
    unfold Dev.wakeUnits
    simp only [List.filterMap_nil, List.contains_nil, List.any_eq_true, Bool.false_eq_true, and_false, exists_false,
      Bool.and_eq_true, decide_eq_true_eq, ↓reduceIte, drop, Bool.not_false, keep, List.append_nil]
    rw [if_neg]
    intro hh
    exact hr' (List.isEmpty_iff.1 hh.2)

/-- With every unit awake nothing wakes. -/
theorem Dev.wakeUnits_awake (l : List Nat) (h : d.resting = []) (hp : d.power ≠ 2) : d.wakeUnits l = d := by
  unfold Dev.wakeUnits
  simp only [h, List.any_nil, Bool.and_false, Bool.false_eq_true, ↓reduceIte, List.filter_nil, List.append_nil]
  rw [if_neg]
  · rw [← h]
  · intro hh; exact hp hh.1

theorem Dev.wakeRuns_awake (l : List (Nat × Nat)) (h : d.resting = []) (hp : d.power ≠ 2) : d.wakeRuns l = d := by
  unfold Dev.wakeRuns
  induction l with
  | nil => rfl
  | cons r t ih => rw [List.foldl_cons, Dev.wakeUnits_awake d _ h hp]; exact ih

theorem Dev.wakeAll_awake (h : d.resting = []) (hp : d.power ≠ 2) : d.wakeAll = d := Dev.wakeUnits_awake d _ h hp

/-! ### Answers of a row -/

variable {c : Cmd} {s : State} {h : Hdr} {w : List W64}

theorem State.cmd_read (a : Asked c s h w) (hf : c.free = true) (hp : c.pre s.counted = true) {d' : Dev} {b : List W64}
    (hr : c.run s.fuses s.counted h w = .ok d' b) (hb : 8 * b.length ≤ s.dev.replyMax) :
    s.cmd c h w = .next (s.withDev (d'.okRead c.op h b)) := by
  unfold State.cmd; rw [Cmd.exec_read a hf hp hr hb]

theorem State.cmd_ok (a : Sent c s h w) (ho : basicOp c.op ≠ 0x102) (hp : c.pre (s.taken c.op h) = true) {d' : Dev}
    {b : List W64} (hr : c.run s.fuses (s.taken c.op h) h w = .ok d' b) (hb : 8 * b.length ≤ s.dev.replyMax) :
    s.cmd c h w = .next (s.withDev (d'.okReply c.op h b)) := by
  unfold State.cmd; rw [Cmd.exec_ok a ho hp hr hb]

theorem State.cmd_done (a : Sent c s h w) (ho : basicOp c.op ≠ 0x102) (hp : c.pre (s.taken c.op h) = true) {d' : Dev}
    (hr : c.run s.fuses (s.taken c.op h) h w = .ok d' []) : s.cmd c h w = .next (s.withDev (d'.okReply c.op h [])) := by
  unfold State.cmd; rw [Cmd.exec_done a ho hp hr]

theorem State.cmd_okThen (a : Sent c s h w) (ho : basicOp c.op ≠ 0x102) (hp : c.pre (s.taken c.op h) = true) {d' : Dev}
    {b : List W64} {g : Fuses → Dev → Dev} (hr : c.run s.fuses (s.taken c.op h) h w = .okThen d' b g) :
    s.cmd c h w = .next (s.withDev (g s.fuses (d'.okReply c.op h b))) := by
  unfold State.cmd; rw [Cmd.exec_okThen a ho hp hr]

theorem State.cmd_okF (a : Sent c s h w) (ho : basicOp c.op ≠ 0x102) (hp : c.pre (s.taken c.op h) = true) {f' : Fuses}
    {d' : Dev} {b : List W64} (hr : c.run s.fuses (s.taken c.op h) h w = .okF f' d' b) :
    s.cmd c h w = .next { s with fuses := f', dev := d'.okReply c.op h b } := by
  unfold State.cmd; rw [Cmd.exec_okF a ho hp hr]

theorem State.cmd_accepted (a : Sent c s h w) (ho : basicOp c.op ≠ 0x102) (hp : c.pre (s.taken c.op h) = true) {d' : Dev}
    (hr : c.run s.fuses (s.taken c.op h) h w = .accepted d') : s.cmd c h w = .next (s.withDev (d'.acceptReply c.op h)) := by
  unfold State.cmd; rw [Cmd.exec_accepted a ho hp hr]

theorem State.cmd_refused (a : Sent c s h w) (ho : basicOp c.op ≠ 0x102) (hp : c.pre (s.taken c.op h) = true)
    {code detail : Nat} (hr : c.run s.fuses (s.taken c.op h) h w = .refuse code detail) :
    s.cmd c h w = .next (s.withDev ((s.taken c.op h).refusal c.op h code detail)) := by
  unfold State.cmd; rw [Cmd.exec_refused a ho hp hr]

end Sys2Proof.Machine
end

