-- ==== Sys2Proof/Certificates/Slice0/Obligations.lean ====
section
/-! DEFINITION. The statements for the provers. -/

open Sys2Proof Sys2Proof.Machine

/-- With a command at the front of the queue, a step carries it out on the state with the queue's rest (the block's own form
of "a step runs the command"). -/
def Obligations.StepTakesFront : Prop :=
  ∀ (c : Instr) (q : List Instr) (s : State), s.pending = c :: q → step s = exec c { s with pending := q }

/-- With nothing in the queue the block stands as it is (the model's choice, log entry 4). No command stops the block: each
one gives a next state, and none touches the queue. -/
def Obligations.EveryCommandAnswers : Prop :=
  (∀ s : State, s.pending = [] → step s = .next s) ∧
  (∀ (i : Instr) (s : State), ∃ t, exec i s = .next t ∧ t.pending = s.pending)

/-- Fuses only blow. In every step a state word once blown stays blown, the rollback count does not fall, a seed bank moves
only from unblown to its seed or abandoned and on to destroyed, and lane maps, serial number and MAC address stay (19 R502,
R506). -/
def Obligations.FusesOneWay : Prop :=
  ∀ s t : State, step s = .next t → Fuses.le s.fuses t.fuses

/-- The state at reset: no command waits; memory lists nothing and is well formed; no session and an empty cache; no
operation, no job, no freeze, nothing in the log (that reset is a booted device in DEPLOYED is the model's choice, log entry
3). -/
def Obligations.ResetState : Prop :=
  State.reset.pending = [] ∧ State.reset.dev.mem = [] ∧ Memory.wf State.reset.dev.mem ∧
  State.reset.dev.get Reg.SM_STATE_SESSION = 0 ∧ State.reset.dev.smiper.cache = [] ∧ State.reset.dev.ops = [] ∧
  State.reset.dev.js = jsNone ∧ State.reset.dev.frozen = false ∧ State.reset.dev.get Reg.LOG_STATUS_WRITE_SEQ = 0 ∧
  State.reset.dev.life = 3 ∧ State.reset.dev.get Reg.HP_CTRL_MAX_FRAME = 9216 ∧ State.reset.dev.replyMax = 9104

/-- A device that serves no commands (in reset, without firmware, or in VAULT) answers no packet and changes nothing (14
R397). The first checks of a packet, in their order: VERSION, LENGTH, NOSEQ of a row not marked n, and the session of a
sequenced packet that opens none. Each refusal is counted and takes no number (15 R401, R404, R405). An opcode that no table
lists is refused with UNKNOWN_OPCODE, after the check of VERSION, and takes no number (15 R401). A packet that the device
state, the life-cycle state or its row's precondition does not admit is refused with STATE; in sequence it takes its number
all the same (15 R406, R412; 19 R514). -/
def Obligations.PacketsAreRefused : Prop :=
  (∀ (c : Cmd) (s : State) (h : Hdr) (w : List W64), s.dev.serving = false → s.cmd c h w = .next s) ∧
  (∀ (c : Cmd) (s : State) (h : Hdr) (w : List W64), s.dev.serving = true →
     (h.version ≠ 1 → s.cmd c h w = .next (s.withDev (s.dev.reply c.op h rcBadVersion noDetail []))) ∧
     (h.version = 1 → c.len w = false → s.cmd c h w = .next (s.withDev (s.dev.reply c.op h rcLength noDetail []))) ∧
     (h.version = 1 → c.len w = true → w.length ≤ 1138 → h.noseq = true → c.free = false →
       s.cmd c h w = .next (s.withDev (s.dev.reply c.op h rcParameter noDetail []))) ∧
     (h.version = 1 → c.len w = true → w.length ≤ 1138 → h.noseq = false → basicOp c.op ≠ 0x102 →
       (h.session = 0 ∨ h.session.toNat ≠ s.dev.get Reg.SM_STATE_SESSION) →
       s.cmd c h w = .next (s.withDev (s.dev.reply c.op h rcSession noDetail [])))) ∧
  (∀ (s : State) (h : Hdr) (op : Nat) (w : List W64), s.dev.serving = true → cmdOf op = none →
     exec (.unknownOpcode h op w) s = .next (s.withDev (s.dev.reply op h (if h.version = 1 then rcUnknown else rcBadVersion) noDetail []))) ∧
  (∀ (c : Cmd) (s : State) (h : Hdr) (w : List W64), s.dev.serving = true → h.version = 1 → c.len w = true → w.length ≤ 1138 →
     (h.noseq = true → c.free = true → c.refused = id →
       (s.counted.admits c.op = false ∨ s.counted.life ∉ c.states ∨ c.pre s.counted = false) →
       s.cmd c h w = .next (s.withDev (s.counted.reply c.op h rcState noDetail []))) ∧
     (h.noseq = false → basicOp c.op ≠ 0x102 → h.session ≠ 0 → h.session.toNat = s.dev.get Reg.SM_STATE_SESSION →
       h.seq = s.dev.expected → s.dev.smiper.heldCmds = [] →
       ((s.taken c.op h).admits c.op = false ∨ (s.taken c.op h).life ∉ c.states ∨ c.pre (s.taken c.op h) = false) →
       s.cmd c h w = .next (s.withDev ((c.refused (s.taken c.op h)).refusal c.op h rcState noDetail))))

/-- On a device in sequence nothing but the packet's number and its answer changes when a row refuses it (15 R406, R412): a
refusal leaves every register outside the command unit, all memory, jobs, operations and channels as they were. -/
def Obligations.RefusalFrame : Prop :=
  ∀ (d : Dev) (op : Nat) (h : Hdr) (code detail a : Nat), a ≠ Reg.SM_STATE → a ≠ Reg.SM_COUNT0 → a ≠ Reg.SM_COUNT1 →
    ((d.takeNumber op h).refusal op h code detail).reg a = d.reg a ∧
    ((d.takeNumber op h).refusal op h code detail).mem = d.mem ∧
    ((d.takeNumber op h).refusal op h code detail).ops = d.ops ∧
    ((d.takeNumber op h).refusal op h code detail).job = d.job ∧
    ((d.takeNumber op h).refusal op h code detail).chans = d.chans ∧
    ((d.takeNumber op h).refusal op h code detail).flash = d.flash

/-- The class of a sequenced packet of the open session: with d = (SEQUENCE - LAST_SEQ) mod 2^32, d of 2 to 2^31 - 1 is
refused with SEQ_AHEAD; d of 0 or of 2^32 - 63 and above is answered from the cache, dropped where its reply is not yet
sent, or refused with SEQ_STALE; any other d but 1 is refused with SEQ_STALE. Nothing is executed and LAST_SEQ stays (15
R406). SESSION_OPEN makes its SESSION current unless another session executed a command in the last 10 s, and SESSION_TAKE
at once: LAST_SEQ is set to the packet's SEQUENCE, the cache keeps its own reply alone, and the reply block holds the
session replaced. A SESSION of zero is refused with PARAMETER (15 R409). -/
def Obligations.SequenceAndSessions : Prop :=
  (∀ (c : Cmd) (s : State) (h : Hdr) (w : List W64) (n : Nat), s.dev.serving = true → h.version = 1 → c.len w = true →
     w.length ≤ 1138 → h.noseq = false → basicOp c.op ≠ 0x102 → h.session ≠ 0 →
     h.session.toNat = s.dev.get Reg.SM_STATE_SESSION → n = s.dev.seqAhead h.seq →
     (2 ≤ n → n < 2 ^ 31 →
       s.cmd c h w = .next (s.withDev ((s.dev.inc Reg.SM_COUNT1_AHEAD).reply c.op h rcSeqAhead noDetail []))) ∧
     (2 ^ 31 ≤ n → n < 2 ^ 32 - 63 →
       s.cmd c h w = .next (s.withDev ((s.dev.inc Reg.SM_COUNT1_STALE).reply c.op h rcSeqStale noDetail []))) ∧
     ((n = 0 ∨ 2 ^ 32 - 63 ≤ n) →
       s.cmd c h w = .next (s.withDev (
         match s.dev.smiper.cache.find? (fun e => e.seq = h.seq && e.opcode = c.op && e.tag = h.tag && e.crc = h.crc) with
         | none => (s.dev.inc Reg.SM_COUNT1_STALE).reply c.op h rcSeqStale noDetail []
         | some e =>
           match e.reply with
           | none => s.dev.inc Reg.SM_COUNT0_DUPLICATES
           | some (code, detail, block) => (s.dev.inc Reg.SM_COUNT0_DUPLICATES).send
               (.reply h.src c.op code detail h.seq h.tag h.session (s.dev.inc Reg.SM_COUNT0_DUPLICATES).expected block))))) ∧
  ((∀ (s : State) (h : Hdr) (w : List W64) (old : Nat), Heard cmdSessionOpen s h w → h.noseq = false →
     s.dev.get Reg.SM_STATE_SESSION = old → h.session ≠ 0 → (h.session.toNat = old → s.dev.resent 0x102 h = none) →
     (old = 0 ∨ h.session.toNat = old ∨ s.dev.smiper.lastBeat + 10000000 ≤ s.dev.ageBeats) →
     exec (.sessionOpen h w) s = .next (s.withDev (
       (((s.dev.set Reg.SM_STATE_SESSION h.session.toNat).emptyCache).takeNumber 0x102 h).okReply 0x102 h [w64 old]))) ∧
   (∀ (s : State) (h : Hdr) (w : List W64) (old : Nat), Heard cmdSessionTake s h w → h.noseq = false →
     s.dev.get Reg.SM_STATE_SESSION = old → h.session ≠ 0 → (h.session.toNat = old → s.dev.resent 0x182 h = none) →
     exec (.sessionTake h w) s = .next (s.withDev (
       (((s.dev.set Reg.SM_STATE_SESSION h.session.toNat).emptyCache).takeNumber 0x182 h).okReply 0x182 h [w64 old]))) ∧
   (∀ (s : State) (h : Hdr) (w : List W64), Heard cmdSessionOpen s h w → h.noseq = false → h.session.toNat ≠ 0 →
     s.dev.get Reg.SM_STATE_SESSION ≠ 0 → h.session.toNat ≠ s.dev.get Reg.SM_STATE_SESSION →
     s.dev.ageBeats < s.dev.smiper.lastBeat + 10000000 →
     exec (.sessionOpen h w) s = .next (s.withDev (s.dev.reply 0x102 h rcSession noDetail []))) ∧
   (∀ (s : State) (h : Hdr) (w : List W64), Heard cmdSessionOpen s h w → h.noseq = false → h.session = 0 →
     exec (.sessionOpen h w) s = .next (s.withDev (s.dev.reply 0x102 h rcParameter noDetail []))))

/-- The identity reads answer OK with the identity words, the firmware digest, the widths of the 144 benches or the bypass
maps, and change only the count of unsequenced packets and the outbox (15 R424, R436). -/
def Obligations.IdentityReadsAnswer : Prop :=
  (∀ (s : State) (h : Hdr) (w : List W64), Asked cmdIdentify s h w → 32 ≤ s.dev.replyMax →
    exec (.identify h w) s = .next (s.withDev (s.counted.okRead 0x101 h
      [s.fuses.serial,
       packFlds [(63, 32, s.dev.get Reg.LC_STATUS_FW_VERSION), (31, 28, s.dev.life), (27, 24, s.dev.power), (23, 20, s.dev.mode),
         (19, 12, 0x41)],
       s.dev.censusDigest,
       packFlds [(63, 32, if s.dev.jobLoaded then s.dev.get Reg.JOB_STATE_JOB_ID else 0), (31, 22, s.dev.index),
         (21, 12, s.dev.get Reg.LAT_DOMAIN_DOMAIN_LAST)]]))) ∧
  (∀ (s : State) (h : Hdr) (w : List W64), Asked cmdIdentifyPart s h w → reserved (wd w 0) [(1, 0)] = false →
    2304 ≤ s.dev.replyMax →
    exec (.identifyPart h w) s = .next (s.withDev (s.counted.okRead 0x181 h
      (if fld (wd w 0) 1 0 = 0 then identityWords s.fuses s.dev ++ bytesWords 8 s.dev.boot.fwDigest
       else if fld (wd w 0) 1 0 = 1 then
         packWords ((List.range 144).flatMap (fun b => toLe 2 (s.dev.get (Reg.LR_WIDTH_PRESENTED_WIDTH b))))
       else (List.range 72).flatMap (fun b => (List.range 4).map (fun i =>
         s.dev.reg (Reg.LR_BYPASS (72 * (fld (wd w 0) 1 0 - 2) + b) i)))))))

/-- The register reads answer OK with the words of the registers named, whatever the registers, and wake the units that hold
them (15 R424, R425, 18 R497). The reads of the status page and of result areas answer OK with what the slots hold: status
words wrap after slot 255, and records at or above PARTIAL read as zeros (15 R416, R418, R419). -/
def Obligations.RegisterReadsAnswer : Prop :=
  ((∀ (s : State) (h : Hdr) (w : List W64), Asked cmdRegRead s h w → reserved (wd w 0) [(39, 0)] = false →
     regAddrOk (fld (wd w 0) 39 0) = true → 8 ≤ s.dev.replyMax →
     exec (.regRead h w) s = .next (s.withDev ((s.counted.wakeRegs [fld (wd w 0) 39 0]).okRead 0x104 h [s.counted.reg (fld (wd w 0) 39 0)]))) ∧
   (∀ (s : State) (h : Hdr) (w : List W64) (a n : Nat), Asked cmdRegReadBlock s h w →
     reserved (wd w 0) [(63, 53), (39, 0)] = false → fld (wd w 0) 39 0 = a → fld (wd w 0) 63 53 = n → 1 ≤ n → n ≤ 1138 →
     (∀ i, i < n → regAddrOk (a + 8 * i) = true) → 8 * n ≤ s.dev.replyMax →
     exec (.regReadBlock h w) s = .next (s.withDev ((s.counted.wakeRegs ((List.range n).map (fun i => a + 8 * i))).okRead 0x184 h
         ((List.range n).map (fun i => s.counted.reg (a + 8 * i)))))) ∧
   (∀ (s : State) (a : Nat), a ≠ Reg.SM_COUNT1 → s.counted.reg a = s.dev.reg a)) ∧
  ((∀ (s : State) (h : Hdr) (w : List W64), Asked cmdStatusRead s h w → reserved (wd w 0) [(7, 0)] = false →
     8 ≤ s.dev.replyMax →
     exec (.statusRead h w) s = .next (s.withDev (s.counted.okRead 0x106 h [s.dev.status (fld (wd w 0) 7 0)]))) ∧
   (∀ (s : State) (h : Hdr) (w : List W64) (i n : Nat), Asked cmdStatusPageRead s h w →
     reserved (wd w 0) [(15, 0)] = false → fld (wd w 0) 7 0 = i → fld (wd w 0) 15 8 = n → 8 * (n + 1) ≤ s.dev.replyMax →
     exec (.statusPageRead h w) s = .next (s.withDev (s.counted.okRead 0x186 h
       ((List.range (n + 1)).map (fun j => s.dev.status ((i + j) % 256)))))) ∧
   (∀ (s : State) (h : Hdr) (w : List W64) (slot first n : Nat), Asked cmdResultRead s h w →
     reserved (wd w 0) [(7, 0), (25, 16), (41, 32)] = false → fld (wd w 0) 7 0 = slot → fld (wd w 0) 25 16 = first →
     fld (wd w 0) 41 32 = n → 1 ≤ n → n ≤ 142 →
     (∀ i, (s.dev.resultRecord slot i).length = 8) → 64 * n ≤ s.dev.replyMax →
     exec (.resultRead h w) s = .next (s.withDev (s.counted.okRead 0x107 h
       ((List.range n).flatMap (fun i => s.dev.resultRecord slot (first + i)))))) ∧
   (∀ (s : State) (h : Hdr) (w : List W64) (slot first n : Nat), Asked cmdResultReadRaw s h w →
     reserved (wd w 0) [(7, 0), (28, 16), (44, 32)] = false → fld (wd w 0) 7 0 = slot → fld (wd w 0) 28 16 = first →
     fld (wd w 0) 44 32 = n → 8 * n ≤ s.dev.replyMax →
     exec (.resultReadRaw h w) s = .next (s.withDev (s.counted.okRead 0x187 h
       ((List.range n).map (fun i => (s.dev.resultRecord slot ((first + i) / 8)).getD ((first + i) % 8) 0))))) ∧
   (∀ (s : State) (slot i : Nat), fld (s.dev.status slot) 49 34 ≤ i → s.dev.resultRecord slot i = List.replicate 8 0))

/-- COMMIT_READ answers OK with STEP_STATE, COMMIT_STATUS, FINGERPRINT and NORM, and COMMIT_READ_EX with the update counters
of the eight floors as well (15 R431). COUNTERS_READ answers OK with the sums of the arithmetic and ECC counters over all
units and with the sync and lattice counters (each sum of arithmetic counters stops at 32 bits, which is the model's choice,
log entry 45); COUNTERS_READ_EX answers with the four arithmetic counters of one unit and its counter registers (15 R435).
POWER_READ answers OK with the hottest die and the package power, and POWER_READ_EX with the sixteen power words from
PWR_STATUS to LEAVE_COUNT (15 R435, 18 R500). LOG_READ answers OK with the newest COUNT entries of the ring, oldest first,
or all of them where fewer have been written; LOG_READ_EX with COUNT entries in ring order from FIRST (21 R542). -/
def Obligations.StateReadsAnswer : Prop :=
  ((∀ (s : State) (h : Hdr) (w : List W64), Asked cmdCommitRead s h w → 32 ≤ s.dev.replyMax →
     exec (.commitRead h w) s = .next (s.withDev (s.counted.okRead 0x403 h
       [s.dev.reg Reg.STEP_STATE, s.dev.reg Reg.COMMIT_STATUS, s.dev.reg Reg.FINGERPRINT, s.dev.reg Reg.NORM]))) ∧
   (∀ (s : State) (h : Hdr) (w : List W64), Asked cmdCommitReadEx s h w → 224 ≤ s.dev.replyMax →
     exec (.commitReadEx h w) s = .next (s.withDev ((s.counted.wakeRegs ((List.range 8).map Reg.UPD_COUNT0)).okRead 0x483 h
       ([s.dev.reg Reg.STEP_STATE, s.dev.reg Reg.COMMIT_STATUS, s.dev.reg Reg.FINGERPRINT, s.dev.reg Reg.NORM] ++
         (List.range 8).flatMap (fun k =>
           [s.dev.reg (Reg.UPD_COUNT0 k), s.dev.reg (Reg.UPD_COUNT1 k), s.dev.reg (Reg.UPD_COUNTER k)])))))) ∧
  ((∀ (s : State) (h : Hdr) (w : List W64), Asked cmdCountersRead s h w → 64 ≤ s.dev.replyMax →
     exec (.countersRead h w) s = .next (s.withDev ((if s.dev.frozen then s.counted else s.counted.wakeAll).okRead 0x501 h
       ((List.range 4).map (fun i => w64 (min 0xFFFFFFFF ((List.range 152).foldl (fun n u => n + s.dev.arithOf u i) 0))) ++
        [s.dev.sumFields 144 [Reg.SP_ECC_CORRECTED, Reg.SP_ECC_UNCORRECTABLE],
         s.dev.sumFields 8 [Reg.CELLAR_ECC_CORRECTED, Reg.CELLAR_ECC_DIE_CORRECTIONS, Reg.CELLAR_ECC_UNCORRECTABLE],
         s.dev.reg Reg.SYNC_COUNT, s.dev.reg Reg.LAT_COUNT])))) ∧
   (∀ (s : State) (h : Hdr) (w : List W64) (u : Nat) (ar : Area), Asked cmdCountersReadEx s h w →
     reserved (wd w 0) [(7, 0)] = false → fld (wd w 0) 7 0 = u → u ≤ 152 →
     ar = (if u < 144 then .bench else if u < 152 then .floor else .hub) →
     8 * (4 + (counterOffsets ar).length) ≤ s.dev.replyMax →
     exec (.countersReadEx h w) s = .next (s.withDev ((s.counted.wakeRegs [locBase u]).okRead 0x581 h
       ((List.range 4).map (fun i => w64 (s.dev.arithOf u i)) ++
         (counterOffsets ar).map (fun o => s.counted.reg (locBase u + o))))))) ∧
  ((∀ (s : State) (h : Hdr) (w : List W64), Asked cmdPowerRead s h w → 8 ≤ s.dev.replyMax →
     exec (.powerRead h w) s = .next (s.withDev (s.counted.okRead 0x602 h
       [packFlds [(63, 32, unsigned 32 s.dev.hottestDie), (31, 0, s.dev.get Reg.PWR_STATUS_PACKAGE_MW)]]))) ∧
   (∀ (s : State) (h : Hdr) (w : List W64), Asked cmdPowerReadEx s h w → 128 ≤ s.dev.replyMax →
     exec (.powerReadEx h w) s = .next (s.withDev (s.counted.okRead 0x682 h
       ((List.range 16).map (fun i => s.dev.reg (Reg.PWR_STATUS + 8 * i))))))) ∧
  ((∀ (s : State) (h : Hdr) (w : List W64) (count n m : Nat), Asked cmdLogRead s h w → reserved (wd w 0) [(13, 0)] = false →
     fld (wd w 0) 13 0 = count → s.dev.get Reg.LOG_STATUS_WRITE_SEQ = n → m = min count (min n 16384) →
     64 * count ≤ s.dev.replyMax → (∀ i, (s.dev.ringWords i).length = 8) →
     exec (.logRead h w) s = .next (s.withDev (s.counted.okRead 0x803 h
       ((List.range m).flatMap (fun i => s.dev.ringWords ((n - m + i) % 16384)))))) ∧
   (∀ (s : State) (h : Hdr) (w : List W64) (first count : Nat), Asked cmdLogReadEx s h w →
     reserved (wd w 0) [(13, 0), (29, 16)] = false → fld (wd w 0) 13 0 = first → fld (wd w 0) 29 16 = count →
     64 * count ≤ s.dev.replyMax → (∀ i, (s.dev.ringWords i).length = 8) →
     exec (.logReadEx h w) s = .next (s.withDev (s.counted.okRead 0x883 h
       ((List.range count).flatMap (fun i => s.dev.ringWords ((first + i) % 16384)))))))

/-- A register command whose writes no check refuses carries them all out, answers OK, and then lets the host port's staged
fields take effect: REG_WRITE with one register and REG_WRITE_MULTI with up to 64, in their listed order, each checked after
those before it; and the rows that name one register's own write are REG_WRITE (00 R20, 14 R398, 15 R424, R425). -/
def Obligations.RegisterWritesTakeEffect : Prop :=
  (∀ (s : State) (h : Hdr) (w : List W64), Sent cmdRegWrite s h w → reserved (wd w 0) [(39, 0)] = false →
    (s.taken 0x105 h).writeBad (fld (wd w 0) 39 0) (wd w 1) (wd w 2) false = none →
    (∀ i : Instr, i = .regWrite h w ∨ i = .jobXlateClear h w ∨ i = .faultStatusClear h w ∨ i = .frzMatchWrite h w ∨
        i = .hpCtrlLinkWrite h w ∨ i = .hostAddressWrite h w →
      exec i s = .next (s.withDev (((((s.taken 0x105 h).writeReg (fld (wd w 0) 39 0) (wd w 1) (wd w 2)).wakeRegs
        [fld (wd w 0) 39 0]).okReply 0x105 h []).hostFields)))) ∧
  (∀ (s : State) (h : Hdr) (w : List W64) (n : Nat) (l : List (Nat × W64 × W64)), Sent cmdRegWriteMulti s h w →
    reserved (wd w 0) [(6, 0)] = false → fld (wd w 0) 6 0 = n → 1 ≤ n → n ≤ 64 →
    (∀ i, i < n → reserved (wd w (1 + 3 * i)) [(39, 0)] = false) →
    l = (List.range n).map (fun i => (fld (wd w (1 + 3 * i)) 39 0, wd w (2 + 3 * i), wd w (3 + 3 * i))) →
    (s.taken 0x185 h).WritesPass l →
    exec (.regWriteMulti h w) s =
      .next (s.withDev (((((s.taken 0x185 h).writesDone l).wakeRegs (l.map Prod.fst)).okReply 0x185 h []).hostFields)))

/-- What single register writes leave: a write of 1 to PENDING of JOB_XLATE clears it and nothing else; writes of 1 to the
three W1C bits of FAULT_STATUS clear those bits; a write of match fields of FRZ_CTRL sets them and sets MATCHES to 0; a
write of MODE and MAX_FRAME leaves HP_CTRL as it is until the new bring-up that it starts on both ports; a write of
IPV4_ADDR takes effect after its reply and leaves the links as they are (00 R13, 14 R398, 16 R459, 17 R484, 21 R543). -/
def Obligations.SpecialRegisterWrites : Prop :=
  (∀ (s : State) (h : Hdr) (w : List W64), Sent cmdRegWrite s h w →
    w = [w64 Reg.JOB_XLATE, w64 (2 ^ 63), w64 (2 ^ 63)] →
    exec (.jobXlateClear h w) s = .next (s.withDev ((((s.taken 0x105 h).setReg Reg.JOB_XLATE
      (s.dev.reg Reg.JOB_XLATE &&& ~~~(w64 (2 ^ 63)))).okReply 0x105 h []).hostFields))) ∧
  (∀ (s : State) (h : Hdr) (w : List W64) (b : Nat), Sent cmdRegWrite s h w → b ≤ 2 →
    w = [w64 Reg.FAULT_STATUS, w64 (2 ^ b), w64 (2 ^ b)] →
    exec (.faultStatusClear h w) s = .next (s.withDev ((((s.taken 0x105 h).setReg Reg.FAULT_STATUS
      (s.dev.reg Reg.FAULT_STATUS &&& ~~~(w64 (2 ^ b)))).okReply 0x105 h []).hostFields))) ∧
  (∀ (s : State) (h : Hdr) (w : List W64) (v : W64), Sent cmdRegWrite s h w → fld v 61 60 < 3 → fld v 26 11 ≠ 0 →
    w = [w64 Reg.FRZ_CTRL, v, fldMask 61 11] →
    exec (.frzMatchWrite h w) s = .next (s.withDev (((((s.taken 0x105 h).setReg Reg.FRZ_CTRL
      (overlay (s.dev.reg Reg.FRZ_CTRL) v (fldMask 61 11))).set Reg.FRZ_STATUS_MATCHES 0).okReply 0x105 h []).hostFields))) ∧
  (∀ (s : State) (h : Hdr) (w : List W64) (v : W64), Sent cmdRegWrite s h w → fld v 63 62 ≤ 1 → 1518 ≤ fld v 48 35 →
    fld v 48 35 ≤ 9216 → (∀ x ∈ s.dev.staged, x.1 < hpLo ∨ hpHi ≤ x.1) → w = [w64 Reg.HP_CTRL, v, hpLater Reg.HP_CTRL] →
    ∃ t, exec (.hpCtrlLinkWrite h w) s = .next t ∧ t.dev.reg Reg.HP_CTRL = s.dev.reg Reg.HP_CTRL ∧
      (t.dev.get Reg.HP_STATUS_LINK).testBit 0 = false ∧ (t.dev.get Reg.HP_STATUS_LINK).testBit 1 = false ∧
      (Reg.HP_CTRL, v &&& hpLater Reg.HP_CTRL, hpLater Reg.HP_CTRL) ∈ t.dev.staged ∧ t.dev.mem = s.dev.mem) ∧
  (∀ (s : State) (h : Hdr) (w : List W64) (v : W64), Sent cmdRegWrite s h w →
    (∀ x ∈ s.dev.staged, x.1 < hpLo ∨ hpHi ≤ x.1) → w = [w64 Reg.HP_IPV4, v, fldMask 31 0] →
    ∃ t, exec (.hostAddressWrite h w) s = .next t ∧ t.dev.get Reg.HP_IPV4_IPV4_ADDR = fld v 31 0 ∧
      t.dev.get Reg.HP_STATUS_LINK = s.dev.get Reg.HP_STATUS_LINK ∧ t.dev.staged = s.dev.staged ∧ t.dev.mem = s.dev.mem)

/-- A memory read whose range passes the checks and holds no stored error answers OK with the bytes of the range, line by
line for MEM_READ_EX, wakes the units that hold them, and changes no memory (15 R427, 18 R497); it passes the DMA ports of the
scratchpads in its range (07 R234), and is answered FAULT where a meeting under STRICT refuses it (log entry 51), which none
does at a port that is not STRICT. On a frozen device
STATE_READ answers OK with consecutive words of the element space; memory rows show memory and register rows registers, and
the words of contexts and of stored errors are free values (21 R536, R537; log entry 9). IJTAG_ACCESS answers OK with as
many words as it shifts in, which are free values (21 R536; log entry 9). -/
def Obligations.MemoryReadsAnswer : Prop :=
  ((∀ (s : State) (h : Hdr) (w : List W64) (n : Nat) (l : List (Nat × Nat)), Sent cmdMemRead s h w →
     reserved (wd w 0) [(63, 63), (47, 0)] = false → reserved (wd w 1) [(31, 0)] = false → fld (wd w 0) 47 0 % 8 = 0 →
     fld (wd w 1) 31 0 = n → n % 8 = 0 → n ≤ s.dev.replyMax →
     s.dev.memTo (wd w 0) 0 n false = .runs l →
     let m := ((s.taken 0x201 h).wakeRuns l).hostMeet l false
     (m.2 = false → m.1.CleanRuns l) → exec (.memRead h w) s = .next (s.withDev (if m.2 then m.1.refusal 0x201 h rcFault noDetail
       else m.1.okReply 0x201 h (packWords (l.flatMap (fun r => m.1.bytes r.1 r.2)))))) ∧
   (∀ (s : State) (h : Hdr) (w : List W64) (line stride lines : Nat) (l : List (Nat × Nat)), Sent cmdMemReadEx s h w →
     reserved (wd w 0) [(63, 63), (47, 0)] = false → reserved (wd w 2) [(63, 40)] = false → fld (wd w 0) 47 0 % 8 = 0 →
     fld (wd w 1) 63 40 = line → line % 8 = 0 → fld (wd w 1) 39 0 = stride → stride % 8 = 0 → fld (wd w 2) 63 40 = lines →
     line * lines ≤ s.dev.replyMax →
     s.dev.memLines (wd w 0) line stride lines false = .runs l →
     let m := ((s.taken 0x281 h).wakeRuns l).hostMeet l false
     (m.2 = false → m.1.CleanRuns l) → exec (.memReadEx h w) s = .next (s.withDev (if m.2 then m.1.refusal 0x281 h rcFault noDetail
       else m.1.okReply 0x281 h (packWords (l.flatMap (fun r => m.1.bytes r.1 r.2)))))) ∧
   (∀ (d : Dev) (l : List (Nat × Nat)) (write : Bool), d.Relaxed l → (d.hostMeet l write).2 = false ∧
     (d.hostMeet l write).1.mem = d.mem ∧ (d.hostMeet l write).1.errs = d.errs)) ∧
  ((∀ (s : State) (h : Hdr) (w : List W64) (a n : Nat), Sent cmdStateRead s h w → reserved (wd w 0) [(31, 0)] = false →
     reserved (wd w 1) [(15, 0)] = false → 256 * fld (wd w 0) 31 0 = a → fld (wd w 1) 15 0 = n → 1 ≤ n →
     8 * n ≤ s.dev.replyMax → touchesElement a n = true →
     exec (.stateRead h w) s = .next (s.withDev ((Dev.elementWords n a (s.taken 0x802 h)).2.okReply 0x802 h
       (Dev.elementWords n a (s.taken 0x802 h)).1))) ∧
   (∀ (d : Dev) (a : Nat), elementKind a = some 0 → d.errIn a 8 = [] → d.elementWord a = (d.word a, d)) ∧
   (∀ (d : Dev) (a : Nat), elementKind a = some 2 → d.elementWord a = (d.reg a, d)) ∧
   (∀ (s : State) (h : Hdr) (w : List W64), Sent cmdIjtagAccess s h w → 8 * w.length ≤ s.dev.replyMax →
     exec (.ijtagAccess h w) s = .next (s.withDev ((Dev.freeWords w.length (s.taken 0x882 h)).2.okReply 0x882 h
       (Dev.freeWords w.length (s.taken 0x882 h)).1))))

/-- A memory write whose range passes the checks, meets no stored error and is not refused at a DMA port under STRICT (07
R234; that it then answers FAULT is log entry 51's) writes its bytes over the range and answers OK;
MEM_WRITE_EX writes line by line and adds the bytes to the producer position at POS_ADDR, where POS_ADDR is not zero (15
R427; that POS_ADDR is a job address is the model's choice, log entry 43). A memory write of one run of bytes of a
cellar, or of a scratchpad that is not under STRICT: every byte of the run reads as the command's byte, and every other byte of physical memory reads as before (15 R427,
R418). -/
def Obligations.MemoryWritesStore : Prop :=
  ((∀ (s : State) (h : Hdr) (w : List W64) (n : Nat) (l : List (Nat × Nat)), Sent cmdMemWrite s h w →
     reserved (wd w 0) [(63, 63), (47, 0)] = false → reserved (wd w 1) [(31, 0)] = false → fld (wd w 0) 47 0 % 8 = 0 →
     fld (wd w 1) 31 0 = n → n % 8 = 0 →
     s.dev.memTo (wd w 0) 0 n true = .runs l →
     let m := ((s.taken 0x202 h).wakeRuns l).hostMeet l true
     (m.2 = false → m.1.CleanRuns l) → exec (.memWrite h w) s = .next (s.withDev (if m.2 then m.1.refusal 0x202 h rcFault noDetail
       else (m.1.writeRuns l (wordsBytes (w.drop 2))).okReply 0x202 h []))) ∧
   (∀ (s : State) (h : Hdr) (w : List W64) (line stride lines pos : Nat) (l p : List (Nat × Nat)), Sent cmdMemWriteEx s h w →
     reserved (wd w 0) [(63, 63), (47, 0)] = false → reserved (wd w 2) [(63, 40), (0, 0)] = false →
     reserved (wd w 3) [(47, 0)] = false → reserved (wd w 4) [(31, 0)] = false → fld (wd w 0) 47 0 % 8 = 0 →
     fld (wd w 1) 63 40 = line → line % 8 = 0 → fld (wd w 1) 39 0 = stride → stride % 8 = 0 → fld (wd w 2) 63 40 = lines →
     fld (wd w 3) 47 0 = pos → pos % 8 = 0 →
     (bit (wd w 2) 0 = true → line * lines % 4096 = 0 ∧
       talliesOk (fld (wd w 4) 31 0) (wordsBytes ((w.drop 5).take (line * lines / 8))) (wordsBytes (w.drop (5 + line * lines / 8))) =
         true) →
     s.dev.memLines (wd w 0) line stride lines true = .runs l →
     (if pos = 0 then p = [] else s.dev.jobTo pos 8 true = .runs p ∧ p ≠ []) → (∀ r ∈ p, s.dev.errIn r.1 r.2 = []) →
     let m := ((s.taken 0x282 h).wakeRuns l).hostMeet l true
     (m.2 = false → m.1.CleanRuns l) →
     exec (.memWriteEx h w) s = .next (s.withDev (if m.2 then m.1.refusal 0x282 h rcFault noDetail else
       (let d := m.1.writeRuns l (wordsBytes ((w.drop 5).take (line * lines / 8)))
        match p with
        | [] => d
        | r :: _ =>
          let d := ((d.wakeRuns p).rdPhys r.1 8).1
          d.wr r.1 (toLe 8 (ofLe (d.bytes r.1 8) + line * lines))).okReply 0x282 h [])))) ∧
  (∀ (s : State) (h : Hdr) (w : List W64) (a n : Nat), Sent cmdMemWrite s h w →
     reserved (wd w 0) [(63, 63), (47, 0)] = false → reserved (wd w 1) [(31, 0)] = false → fld (wd w 0) 47 0 % 8 = 0 →
     fld (wd w 1) 31 0 = n → n % 8 = 0 → s.dev.memTo (wd w 0) 0 n true = .runs [(a, n)] → s.dev.errIn a n = [] →
     s.dev.Relaxed [(a, n)] →
     ∃ t, exec (.memWrite h w) s = .next t ∧ t.dev.bytes a n = wordsBytes (w.drop 2) ∧
       (∀ k, ¬(a ≤ k ∧ k < a + n) → Memory.read t.dev.mem k = Memory.read s.dev.mem k) ∧
       (Memory.wf s.dev.mem → Memory.wf t.dev.mem) ∧ t.fuses = s.fuses ∧ t.pending = s.pending ∧ t.dev.flash = s.dev.flash)

/-- Long operations on the domain and on jobs whose parameters pass are ACCEPTED where their slot is free and fewer than 32
operations live; a load enters LOADING, a resume RESUMING, an unload UNLOADING with the job's JOB_RUN and STEP operations
ended ABORTED (15 R415, R420, R429, R434, 16 R442). STEP and STEP_EX are ACCEPTED for a step number other than 0 whose slot
is not busy, and write the slot's descriptor with VALID = 1: STEP with one step size for every group, STEP_EX with the words
of its block (15 R431, R432, 12 R333). Copies, scrubs, self-tests, attestations, firmware updates and flash writes whose
parameters pass are ACCEPTED where their slot is free and fewer than 32 operations live (15 R415, R420, R426, R435, 19 R511,
R515, 20 R519). -/
def Obligations.OperationsAreAccepted : Prop :=
  ((∀ (s : State) (h : Hdr) (w : List W64), Sent cmdDomainForm s h w → formBad w = none → s.dev.roomFor h →
     exec (.domainForm h w) s = .next (s.accepted 0x103 h w (Dev.noteForm h))) ∧
   (∀ (s : State) (h : Hdr) (w : List W64), Sent cmdDomainFormEx s h w → formBad w = none → formExBad w = none →
     s.dev.roomFor h → exec (.domainFormEx h w) s = .next (s.accepted 0x183 h w (Dev.noteForm h))) ∧
   (∀ (s : State) (h : Hdr) (w : List W64), Sent (cmdLoad 0x301 4) s h w → loadBad w = none → s.dev.roomFor h →
     exec (.jobLoad h w) s = .next (s.accepted 0x301 h w (fun d => d.setJs jsLoading))) ∧
   (∀ (s : State) (h : Hdr) (w : List W64), Sent (cmdLoad 0x381 5) s h w → loadBad w = none → s.dev.roomFor h →
     exec (.jobLoadEx h w) s = .next (s.accepted 0x381 h w (fun d => d.setJs jsLoading))) ∧
   (∀ (s : State) (h : Hdr) (w : List W64), Sent (cmdRun 0x302 0) s h w → s.dev.roomFor h →
     exec (.jobRun h w) s = .next (s.accepted 0x302 h w id)) ∧
   (∀ (s : State) (h : Hdr) (w : List W64), Sent (cmdRun 0x382 1) s h w → s.dev.roomFor h →
     exec (.jobRunEx h w) s = .next (s.accepted 0x382 h w id)) ∧
   (∀ (s : State) (h : Hdr) (w : List W64), Sent (cmdPreempting 0x303 0) s h w → s.dev.roomFor h →
     exec (.preempt h w) s = .next (s.accepted 0x303 h w id)) ∧
   (∀ (s : State) (h : Hdr) (w : List W64), Sent (cmdPreempting 0x383 1) s h w → reserved (wd w 0) [(15, 0)] = false →
     feQuiesce ((s.taken 0x383 h).fenceEntry (fld (wd w 0) 15 0)) = true → s.dev.roomFor h →
     exec (.preemptAt h w) s = .next (s.accepted 0x383 h w id)) ∧
   (∀ (s : State) (h : Hdr) (w : List W64), Sent (cmdResuming 0x304 0) s h w → (s.taken 0x304 h).resumeBad = none →
     s.dev.roomFor h → exec (.resume h w) s = .next (s.accepted 0x304 h w (fun d => d.setJs jsResuming))) ∧
   (∀ (s : State) (h : Hdr) (w : List W64), Sent (cmdResuming 0x384 1) s h w → (s.taken 0x384 h).resumeBad = none →
     s.dev.roomFor h → exec (.resumeAt h w) s = .next (s.accepted 0x384 h w (fun d => d.setJs jsResuming))) ∧
   (∀ (s : State) (h : Hdr) (w : List W64) (f : Dev → Dev), s.dev.roomFor h →
     f = (fun d => ((d.onOp (h.tag.toNat % 256) (fun o => { o with note := [d.js] })).endOps
       (fun o => basicOp o.opcode = 0x302 || basicOp o.opcode = 0x401) stAborted 0).setJs jsUnloading) →
     (Sent (cmdUnload 0x305 0) s h w → exec (.jobUnload h w) s = .next (s.accepted 0x305 h w f)) ∧
     (Sent (cmdUnload 0x385 9) s h w → exec (.jobUnloadEx h w) s = .next (s.accepted 0x385 h w f))) ∧
   (∀ (s : State) (h : Hdr) (w : List W64), Sent cmdHalt s h w → s.dev.roomFor h →
     exec (.halt h w) s = .next (s.accepted 0x307 h w id))) ∧
  ((∀ (s : State) (h : Hdr) (w : List W64) (t eta : Nat), Sent cmdStep s h w → reserved (wd w 1) [(63, 23)] = false →
     fld (wd w 0) 63 32 = t → t ≠ 0 → fld (wd w 1) 63 32 = eta → (s.taken 0x401 h).slotBusy t = false → s.dev.roomFor h →
     exec (.step h w) s = .next (s.accepted 0x401 h w (fun d => d.writeStep t
       (packFlds [(63, 32, t), (31, 31, 1), (30, 30, fld (wd w 1) 31 31), (29, 26, fld (wd w 1) 30 27), (25, 22, fld (wd w 1) 26 23)])
       (packFlds [(63, 32, fld (wd w 0) 31 0)]) (List.replicate 128 (packFlds [(63, 32, eta), (31, 0, eta)]))))) ∧
   (∀ (s : State) (h : Hdr) (w : List W64) (t : Nat), Sent cmdStepEx s h w → fld (wd w 0) 63 32 = t → t ≠ 0 →
     (s.taken 0x481 h).slotBusy t = false → s.dev.roomFor h →
     exec (.stepEx h w) s = .next (s.accepted 0x481 h w (fun d => d.writeStep t
       (packFlds [(63, 32, t), (31, 31, 1), (30, 22, fld (wd w 0) 30 22)]) (packFlds [(63, 32, fld (wd w 1) 63 32)]) (w.drop 8)))) ∧
   (∀ (s : State) (h : Hdr) (w : List W64), Sent cmdStep s h w → reserved (wd w 1) [(63, 23)] = false →
     fld (wd w 0) 63 32 ≠ 0 → (s.taken 0x401 h).slotBusy (fld (wd w 0) 63 32) = true → s.dev.roomFor h →
     exec (.step h w) s = .next (s.withDev ((s.taken 0x401 h).refusal 0x401 h rcBusy noDetail)))) ∧
  ((∀ (s : State) (h : Hdr) (w : List W64), Sent cmdCopy s h w → ((bit (wd w 0) 63 || bit (wd w 1) 63) = true → s.dev.jobLoaded = true) →
     reserved (wd w 0) [(63, 63), (47, 0)] = false → reserved (wd w 1) [(63, 63), (47, 0)] = false →
     reserved (wd w 2) [(39, 0)] = false → fld (wd w 2) 39 0 ≠ 0 → fld (wd w 2) 39 0 < 2 ^ 24 → fld (wd w 0) 47 0 % 32 = 0 →
     fld (wd w 1) 47 0 % 32 = 0 → (s.taken 0x203 h).endRefused (copyDesc w 28) false (Shape.ofWords []) = none →
     (s.taken 0x203 h).endRefused (copyDesc w 28) true (Shape.ofWords []) = none →
     dmFault 152 28 (copyDesc w 28) (Shape.ofWords []) (Shape.ofWords []) = none →
     (s.taken 0x203 h).endViews (copyDesc w 28) false (Shape.ofWords []) = .runs [] →
     (s.taken 0x203 h).endViews (copyDesc w 28) true (Shape.ofWords []) = .runs [] → s.dev.roomFor h →
     exec (.copy h w) s = .next (s.accepted 0x203 h w id)) ∧
   (∀ (s : State) (h : Hdr) (w desc x y : List W64) (ch : Nat), Sent cmdDescSubmit s h w → reserved (wd w 0) [(1, 0)] = false →
     desc = w.drop 1 → ch = 28 + fld (wd w 0) 1 0 → ch ≠ 31 → (descJob desc = true → s.dev.jobLoaded = true) →
     (dmForm desc = 2 → (s.taken 0x283 h).shapeWords 152 (dmSrc desc) = .words x ∧
       (s.taken 0x283 h).shapeWords 152 (dmDst desc) = .words y) → (dmForm desc ≠ 2 → x = [] ∧ y = []) →
     dmFault 152 ch desc (Shape.ofWords x) (Shape.ofWords y) = none →
     (s.taken 0x283 h).endRefused desc false (Shape.ofWords x) = none →
     (s.taken 0x283 h).endRefused desc true (Shape.ofWords y) = none →
     (s.taken 0x283 h).endViews desc false (Shape.ofWords x) = .runs [] →
     (s.taken 0x283 h).endViews desc true (Shape.ofWords y) = .runs [] → s.dev.roomFor h →
     exec (.descSubmit h w) s = .next (s.accepted 0x283 h w id)) ∧
   (∀ (s : State) (h : Hdr) (w : List W64), Sent cmdScrub s h w → s.dev.roomFor h →
     exec (.scrub h w) s = .next (s.accepted 0x502 h w id)) ∧
   (∀ (s : State) (h : Hdr) (w : List W64), Sent cmdScrubEx s h w → reserved (wd w 0) [(0, 0)] = false →
     (bit (wd w 0) 0 = true → bit (wd w 9) 62 = false ∧ bit (wd w 9) 63 = false) → s.dev.roomFor h →
     exec (.scrubEx h w) s = .next (s.accepted 0x582 h w id)) ∧
   (∀ (s : State) (h : Hdr) (w : List W64), Sent cmdBist s h w → s.dev.roomFor h →
     exec (.bist h w) s = .next (s.accepted 0x503 h w id)) ∧
   (∀ (s : State) (h : Hdr) (w : List W64), Sent cmdBistEx s h w → reserved (wd w 0) [(7, 0)] = false →
     (∀ i, i < fld (wd w 0) 7 0 →
       (s.taken 0x583 h).bistWordBad (((w.drop 1).map (fun (x : W64) => bwCode x)).take i) (1 + i) (wd w (1 + i)) = none) →
     s.dev.roomFor h → exec (.bistEx h w) s = .next (s.accepted 0x583 h w id)) ∧
   (∀ (s : State) (h : Hdr) (w : List W64), Sent (cmdAttesting 0x701 4) s h w → s.dev.roomFor h →
     exec (.attest h w) s = .next (s.accepted 0x701 h w id)) ∧
   (∀ (s : State) (h : Hdr) (w : List W64), Sent (cmdAttesting 0x781 5) s h w → reserved (wd w 4) [(8, 0)] = false →
     fld (wd w 4) 7 6 = 0 → s.dev.roomFor h → exec (.attestEx h w) s = .next (s.accepted 0x781 h w id)) ∧
   (∀ (s : State) (h : Hdr) (w : List W64), Sent cmdFirmwareUpdate s h w → reserved (wd w 0) [(39, 0)] = false →
     reserved (wd w 1) [(31, 0)] = false → fld (wd w 1) 31 0 ≤ fwSlotSize → fld (wd w 0) 39 0 < cellarEnd →
     fld (wd w 0) 39 0 + fld (wd w 1) 31 0 ≤ cellarEnd → s.dev.roomFor h →
     exec (.firmwareUpdate h w) s = .next (s.accepted 0x703 h w id)) ∧
   (∀ (s : State) (h : Hdr) (w : List W64) (a n : Nat), Sent cmdFlashWrite s h w → reserved (wd w 0) [(31, 0)] = false →
     reserved (wd w 1) [(39, 0)] = false → reserved (wd w 2) [(31, 0)] = false → fld (wd w 0) 31 0 = a → fld (wd w 2) 31 0 = n →
     a < flashSize → a + n ≤ flashSize → (s.dev.life = 2 → 0x2110000 ≤ a ∧ a + n ≤ 0x2120000) →
     (∀ c, (s.taken 0x783 h).physTo (fld (wd w 1) 39 0) n false ≠ .no c) → s.dev.roomFor h →
     exec (.flashWrite h w) s = .next (s.accepted 0x783 h w id)))

/-- A long operation whose slot holds a live one is refused with TAG_IN_USE, and one that finds 32 live with BUSY; on
acceptance its status word (where its codeword is without error, 10 R294) is QUEUED with PROGRESS, PARTIAL and ERROR 0, TAG_HI the tag's high half and its OPCODE, its
result area is empty, and the operation waits behind those accepted before it (15 R413, R415). -/
def Obligations.SlotsOfLongOperations : Prop :=
  (∀ (d : Dev) (op : Nat) (h : Hdr) (w : List W64) (o : LongOp), d.opOf (h.tag.toNat % 256) = some o →
    d.acceptOp op h w = .refuse rcTagInUse noDetail) ∧
  (∀ (d : Dev) (op : Nat) (h : Hdr) (w : List W64), d.opOf (h.tag.toNat % 256) = none → 32 ≤ d.ops.length →
    d.acceptOp op h w = .refuse rcBusy noDetail) ∧
  (∀ (d : Dev) (op : Nat) (h : Hdr) (w : List W64) (slot : Nat), slot = h.tag.toNat % 256 → d.roomFor h → op < 65536 →
    d.acceptOp op h w = .accepted (d.queueOp op h w) ∧
    (d.queueOp op h w).ops = d.ops ++ [{ slot := slot, opcode := op, params := w, running := false }] ∧
    (d.errIn (statusAddr slot) 8 = [] →
      fld ((d.queueOp op h w).status slot) 63 60 = 1 ∧ fld ((d.queueOp op h w).status slot) 59 26 = 0 ∧
      fld ((d.queueOp op h w).status slot) 25 18 = h.tag.toNat / 256 ∧ fld ((d.queueOp op h w).status slot) 17 2 = op) ∧
    (∀ i, (d.queueOp op h w).resultRecord slot i = List.replicate 8 0) ∧
    (∀ k, k < 256 → k ≠ slot → (d.queueOp op h w).status k = d.status k))

/-- WINDOW_OPEN writes a record that opens the window to every device of the domain, or closes it where OPS is 0, and
WINDOW_WRITE the record's two words, where no check of the fields refuses them; channels stopped for the window go on (that
they do so for a window opened by command is the model's choice, log entry 44) (13 R379, 15 R426). Segment commands that
leave a table R439 allows install it whole, and stopped channels try their translation again: SEGMENT_MAP maps one job
segment to one physical segment or unmaps it, and SEGMENT_WRITE writes up to 64 entries, each with its job segment filled in
(15 R429, 16 R438, R439, R441). GROUP_PRESET writes the four words of the preset named, with the command's decay, clip and
skip, and GROUP_WRITE the first four of its block's words, where no check refuses them (12 R331, 15 R431, R433). -/
def Obligations.TablesAreWritten : Prop :=
  ((∀ (s : State) (h : Hdr) (w : List W64) (i n ops : Nat) (v0 v1 : W64) (l : List (Nat × W64 × W64)), Sent cmdWindowOpen s h w →
     reserved (wd w 0) [(15, 0)] = false → reserved (wd w 1) [(47, 0)] = false → fld (wd w 0) 5 0 = i → fld (wd w 0) 15 10 = n →
     fld (wd w 0) 8 6 = ops → (ops ≠ 0 → 12 ≤ n ∧ n ≤ 37 ∧ fld (wd w 1) 47 0 % 2 ^ n = 0) →
     v0 = packFlds [(63, 63, if ops = 0 then 0 else 1), (62, 62, ops / 4), (61, 61, ops / 2), (60, 60, ops), (59, 54, n),
       (47, 0, fld (wd w 1) 47 0)] →
     v1 = packFlds [(63, 54, 0), (53, 44, s.dev.get Reg.LAT_DOMAIN_DOMAIN_LAST), (43, 34, 1)] →
     l = [(Reg.WIN_W0 i, v0, fullMask (Reg.WIN_W0 i)), (Reg.WIN_W1 i, v1, fullMask (Reg.WIN_W1 i))] →
     (s.taken 0x204 h).WritesPass l →
     let d := (s.taken 0x204 h).writesDone l
     exec (.windowOpen h w) s = .next (s.withDev ((if ops = 0 then d else d.resumeWindows).okReply 0x204 h []))) ∧
   (∀ (s : State) (h : Hdr) (w : List W64) (i : Nat) (l : List (Nat × W64 × W64)), Sent cmdWindowWrite s h w → reserved (wd w 0) [(5, 0)] = false →
     fld (wd w 0) 5 0 = i →
     l = [(Reg.WIN_W0 i, wd w 1, fullMask (Reg.WIN_W0 i)), (Reg.WIN_W1 i, wd w 2, fullMask (Reg.WIN_W1 i))] →
     (s.taken 0x284 h).WritesPass l →
     let d := (s.taken 0x284 h).writesDone l
     exec (.windowWrite h w) s = .next (s.withDev ((if bit (wd w 1) 63 then d.resumeWindows else d).okReply 0x284 h [])))) ∧
  ((∀ (s : State) (h : Hdr) (w : List W64) (seg : Nat) (l : List (Nat × Option W64)), Sent cmdSegmentMap s h w →
     reserved (wd w 0) [(17, 0)] = false → reserved (wd w 1) [(63, 63), (9, 0)] = false → fld (wd w 0) 17 0 = seg →
     l = [(seg, if bit (wd w 1) 63 then some (packFlds [(63, 63, 1), (61, 44, seg), (9, 0, fld (wd w 1) 9 0)]) else none)] →
     ((s.taken 0x306 h).tableWrite l).toBool = true → exec (.segmentMap h w) s = .next (s.withDev
       ((((s.taken 0x306 h).setTable (valueOr [] ((s.taken 0x306 h).tableWrite l))).retryTranslation).okReply 0x306 h []))) ∧
   (∀ (s : State) (h : Hdr) (w : List W64) (n : Nat) (l : List (Nat × Option W64)), Sent cmdSegmentWrite s h w →
     reserved (wd w 0) [(6, 0)] = false → fld (wd w 0) 6 0 = n → 1 ≤ n → n ≤ 64 →
     (∀ i, i < n → reserved (wd w (1 + 2 * i)) [(17, 0)] = false ∧ rawBad (wd w (2 + 2 * i)) = false) →
     (∀ i j, i < j → j < n → fld (wd w (1 + 2 * i)) 17 0 ≠ fld (wd w (1 + 2 * j)) 17 0) →
     l = (List.range n).map (fun i => (fld (wd w (1 + 2 * i)) 17 0,
       if bit (wd w (2 + 2 * i)) 63 then some (rawEntry (fld (wd w (1 + 2 * i)) 17 0) (wd w (2 + 2 * i))) else none)) →
     ((s.taken 0x386 h).tableWrite l).toBool = true → exec (.segmentWrite h w) s = .next (s.withDev
       ((((s.taken 0x386 h).setTable (valueOr [] ((s.taken 0x386 h).tableWrite l))).retryTranslation).okReply 0x386 h [])))) ∧
  ((∀ (s : State) (h : Hdr) (w l : List W64) (r : List (Nat × W64 × W64)), Sent cmdGroupPreset s h w → reserved (wd w 0) [(11, 0)] = false →
     reserved (wd w 2) [(0, 0)] = false →
     presetWords (fld (wd w 0) 11 8) (fld (wd w 1) 63 32) (fld (wd w 1) 31 0) (bit (wd w 2) 0) = some l →
     r = (groupWrites (fld (wd w 0) 7 0) l).map (fun p => (p.1, p.2, fullMask p.1)) → (s.taken 0x402 h).WritesPass r →
     exec (.groupPreset h w) s = .next (s.withDev (((s.taken 0x402 h).writesDone r).okReply 0x402 h []))) ∧
   (∀ (s : State) (h : Hdr) (w : List W64) (r : List (Nat × W64 × W64)), Sent cmdGroupWrite s h w → reserved (wd w 0) [(7, 0)] = false →
     r = (groupWrites (fld (wd w 0) 7 0) (w.drop 1)).map (fun p => (p.1, p.2, fullMask p.1)) → (s.taken 0x482 h).WritesPass r →
     exec (.groupWrite h w) s = .next (s.withDev (((s.taken 0x482 h).writesDone r).okReply 0x482 h []))))

/-- HALT_CHANNEL gives the descriptor in progress on the channel named the stop cause HALT, and a channel with none goes on
as it was (09 R285, 15 R429). OP_ABORT ends a QUEUED operation ABORTED, and nothing of it runs: a load leaves the state
NONE, a resume PREEMPTED, an unload the state it began from, a step its slot; a RUNNING one ends as its class permits, and a
slot without a live operation, or one that runs and may not be ended, is refused with STATE. OP_ABORT_CLASS does so for every
operation of a class, the newest first (15 R421, R424). -/
def Obligations.ChannelsAndOperationsStop : Prop :=
  (∀ (s : State) (h : Hdr) (w : List W64) (loc ch : Nat), Sent cmdHaltChannel s h w → reserved (wd w 0) [(12, 0)] = false →
     fld (wd w 0) 7 0 = loc → fld (wd w 0) 12 8 = ch → loc ≤ 152 → ch < channelsOf loc →
     exec (.haltChannel h w) s = .next (s.withDev
       (((s.taken 0x387 h).onRun loc ch (fun r => { r with stop := some 11, wait := none })).okReply 0x387 h [])) ∧
     ((s.dev.chan loc ch).cur = none → ((s.taken 0x387 h).onRun loc ch (fun r => { r with stop := some 11, wait := none })).chan loc ch =
       s.dev.chan loc ch)) ∧
  ((∀ (s : State) (h : Hdr) (w : List W64) (o : LongOp), Sent cmdOpAbort s h w → reserved (wd w 0) [(7, 0)] = false →
     s.dev.opOf (fld (wd w 0) 7 0) = some o → o.running = false →
     exec (.opAbort h w) s = .next (s.withDev (((s.taken 0x108 h).unqueue o).okReply 0x108 h []))) ∧
   (∀ (s : State) (h : Hdr) (w : List W64) (o : LongOp), Sent cmdOpAbort s h w → reserved (wd w 0) [(7, 0)] = false →
     s.dev.opOf (fld (wd w 0) 7 0) = some o → o.running = true →
     (basicOp o.opcode ∈ endable →
       exec (.opAbort h w) s = .next (s.withDev (((s.taken 0x108 h).aborted o).okReply 0x108 h []))) ∧
     (basicOp o.opcode ∉ endable →
       exec (.opAbort h w) s = .next (s.withDev ((s.taken 0x108 h).refusal 0x108 h rcState noDetail)))) ∧
   (∀ (s : State) (h : Hdr) (w : List W64), Sent cmdOpAbort s h w → reserved (wd w 0) [(7, 0)] = false →
     s.dev.opOf (fld (wd w 0) 7 0) = none →
     exec (.opAbort h w) s = .next (s.withDev ((s.taken 0x108 h).refusal 0x108 h rcState noDetail))) ∧
   (∀ (s : State) (h : Hdr) (w : List W64) (c : Nat) (l : List LongOp), Sent cmdOpAbortClass s h w →
     reserved (wd w 0) [(2, 0)] = false → fld (wd w 0) 2 0 = c → c ≤ 5 →
     l = (s.dev.ops.filter (fun o => opClass o.opcode = c)).reverse →
     (l = [] → exec (.opAbortClass h w) s = .next (s.withDev ((s.taken 0x188 h).okReply 0x188 h []))) ∧
     (∀ o, l = [o] → s.dev.opOf o.slot = some o → (o.running = false ∨ basicOp o.opcode ∈ endable) →
       exec (.opAbortClass h w) s = .next (s.withDev (((s.taken 0x188 h).aborted o).okReply 0x188 h []))) ∧
     (((s.taken 0x188 h).abortAll l).isSome = true → exec (.opAbortClass h w) s = .next (s.withDev
       ((((s.taken 0x188 h).abortAll l).getD (s.taken 0x188 h)).okReply 0x188 h [])))))

/-- POWER_STATE and POWER_STATE_EX answer OK and then move the device, or the units named, to their target: REST only where
no job, copy, maintenance or run stands in the way, VAULT only with no job and no operation (15 R435, 18 R495 to R497).
RESET answers OK and then begins a warm reset, and RESET_AT notes its beat, at which the reset begins (15 R435, 22 R554).
FREEZE and FREEZE_AT with LOCAL 0 trigger a flood, FREEZE_AT with LOCAL 1 a freeze of this device alone, at the beat named
or the next one where it has passed (the latter is the model's choice); THAW and THAW_AT set the beat of a frozen device's
thaw, and are refused with STATE on one that is not frozen (21 R529, R530, R534). -/
def Obligations.PowerAndResetCommands : Prop :=
  ((∀ (s : State) (h : Hdr) (w : List W64) (t : Nat), Sent cmdPowerState s h w → reserved (wd w 0) [(2, 0)] = false →
     fld (wd w 0) 2 0 = t → t ≤ 3 → (t = 2 → s.dev.restAllowed = true) → (t = 3 → s.dev.js = jsNone ∧ s.dev.ops = []) →
     exec (.powerState h w) s = .next (s.withDev (((s.taken 0x601 h).okReply 0x601 h []).enterPower t))) ∧
   (∀ (s : State) (h : Hdr) (w : List W64) (t : Nat), Sent cmdPowerStateEx s h w → reserved (wd w 0) [(2, 0)] = false →
     reserved (wd w 1) [(11, 0)] = false → fld (wd w 0) 2 0 = t → t ≤ 2 →
     exec (.powerStateEx h w) s = .next (s.withDev (
       if t = 2 then ((s.taken 0x681 h).okReply 0x681 h []).restUnits (unitList (fld (wd w 1) 12 0))
       else ((s.taken 0x681 h).okReply 0x681 h []).wakeUnits (unitList (fld (wd w 1) 12 0))))) ∧
   (∀ (s : State) (h : Hdr) (w : List W64), Sent cmdPowerState s h w → reserved (wd w 0) [(2, 0)] = false →
     (fld (wd w 0) 2 0 = 2 ∧ s.dev.restAllowed = false) ∨ (fld (wd w 0) 2 0 = 3 ∧ (s.dev.js ≠ jsNone ∨ s.dev.ops ≠ [])) →
     exec (.powerState h w) s = .next (s.withDev ((s.taken 0x601 h).refusal 0x601 h rcState noDetail)))) ∧
  ((∀ (s : State) (h : Hdr) (w : List W64), Sent cmdReset s h w →
     exec (.reset h w) s = .next (s.withDev ((s.taken 0x603 h).okReply 0x603 h []).warmReset)) ∧
   (∀ (s : State) (h : Hdr) (w : List W64), Sent cmdResetAt s h w →
     exec (.resetAt h w) s = .next (s.withDev
       ((({ s.taken 0x683 h with resetAt := some (wd w 0).toNat } : Dev)).okReply 0x683 h []))) ∧
   (∀ (s : State) (b : Nat), s.dev.resetAt = some b → s.dev.boot.phase = .run → b ≤ s.dev.aonBeat →
     exec .resetAtBeat s = .next (s.withDev s.dev.warmReset)) ∧
   (∀ (s : State) (b : Nat), s.dev.resetAt = some b → s.dev.aonBeat < b → exec .resetAtBeat s = .next s)) ∧
  ((∀ (s : State) (h : Hdr) (w : List W64), Sent cmdFreeze s h w →
     exec (.freeze h w) s = .next (s.withDev
       (((s.taken 0x801 h).freezeTrigger fcCommand 2 (s.taken 0x801 h).beat).okReply 0x801 h []))) ∧
   (∀ (s : State) (h : Hdr) (w : List W64) (t : Nat), Sent cmdFreezeAt s h w → reserved (wd w 1) [(0, 0)] = false →
     (wd w 0).toNat = t →
     exec (.freezeAt h w) s = .next (s.withDev
       ((if bit (wd w 1) 0 then (s.taken 0x881 h).freezeTrigger fcCommand 1 (max t ((s.taken 0x881 h).beat + 1))
         else (s.taken 0x881 h).freezeTrigger fcCommand 2 t).okReply 0x881 h []))) ∧
   (∀ (s : State) (h : Hdr) (w : List W64), Sent cmdThaw s h w → s.dev.frozen = true →
     exec (.thaw h w) s = .next (s.withDev
       (({ s.taken 0x804 h with frz := { s.dev.frz with thawAt := some (s.dev.aonBeat + 1) } } : Dev).okReply 0x804 h []))) ∧
   (∀ (s : State) (h : Hdr) (w : List W64), Sent cmdThawAt s h w → s.dev.frozen = true →
     exec (.thawAt h w) s = .next (s.withDev
       (({ s.taken 0x884 h with frz := { s.dev.frz with thawAt := some (max (wd w 0).toNat (s.dev.aonBeat + 1)) } } : Dev).okReply
         0x884 h []))) ∧
   (∀ (s : State) (h : Hdr) (w : List W64), s.dev.frozen = false →
     (Sent cmdThaw s h w → exec (.thaw h w) s = .next (s.withDev ((s.taken 0x804 h).refusal 0x804 h rcState noDetail))) ∧
     (Sent cmdThawAt s h w → exec (.thawAt h w) s = .next (s.withDev ((s.taken 0x884 h).refusal 0x884 h rcState noDetail)))))

/-- A warm reset, whoever begins it, ends every QUEUED or RUNNING operation as ABORTED with ERROR RESET and keeps every
other status word and the result areas (a status word whose codeword holds an error is written as 10 R294 says); the loss of a host link ends nothing (15 R422). -/
def Obligations.WarmResetEndsOperations : Prop :=
  (∀ d : Dev, (∀ o ∈ d.ops, o.slot < 256) →
    d.warmReset.ops = [] ∧ d.warmReset.results = d.results ∧
    (∀ o ∈ d.ops, d.errIn (statusAddr o.slot) 8 = [] → fld (d.warmReset.status o.slot) 63 60 = stAborted ∧ fld (d.warmReset.status o.slot) 33 26 = rcReset) ∧
    (∀ i, i < 256 → d.opOf i = none → d.warmReset.status i = d.status i)) ∧
  (∀ (s : State), s.dev.boot.phase ≠ .off → s.dev.pins.pwrgood = true → ∃ t, exec .warmReset s = .next t ∧
    t.dev = { s.dev.warmReset with pins := { s.dev.pins with resetN := false } } ∧ t.fuses = s.fuses) ∧
  (∀ (s : State) (port : Nat), ∃ t, exec (.hostLinkDown port) s = .next t ∧ t.dev.ops = s.dev.ops ∧
    t.dev.results = s.dev.results ∧ ∀ i, t.dev.status i = s.dev.status i)

/-- What a warm reset keeps: cellar memory, the flash, the time base, the count of beats, the pins and the contexts saved,
and cellar memory's stored errors; the session, the cache, the job, the channels, the benches' engines, a freeze and the
scratchpads' stored errors go (22 R554, 15 R405). -/
def Obligations.WarmResetKeeps : Prop :=
  ∀ d : Dev, (∀ k, k < 574 * 2 ^ 30 → Memory.read d.warmReset.mem k = Memory.read d.mem k) ∧
    d.warmReset.flash = d.flash ∧ d.warmReset.time = d.time ∧ d.warmReset.saved = d.saved ∧ d.warmReset.pins = d.pins ∧
    d.warmReset.countedBeats = d.countedBeats ∧ d.warmReset.get Reg.SM_STATE_SESSION = 0 ∧ d.warmReset.smiper = {} ∧
    d.warmReset.job = {} ∧ d.warmReset.chans = [] ∧ d.warmReset.bench = [] ∧ d.warmReset.js = jsNone ∧
    d.warmReset.boot.phase = .aon ∧ d.warmReset.frozen = true ∧ d.warmReset.get Reg.FRZ_STATUS_FROZEN = 0 ∧
    (∀ e ∈ d.warmReset.errs, e ∈ d.errs ∧ e.1 < cellarEnd) ∧
    (∀ e ∈ d.errs, e.1 < 574 * 2 ^ 30 → e ∈ d.warmReset.errs)

/-- LIFECYCLE_ADVANCE blows the fuses of its target state, and the state moves: to MANUFACTURE, to DEPLOYED where the device
carries its own chain, and to RETIRED, which destroys every seed; to PROVISIONED it draws a seed into the first unblown
bank, and abandons a bank that fails its check (what is drawn, and whether it fails, is open, log entry 13). Any other move
is refused with STATE, a busy security unit with BUSY (19 R503, R504, R506). LIFECYCLE_AUTH moves between DEPLOYED and
SERVICE where its authorisation is valid, and is refused with AUTH and counted where it is not; either way LC_CHALLENGE
takes fresh bits, which are free values (19 R512, R513; log entries 10, 13). -/
def Obligations.LifeCycleAdvances : Prop :=
  (∀ (s : State) (h : Hdr) (w : List W64) (target : Nat) (d : Dev), Sent cmdLifecycleAdvance s h w →
     d = s.taken 0x702 h → fld (wd w 0) 31 0 = target → target < 16 → fld (wd w 0) 63 32 = 2 ^ 32 - 1 - target →
     (s.dev.life = 0 → target = 1 → s.dev.js = jsNone → s.dev.lifeBusy = false →
       exec (.lifecycleAdvance h w) s = .next { s with fuses := s.fuses.blow 1, dev := (d.setLife 1).okReply 0x702 h [] }) ∧
     (s.dev.life = 1 → target = 2 → s.dev.js = jsNone → s.dev.lifeBusy = false → ∀ i, s.fuses.banks.findIdx? (fun b => b = .unblown) = some i →
       ∃ t, exec (.lifecycleAdvance h w) s = .next t ∧
         (bit d.free?.1 0 = false → t.fuses =
           (({ s.fuses with banks := s.fuses.banks.set i (.seed (wordsBytes (Dev.freeWords 4 d.free?.2).1)) } : Fuses).blow 2) ∧
           t.dev.life = 2) ∧
         (bit d.free?.1 0 = true → t.fuses = { s.fuses with banks := s.fuses.banks.set i .abandoned } ∧ t.dev.life = 1)) ∧
     (s.dev.life = 2 → target = 3 → s.dev.js = jsNone → s.dev.lifeBusy = false →
       exec (.lifecycleAdvance h w) s = .next (
         if d.ownChain s.fuses then { s with fuses := s.fuses.blow 3, dev := (d.setLife 3).okReply 0x702 h [] }
         else s.withDev ((d.inc Reg.LC_COUNT_AUTH_FAILURES).refusal 0x702 h rcAuth noDetail))) ∧
     (s.dev.life = 3 ∨ s.dev.life = 4 → target = 5 → s.dev.js = jsNone → s.dev.lifeBusy = false →
       exec (.lifecycleAdvance h w) s = .next { s with
         fuses := (s.fuses.blow 5).destroySeeds
         dev := (((({ d with boot := { d.boot with service := false } } : Dev).set Reg.LC_STATUS_SEED_BANK 0).setLife 5).okReply 0x702 h []) }) ∧
     ([(0, 1), (1, 2), (2, 3), (3, 5), (4, 5)].contains (s.dev.life, target) = false ∨ s.dev.js ≠ jsNone →
       exec (.lifecycleAdvance h w) s = .next (s.withDev (d.refusal 0x702 h rcState noDetail)))) ∧
  (∀ (s : State) (h : Hdr) (w : List W64) (target : Nat) (d : Dev), Sent cmdLifecycleAuth s h w → d = s.taken 0x782 h →
     reserved (wd w 0) [(3, 0)] = false → fld (wd w 0) 3 0 = target → (s.dev.life = 3 ∧ target = 4) ∨ (s.dev.life = 4 ∧ target = 3) →
     s.dev.js = jsNone → s.dev.lifeBusy = false →
     exec (.lifecycleAuth h w) s = .next (s.withDev (if d.authorised s.fuses target (wordsBytes (w.drop 1)) then
         (({ d.renewChallenge with boot := { d.boot with service := decide (target = 4) } } : Dev).setLife target).okReply 0x782 h []
       else (d.renewChallenge.inc Reg.LC_COUNT_AUTH_FAILURES).refusal 0x782 h rcAuth noDetail)))

/-- A QUEUED operation that is the next of its class starts once its class is free: its status word becomes RUNNING and its
work begins. One that runs, or that another must precede, is left as it is (15 R420). The ends of other operations. A scrub
whose leave is granted clears or patrols its segments, returns its leave and ends DONE; an attestation ends DONE with its
signature records, and ATTESTS counts it; a firmware image is written to the inactive slot, read back and verified before
the directory names it, and fails with AUTH where it does not verify; a raw flash write puts its bytes in the flash (15
R435, 19 R511, R515; signatures are open values, log entry 10). -/
def Obligations.LongOperationsRun : Prop :=
  ((∀ (s : State) (slot : Nat) (o : LongOp), s.dev.opOf slot = some o → o.running = false → s.dev.frozen = false →
     s.dev.serving = true → s.dev.opNext o = true → s.dev.classFree o = true →
     exec (.longOpStart slot) s = .next (s.withDev
       (((s.dev.setStatusFld slot 63 60 2).onOp slot (fun o => { o with running := true })).opStart s.fuses
         { o with running := true }))) ∧
   (∀ (s : State) (slot : Nat) (o : LongOp), s.dev.opOf slot = some o →
     o.running = true ∨ s.dev.opNext o = false ∨ s.dev.classFree o = false → exec (.longOpStart slot) s = .next s)) ∧
  ((∀ (s : State) (o : LongOp) (d : Dev), s.dev.runningOp 0x502 = some o → o.ready = true → s.dev.frozen = false →
     ((o.opcode = 0x582 ∧ bit (wd o.params 0) 0 = true) → d = (scrubSegs o).foldl Dev.clearSegment s.dev →
       exec .scrubDone s = .next (s.withDev ((d.returnHub d.hubGrant).opEnd o.slot stDone 0))) ∧
     ((o.opcode = 0x502 ∨ bit (wd o.params 0) 0 = false) → ∃ t, exec .scrubDone s = .next t ∧
       (s.dev.errIn (statusAddr o.slot) 8 = [] → fld (t.dev.status o.slot) 63 60 = stDone) ∧ t.dev.hubGrant = 0 ∧ (∀ q ∈ t.dev.ops, q.slot ≠ o.slot))) ∧
   (∀ (s : State) (o : LongOp), s.dev.runningOp 0x701 = some o → o.ready = true → s.dev.frozen = false →
     ∃ t, exec .attestDone s = .next t ∧ t.dev.ops = s.dev.ops.filter (fun q => q.slot ≠ o.slot) ∧
       t.dev.get Reg.LC_COUNT_ATTESTS = min Reg.LC_COUNT_ATTESTS.max (s.dev.get Reg.LC_COUNT_ATTESTS + 1) ∧
       (∃ more, SMap.get (fun _ => []) t.dev.results o.slot = SMap.get (fun _ => []) s.dev.results o.slot ++ more ∧
         more.length = (if attestChain o then 120 else 20)) ∧ t.fuses = s.fuses) ∧
   (∀ (s : State) (o : LongOp) (l : List Byte) (slot : Nat) (d : Dev),
     s.dev.ops.find? (fun o => o.running && o.opcode = 0x703) = some o → o.ready = true → s.dev.frozen = false →
     s.dev.badPhys (fld (wd o.params 0) 39 0) (fld (wd o.params 1) 39 0) = none →
     l = s.dev.bytes (fld (wd o.params 0) 39 0) (fld (wd o.params 1) 39 0) → slot = 1 - s.dev.directory.2.1 → d = s.dev.flashWrite (fwSlot slot) l →
     exec .firmwareUpdateDone s = .next (s.withDev (
       if (d.verifyImage s.fuses.rollback (d.slotImage slot)).isSome then (d.setDirectory slot).opEnd o.slot stDone 0
       else d.opEnd o.slot stFailed rcAuth))) ∧
   (∀ (s : State) (o : LongOp) (l : List Byte), s.dev.ops.find? (fun o => o.running && o.opcode = 0x783) = some o →
     o.ready = true → s.dev.frozen = false →
     s.dev.badPhys (fld (wd o.params 1) 39 0) (fld (wd o.params 2) 31 0) = none →
     l = s.dev.bytes (fld (wd o.params 1) 39 0) (fld (wd o.params 2) 31 0) →
     exec .flashWriteDone s = .next (s.withDev ((s.dev.flashWrite (fld (wd o.params 0) 31 0) l).opEnd o.slot stDone 0))))

/-- A domain formation ends once every used port is UP: DOMAIN_FORM sets the measured minima with a slip of 400, and
DOMAIN_FORM_EX keeps the caller's values and fails with PARAMETER where they fall short (the minima are an open value within
the registers' limits, log entry 11). One whose tree does not nest, or is deeper than five links, fails with PARAMETER (13
R358). One that has a used port not UP 10 s after its acceptance ends FAILED with LINK (15
R434, 13 R358). While a domain forms, a BEAT from the configured partner takes a training port on to calibration, one from
another device fails it, and a CAL exchange within 150 ns and 2 ns measures the delay; after 1,024 beats the port is UP with
its record written (13 R358, R359, 15 R434). -/
def Obligations.DomainsForm : Prop :=
  ((∀ (s : State) (o : LongOp), s.dev.forming = some o → s.dev.frozen = false → s.dev.formUp o = true →
     s.dev.treeNests = false ∨ 5 < Config.treeDepth (s.dev.reg Reg.LAT_DOMAIN) →
     exec .domainFormDone s = .next (s.withDev (s.dev.opEnd o.slot stFailed rcParameter))) ∧
   (∀ (s : State) (o : LongOp) (agree flood : Nat), s.dev.forming = some o → s.dev.frozen = false → s.dev.formUp o = true →
     s.dev.treeNests = true →
     let ends (d : Dev) : Host.Outcome State Fault Refusal := .next (s.withDev
       (if 5 < Config.treeDepth (s.dev.reg Reg.LAT_DOMAIN) then s.dev.opEnd o.slot stFailed rcParameter else d))
     agree = max 2 (min 63 (Config.formMinima (s.dev.reg Reg.LAT_DOMAIN)).1) →
     flood = max 1 (min (agree - 1) (Config.formMinima (s.dev.reg Reg.LAT_DOMAIN)).2) →
     (o.opcode ≠ 0x183 → exec .domainFormDone s = ends
       (((((s.dev.addResult o.slot [packFlds [(29, 24, agree), (23, 18, flood)]]).set Reg.LAT_DOMAIN_AGREE_BEATS agree).set
         Reg.LAT_DOMAIN_FLOOD_BEATS flood).set Reg.LAT_DOMAIN_RETRAIN_SLIP 400).opEnd o.slot stDone 0)) ∧
     (o.opcode = 0x183 → agree ≤ s.dev.get Reg.LAT_DOMAIN_AGREE_BEATS → flood ≤ s.dev.get Reg.LAT_DOMAIN_FLOOD_BEATS →
       exec .domainFormDone s = ends
         ((s.dev.addResult o.slot [packFlds [(29, 24, agree), (23, 18, flood)]]).opEnd o.slot stDone 0)) ∧
     (o.opcode = 0x183 → (s.dev.get Reg.LAT_DOMAIN_AGREE_BEATS < agree ∨ s.dev.get Reg.LAT_DOMAIN_FLOOD_BEATS < flood) →
       exec .domainFormDone s = ends
         ((s.dev.addResult o.slot [packFlds [(29, 24, agree), (23, 18, flood)]]).opEnd o.slot stFailed rcParameter))) ∧
   (∀ (s : State) (o : LongOp), s.dev.ops.find? (fun o => basicOp o.opcode = 0x103) = some o → s.dev.frozen = false →
     o.note.headD 0 + 10000000 ≤ s.dev.ageBeats → (o.running && s.dev.formUp o) = false →
     exec .domainFormTimeout s = .next (s.withDev (s.dev.opEnd o.slot stFailed rcLink)))) ∧
  (∀ (s : State) (p : Nat) (f : Flit) (m : List W64) (l : List (List W64)) (o : LongOp), p < 12 → s.dev.forming = some o →
     flGood f = true → flKind f = 6 → s.dev.frozen = false → flMessages f = m :: l → (∀ x ∈ l, msType x = 0) →
     (∀ r, s.dev.get (Reg.PORT_W0_STATE p) = 1 → msType m = 1 →
       (msOrigin m ≠ s.dev.get (Reg.PORT_W0_PARTNER p) → exec (.beatMessage p f r) s =
         .next (s.withDev ((s.dev.setPort p 6).opEnd o.slot stFailed 0x11))) ∧
       (msOrigin m = s.dev.get (Reg.PORT_W0_PARTNER p) →
         let d := s.dev.takeBeat p m (some r)
         exec (.beatMessage p f r) s = .next (s.withDev
           ((d.setPort p 2).setFormNote p 0 (d.ageBeats + 1))))) ∧
     (∀ delay, s.dev.get (Reg.PORT_W0_STATE p) = 2 → msType m = 2 →
       let lo := if formNote o p 2 = 0 then delay else min delay (formNote o p 1)
       let hi := max delay (formNote o p 2)
       let d := (((s.dev.noteCal p).set (Reg.PORT_W0_DELAY p) delay).setFormNote p 1 lo).setFormNote p 2 hi
       (1200 < delay ∨ 16 < hi - lo → exec (.cal p f delay) s = .next (s.withDev ((s.dev.noteCal p).setPort p 6))) ∧
       (delay ≤ 1200 → hi - lo ≤ 16 → s.dev.ageBeats + 1 < formNote o p 0 + 1024 →
         exec (.cal p f delay) s = .next (s.withDev d)) ∧
       (delay ≤ 1200 → hi - lo ≤ 16 → formNote o p 0 + 1024 ≤ s.dev.ageBeats + 1 →
         exec (.cal p f delay) s = .next (s.withDev ((d.setPort p 3).addResult o.slot [(d.setPort p 3).reg (Reg.PORT_W0 p),
           packFlds [(13, 4, (d.setPort p 3).get (Reg.PORT_W0_PARTNER p)),
             (3, 0, (d.setPort p 3).get (Reg.PORT_W0_PARTNER_PORT p))]])))))

/-- A load whose checks have passed ends DONE in LOADED, or in PREEMPTED where its job was parked; the job starts at its
agreed join beat, when fence 0 is released, or resumes, or goes on after a thaw (16 R446, R447, R454, R457; 21 R535). What
is quiet and preempting is saved: the job's context is kept under its JOB_ID, the save record is written at the save
address, PREEMPTIONS counts, the job is PREEMPTED and its PREEMPT ends DONE. An uncorrectable word in a scratchpad ends the
save instead (16 R451 to R453; contexts keyed by JOB_ID are the model's choice, log entry 8). A resuming job's save area is
read back and its context with it, and the device is ready to join; an uncorrectable word in the area ends the RESUME FAILED
in PREEMPTED. An unload's clears done, the segment table is empty, the job is gone, its operation and any STEP end, and the
state is NONE (16 R454, R458). -/
def Obligations.JobsRun : Prop :=
  ((∀ (s : State) (o : LongOp), s.dev.runningOp 0x301 = some o → o.ready = true → s.dev.frozen = false → s.dev.js = jsLoading →
     ∃ t, exec .jobLoadDone s = .next t ∧ t.dev.js = (if o.note = [1] then jsPreempted else jsLoaded) ∧
       t.dev.ops = s.dev.ops.filter (fun q => q.slot ≠ o.slot) ∧ t.dev.job.joinReady = false ∧
       t.dev.job.joinKind = (if o.note = [1] then 1 else 0) ∧ (s.dev.errIn (statusAddr o.slot) 8 = [] → t.dev.status o.slot =
         putFld (putFld (putFld (s.dev.status o.slot) 63 60 stDone) 33 26 0) 59 50 1000)) ∧
   (∀ (s : State) (j : Nat) (d : Dev), s.dev.job.joinAt = some j → s.dev.frozen = false → j ≤ s.dev.beat →
     s.dev.job.joinReady = true →
     d = { s.dev with job := { s.dev.job with joinAt := none, joinPoll := none, joinReady := false }
                      lat := { s.dev.lat with polls := s.dev.lat.polls.filter (fun h => h.1 ≠ s.dev.joinFence) } } →
     (s.dev.job.joinKind = 0 → s.dev.js = jsLoaded → exec .jobJoinBeat s = .next (s.withDev d.startJob)) ∧
     (s.dev.job.joinKind = 1 → s.dev.js = jsResuming → exec .jobJoinBeat s = .next (s.withDev d.resumeJob)) ∧
     (s.dev.job.joinKind = 2 → s.dev.frz.wasRunning = true → ∃ t, exec .jobJoinBeat s = .next t ∧
       t.dev.frz.wasRunning = false ∧ t.dev.js = s.dev.js ∧ t.dev.mem = s.dev.mem)) ∧
   (∀ (s : State) (j : Nat), s.dev.job.joinAt = some j → s.dev.beat < j → exec .jobJoinBeat s = .next s)) ∧
  ((∀ (s : State) (rec_ : List (Xl × Nat)), s.dev.js = jsPreempting → s.dev.frozen = false → s.dev.allQuiet = true →
     s.dev.errs.find? (fun e => decide (0xF000000000 ≤ e.1) && e.2 = 3) = none →
     s.dev.jobRuns (s.dev.get Reg.JOB_SAVE_SAVE_ADDR) 4096 = some rec_ →
     ∃ t, exec .saveComplete s = .next t ∧ t.dev.js = jsPreempted ∧
       SMap.get (fun _ => none) t.dev.saved (s.dev.get Reg.JOB_STATE_JOB_ID) = some s.dev.context ∧
       t.dev.get Reg.JOB_COUNT_PREEMPTIONS = min Reg.JOB_COUNT_PREEMPTIONS.max (s.dev.get Reg.JOB_COUNT_PREEMPTIONS + 1) ∧
       t.dev.job.joinKind = 1 ∧ t.dev.job.joinReady = false ∧
       (∀ o ∈ t.dev.ops, (o.running && decide (basicOp o.opcode = 0x303)) = false) ∧ t.dev.chans = s.dev.chans) ∧
   (∀ (s : State) (e : Nat × Nat), s.dev.js = jsPreempting → s.dev.frozen = false → s.dev.allQuiet = true →
     s.dev.errs.find? (fun e => decide (0xF000000000 ≤ e.1) && e.2 = 3) = some e →
     exec .saveComplete s = .next (s.withDev (s.dev.spUncorrectable ((e.1 - 0xF000000000) / spSize) 3 0 e.1)))) ∧
  ((∀ (s : State) (o : LongOp) (area : List (Xl × Nat)) (d₀ d : Dev), s.dev.runningOp 0x304 = some o → s.dev.js = jsResuming →
     s.dev.frozen = false → s.dev.job.joinReady = false →
     s.dev.jobRuns (s.dev.get Reg.JOB_SAVE_SAVE_ADDR) saveSize = some area →
     d₀ = area.foldl (fun d r => (d.rdPhys r.1.phys r.2).1) s.dev →
     d = (List.range 144).foldl (fun d b => d.copyRuns false (spBase b) (d.saveScratch b)) d₀ →
     ((∀ r ∈ area, d₀.badPhys r.1.phys r.2 = none) →
       (∀ x, SMap.get (fun _ => none) d.saved (d.get Reg.JOB_STATE_JOB_ID) = some x →
         exec .restoreComplete s = .next (s.withDev
           { d.putContext x with job := { (d.putContext x).job with joinReady := true } })) ∧
       (SMap.get (fun _ => none) d.saved (d.get Reg.JOB_STATE_JOB_ID) = none →
         exec .restoreComplete s = .next (s.withDev { d with job := { d.job with joinReady := true } }))) ∧
     ((∃ r ∈ area, d₀.badPhys r.1.phys r.2 ≠ none) →
       exec .restoreComplete s = .next (s.withDev ((d₀.opEnd o.slot stFailed rcUncorrectable).setJs jsPreempted)))) ∧
   (∀ (s : State) (o : LongOp), s.dev.runningOp 0x305 = some o → o.ready = true → s.dev.frozen = false →
     s.dev.js = jsUnloading →
     ∃ t, exec .unloadComplete s = .next t ∧ t.dev.js = jsNone ∧ t.dev.segTable = [] ∧ t.dev.job = {} ∧
       t.dev.get Reg.JOB_STATE_JOB_ID = 0 ∧ t.dev.hubGrant = 0 ∧
       (∀ q ∈ t.dev.ops, q ∈ s.dev.ops ∧ q.slot ≠ o.slot ∧ basicOp q.opcode ≠ 0x401)))

/-- A self-test's region starts once those before it have started, its leave is granted and the limits allow it, and what it
covers is saved in a free slot first. A region
that passes counts no failure and leaves Safe as it is; a bench that fails in DEPLOYED puts the device in Safe and is held;
an end of a region that does not run changes nothing (20 R522 to R526). -/
def Obligations.SelfTestRegions : Prop :=
  (∀ (s : State) (o : LongOp) (code i : Nat) (r : Region), s.dev.testing = some o →
    s.dev.bist.findIdx? (fun r => r.code = code) = some i → s.dev.bist[i]? = some r → o.note = [] →
    (∀ q ∈ s.dev.bist.take i, 2 ≤ q.stage) → (r.stage = 1 ∨ (r.stage = 0 ∧ s.dev.regionUnits code = 0)) →
    s.dev.regionFits code = true → s.dev.frozen = false →
    (∀ p, regionBytes code = some p → s.dev.badPhys p.1 p.2 = none) →
    let r' : Region := { r with stage := 2, beat := s.dev.beat, slot := s.dev.freeSlot }
    let d := match regionBytes code, saveSlot r' with
      | some p, some to_ => (s.dev.rdPhys p.1 p.2).1.copyRange p.1 to_ p.2
      | _, _ => s.dev
    exec (.bistRegionStart code) s = .next (s.withDev { d with bist := d.bist.set i r' })) ∧
  (∀ (s : State) (o : LongOp) (code i : Nat) (r : Region), s.dev.testing = some o →
    s.dev.bist.findIdx? (fun r => r.code = code) = some i → s.dev.bist[i]? = some r → r.stage = 2 → s.dev.frozen = false →
    s.dev.smiper.heldCmds = [] →
    (∀ p a, regionBytes code = some p → saveSlot r = some a → s.dev.badPhys a p.2 = none) →
    (∃ t, exec (.bistRegionEnd code []) s = .next t ∧ t.dev.get Reg.BIST_COUNT_FAILS = s.dev.get Reg.BIST_COUNT_FAILS ∧
      t.dev.get Reg.FAULT_STATUS_SAFE = s.dev.get Reg.FAULT_STATUS_SAFE) ∧
    (regionKind code = some .bench → s.dev.life = 3 → s.dev.js = jsNone → ∃ t, exec (.bistRegionEnd code [0]) s = .next t ∧
      t.dev.get Reg.FAULT_STATUS_SAFE = 1 ∧ bit (t.dev.reg (Reg.BIST_HELD (code / 64))) (code % 64) = true)) ∧
  (∀ (s : State) (code : Nat) (seen : List Nat), (∀ r ∈ s.dev.bist, r.code = code → r.stage ≠ 2) →
    s.dev.smiper.heldCmds = [] → exec (.bistRegionEnd code seen) s = .next s)

/-- FREEZE_N held low triggers once, by PIN_ACTION, until it has been high again: OFF does nothing, LOCAL notes a freeze of
this device, FLOOD begins a flood; a trigger on a device that is frozen, in VAULT or already to freeze is ignored, counted
and logged (21 R529, R530). At a freeze's beat every clock stops: FRZ_STATUS shows FROZEN with the cause, LOCAL and the
beat, FREEZES counts, and no memory, tag, accumulator, channel, engine, fence or operation changes. At a thaw's beat the
clocks restart with the beat counted on, THAWS counts, and a device whose job ran is to join its domain again (21 R531,
R532, R534, R535). -/
def Obligations.FreezesTakeEffect : Prop :=
  ((∀ s : State, s.dev.boot.phase ≠ .off → s.dev.pins.freezeArmed = true → ∃ t, exec .freezePin s = .next t ∧
     t.dev.pins.freezeN = false ∧ t.dev.pins.freezeArmed = false ∧
     (s.dev.get Reg.FRZ_CTRL_PIN_ACTION = 0 → t.dev.frz = s.dev.frz ∧ t.dev.regs = s.dev.regs) ∧
     (s.dev.get Reg.FRZ_CTRL_PIN_ACTION = 1 → s.dev.boot.phase = .run → s.dev.power ≤ 1 → s.dev.frozen = false →
       s.dev.frz.pending = none → s.dev.freezeFloods = [] → t.dev.frz.pending = some (s.dev.beat, fcPin, true)) ∧
     ((s.dev.get Reg.FRZ_CTRL_PIN_ACTION = 1 ∨ s.dev.get Reg.FRZ_CTRL_PIN_ACTION = 2) → s.dev.frozen = true →
       t.dev.frz = s.dev.frz ∧ t.dev.get Reg.FRZ_COUNT_IGNORED =
         min Reg.FRZ_COUNT_IGNORED.max (s.dev.get Reg.FRZ_COUNT_IGNORED + 1))) ∧
   (∀ s : State, s.dev.pins.freezeArmed = false → exec .freezePin s = .next (s.withDev
     { s.dev with pins := { s.dev.pins with freezeN := false } })) ∧
   (∀ s : State, exec .freezeNHigh s = .next (s.withDev
     { s.dev with pins := { s.dev.pins with freezeN := true, freezeArmed := true } }))) ∧
  ((∀ (s : State) (b cause : Nat) (loc : Bool), s.dev.freezeDue = some (b, cause, loc) → s.dev.frozen = false → cause < 4 →
     s.dev.boot.phase = .run → s.dev.power ≤ 1 → s.dev.unlocked = [] → ∃ t, exec .freezeEffect s = .next t ∧
       t.dev.frozen = true ∧ t.dev.get Reg.FRZ_STATUS_CAUSE = cause ∧ t.dev.get Reg.FRZ_STATUS_LOCAL = b2n loc ∧
       t.dev.get Reg.FRZ_STATUS_FREEZE_BEAT = s.dev.beat % 2 ^ 32 ∧ t.dev.frz.pending = none ∧
       t.dev.frz.wasRunning = decide (s.dev.js = jsRunning) ∧ t.dev.mem = s.dev.mem ∧ t.dev.tags = s.dev.tags ∧
       t.dev.bench = s.dev.bench ∧ t.dev.chans = s.dev.chans ∧ t.dev.fences = s.dev.fences ∧ t.dev.ops = s.dev.ops ∧
       t.dev.arith = s.dev.arith) ∧
   (∀ (s : State) (b : Nat), s.dev.frz.thawAt = some b → s.dev.boot.phase = .run → s.dev.get Reg.FRZ_STATUS_FROZEN = 1 →
     b ≤ s.dev.aonBeat → s.dev.aonBeat < 2 ^ 64 → s.dev.testing = none → ∃ t, exec .thawTakeEffect s = .next t ∧ t.dev.frozen = false ∧
       t.dev.frz.thawAt = none ∧ t.dev.beat = s.dev.aonBeat ∧
       (s.dev.frz.wasRunning = true → t.dev.job.joinReady = true ∧ t.dev.job.joinKind = 2 ∧
         t.dev.job.joinPoll = some t.dev.nextJoinPoll) ∧ t.dev.mem = s.dev.mem ∧ t.dev.chans = s.dev.chans) ∧
   (∀ (s : State) (b : Nat), s.dev.frz.thawAt = some b → s.dev.aonBeat < b → exec .thawTakeEffect s = .next s) ∧
   (∀ s : State, s.dev.freezeDue = none → exec .freezeEffect s = .next s))

/-- The held entry that stamp order puts first takes the ring's next place, and WRITE_SEQ counts it; an entry that the match
fields pick counts in MATCHES. With none held nothing is written (21 R539, R542, R543). -/
def Obligations.LogEntriesAreWritten : Prop :=
  (∀ (s : State) (e : LogEntry), nextEntry s.dev.logHeld = some e →
    exec .logEntryWrite s = .next (s.withDev ((s.dev.ringEntry e).matchEntry e))) ∧
  (∀ (d : Dev) (e : LogEntry), SMap.get (fun _ => none) (d.ringEntry e).log (d.get Reg.LOG_STATUS_WRITE_SEQ % 16384) = some e ∧
    (d.ringEntry e).get Reg.LOG_STATUS_WRITE_SEQ = min Reg.LOG_STATUS_WRITE_SEQ.max (d.get Reg.LOG_STATUS_WRITE_SEQ + 1) ∧
    (d.ringEntry e).logHeld = d.logHeld.erase e ∧
    (∀ i, i ≠ d.get Reg.LOG_STATUS_WRITE_SEQ % 16384 →
      SMap.get (fun _ => none) (d.ringEntry e).log i = SMap.get (fun _ => none) d.log i)) ∧
  (∀ s : State, s.dev.logHeld = [] → exec .logEntryWrite s = .next s)

/-- The steward's measurements: RAIL_MW and PACKAGE_MW are averages over the measurements of the last 1 ms, RAIL_MV the
voltage now, and OVER is set, and counted, once the package power passes the limit and cleared once it falls to 99 % of it
(18 R491). A sensor at its warning threshold raises THERM_WARN until it has fallen 2 °C below it (18 R498). A sensor that
reaches its trip point stops the device: THERMTRIP_N falls, both host links are lost, the boot phase goes back to the
always-on domain alone. A lower reading changes nothing (18 R499). A gated domain opens once its PLL is locked, and a domain
with no work gates unless GATE_IDLE is 0; ACTIVE becomes IDLE with the last of them and ACTIVE again with the first. A PLL
that locks lets its domains open (18 R492 to R495). -/
def Obligations.PowerIsManaged : Prop :=
  ((∀ (s : State) (rails : List (Nat × Nat)) (hist : List (List Nat)) (total limit : Nat), s.dev.stewardOn = true →
     rails.length = 10 → hist = (rails.map Prod.fst :: s.dev.railHist).take 100 →
     total = hist.foldl (fun s (l : List Nat) => s + l.foldl (· + ·) 0) 0 →
     limit = 250 * s.dev.get Reg.PWR_CTRL_POWER_LIMIT * hist.length → ∃ t, exec (.railMeasure rails) s = .next t ∧
       t.dev.railHist = hist ∧ t.dev.get Reg.PWR_STATUS_PACKAGE_MW = min 0xFFFFFFFF (total / hist.length) ∧
       (∀ i, i < 10 → t.dev.get (Reg.PWR_RAIL_RAIL_MV i) = min 0xFFFF (rails.getD i (0, 0)).2) ∧
       (limit < total → t.dev.get Reg.PWR_STATUS_OVER = 1) ∧ (100 * total ≤ 99 * limit → t.dev.get Reg.PWR_STATUS_OVER = 0) ∧
       (total ≤ limit → 99 * limit < 100 * total → t.dev.get Reg.PWR_STATUS_OVER = s.dev.get Reg.PWR_STATUS_OVER) ∧
       (t.dev.get Reg.LEAVE_COUNT_OVER_EVENTS = if limit < total ∧ s.dev.get Reg.PWR_STATUS_OVER = 0 then
         min Reg.LEAVE_COUNT_OVER_EVENTS.max (s.dev.get Reg.LEAVE_COUNT_OVER_EVENTS + 1)
         else s.dev.get Reg.LEAVE_COUNT_OVER_EVENTS)) ∧
   (∀ (s : State) (l : List Int), s.dev.stewardOn = true → l.length = sensors → ∃ t, exec (.tempSensorRead l) s = .next t ∧
     (∀ i, i < sensors → (i ∈ t.dev.hotSensors ↔
       if i ∈ s.dev.hotSensors then s.dev.warnAt i - 16 < l.getD i 0 else s.dev.warnAt i ≤ l.getD i 0)) ∧
     t.dev.get Reg.PWR_STATUS_THERM_WARN = b2n (!t.dev.hotSensors.isEmpty) ∧
     t.dev.get Reg.PWR_TEMP1_HUB = temp16 (hottest l 36 2))) ∧
  ((∀ (s : State) (k : Nat) (r : Int), s.dev.boot.phase ≠ .off → s.dev.pins.thermtripN = true → k < sensors →
     (if k < 46 then 960 else 840) ≤ r → ∃ t, exec (.thermalTrip k r) s = .next t ∧ t.dev.pins.thermtripN = false ∧
       t.dev.boot.phase = .aon ∧ t.dev.get Reg.HP_STATUS_LINK = 0 ∧ t.dev.mem = s.dev.mem ∧
       (∀ f, exec (.resetRelease) { t with fuses := f } = .next { t with fuses := f })) ∧
   (∀ (s : State) (k : Nat) (r : Int), r < (if k < 46 then 960 else 840) → exec (.thermalTrip k r) s = .next s)) ∧
  ((∀ (s : State) (n : Nat), s.dev.frozen = false → n ∈ s.dev.gated → domainUnit n ∉ s.dev.resting →
     domainUnit n ∉ s.dev.unlocked →
     exec (.clockGateOpen n) s = .next (s.withDev (let d := { s.dev with gated := s.dev.gated.filter (· ≠ n) }
       if s.dev.power = 1 then d.setPower 0 else d))) ∧
   (∀ (s : State) (n : Nat), s.dev.frozen = false → n < gateable → n ∉ s.dev.gated → s.dev.get Reg.PWR_CTRL_GATE_IDLE ≠ 0 →
     s.dev.domainBusy n = false →
     exec (.clockGateIdle n) s = .next (s.withDev (let d := { s.dev with gated := s.dev.gated ++ [n] }
       if s.dev.power = 0 ∧ s.dev.gated.length + 1 = gateable then d.setPower 1 else d))) ∧
   (∀ (s : State) (pll : Nat), exec (.pllLocked pll) s = .next (s.withDev
     { s.dev with unlocked := s.dev.unlocked.filter (· ≠ pll) })) ∧
   (∀ (s : State) (n : Nat), n ∉ s.dev.gated ∨ domainUnit n ∈ s.dev.resting ∨ domainUnit n ∈ s.dev.unlocked →
     exec (.clockGateOpen n) s = .next s))

/-- A scan of the test access port shifts out as many bits as it shifts in; what they are is open, and nothing else changes
(21 R536; log entry 9). SMBus block reads answer with a byte count, the data and a PEC over the whole transaction, and
change nothing else: STATUS the life-cycle state, power state, mode, SAFE_CAUSE and flags, TEMP the hottest die, POWER the
package power, IDENT the serial number (22 R559, R560; the byte order within the data and the PEC's polynomial are taken
from SMBus). SMBus WAKE leaves VAULT by a warm reset and is ignored in other states; RESET begins a warm reset; the Alert
Response Address is answered with the device's own address while ALERT_N is low, and not otherwise; any other command code
is NACKed (22 R559, R560). -/
def Obligations.SidePortsAnswer : Prop :=
  ((∀ (s : State) (n : Nat), s.dev.boot.phase ≠ .off →
     exec (.tapScan n) s = .next (s.withDev ((Dev.freeWords (ceilDiv n 64) s.dev).2.send (.tap (Dev.freeWords (ceilDiv n 64) s.dev).1)))) ∧
   (∀ (d : Dev) (n : Nat), (Dev.freeWords n d).1.length = n ∧ (Dev.freeWords n d).2 = { d with free := d.free + n })) ∧
  (∀ (s : State) (reply : Nat → List Byte → Dev), s.dev.boot.phase ≠ .off →
     reply = (fun code data => s.dev.send (.smb (byteOf data.length :: data ++
       [byteOf (pec ([byteOf (2 * s.dev.pins.smbAddr), byteOf code, byteOf (2 * s.dev.pins.smbAddr + 1), byteOf data.length] ++ data))]))) →
     exec .smbStatus s = .next (s.withDev (reply 0x01 ([s.dev.life, s.dev.power, s.dev.mode,
       s.dev.get Reg.FAULT_STATUS_SAFE_CAUSE,
       b2n (!s.dev.pins.thermtripN) + 2 * s.dev.get Reg.PWR_STATUS_THERM_WARN + 4 * b2n (s.dev.boot.phase = .noFirmware) +
         8 * b2n (s.dev.boot.phase = .run), 0, 0, 0].map byteOf))) ∧
     exec .smbTemp s = .next (s.withDev (reply 0x02 (toLe 2 (unsigned 16 s.dev.hottestDie)))) ∧
     exec .smbPower s = .next (s.withDev (reply 0x03 (toLe 4 (s.dev.get Reg.PWR_STATUS_PACKAGE_MW)))) ∧
     exec .smbIdent s = .next (s.withDev (reply 0x04 (toLe 8 s.fuses.serial.toNat)))) ∧
  ((∀ s : State, s.dev.boot.phase = .run → s.dev.power = 3 → exec .smbWake s = .next (s.withDev s.dev.warmReset)) ∧
   (∀ s : State, s.dev.power ≠ 3 → exec .smbWake s = .next s) ∧
   (∀ s : State, s.dev.boot.phase ≠ .off → exec .smbReset s = .next (s.withDev s.dev.warmReset)) ∧
   (∀ s : State, s.dev.alertLow = true → exec .smbAlertResponse s = .next (s.withDev (s.dev.send
     (.smb [byteOf (2 * s.dev.pins.smbAddr), byteOf (pec [0x19, byteOf (2 * s.dev.pins.smbAddr)])])))) ∧
   (∀ s : State, s.dev.alertLow = false → exec .smbAlertResponse s = .next s) ∧
   (∀ (s : State) (code : Nat), code ∉ [0x01, 0x02, 0x03, 0x04, 0x10, 0x11, 0x20, 0x21, 0x22] → s.dev.boot.phase ≠ .off →
     exec (.smbUnlistedCommand code) s = .next (s.withDev (s.dev.send .smbNack))))

/-- Recovery is accepted only where no firmware runs because boot failed, or in MANUFACTURE or SERVICE with no job, and
never in RETIRED: ERASE empties its slot, WRITE puts its bytes into the slot erased, ACTIVATE names the slot in the
directory and begins a warm reset. In every other case, and for the slot of the firmware that runs, each is NACKed and
changes nothing (22 R561). -/
def Obligations.Recovery : Prop :=
  (∀ (s : State) (slot : Nat), s.dev.recoveryOk = true → slot ≤ 1 → s.dev.slotRuns slot = false →
    (∃ t, exec (.recoveryErase slot) s = .next t ∧ t.dev.boot.erased = some slot ∧
      (∀ a n, fwSlot slot ≤ a → a + n ≤ fwSlot slot + fwSlotSize → t.dev.flashRead a n = List.replicate n 0xFF) ∧
      (∀ a n, a + n ≤ fwSlot slot ∨ fwSlot slot + fwSlotSize ≤ a → t.dev.flashRead a n = s.dev.flashRead a n)) ∧
    exec (.recoveryActivate slot) s = .next (s.withDev (s.dev.setDirectory slot).warmReset)) ∧
  (∀ (s : State) (slot off : Nat) (data : List Byte), s.dev.recoveryOk = true → s.dev.boot.erased = some slot →
    s.dev.slotRuns slot = false → data ≠ [] → data.length ≤ 240 → off + data.length ≤ fwSlotSize →
    exec (.recoveryWrite off data) s = .next (s.withDev (s.dev.flashWrite (fwSlot slot + off) data))) ∧
  (∀ d : Dev, d.recoveryOk = true ↔ (d.life ≠ 5 ∧
    (d.boot.phase = .noFirmware ∨ (d.boot.phase = .run ∧ (d.life = 1 ∨ d.life = 4) ∧ d.js = jsNone)))) ∧
  (∀ (s : State) (slot off : Nat) (data : List Byte), s.dev.boot.phase ≠ .off →
    (s.dev.recoveryOk = false ∨ s.dev.slotRuns slot = true) →
    exec (.recoveryErase slot) s = .next (s.withDev (s.dev.send .smbNack)) ∧
    exec (.recoveryActivate slot) s = .next (s.withDev (s.dev.send .smbNack)) ∧
    (s.dev.recoveryOk = false → exec (.recoveryWrite off data) s = .next (s.withDev (s.dev.send .smbNack))))

/-- The always-on domain comes up with the address straps latched, the log at SEQ 0 and nothing else of what was before but
the flash; a release from reset clears the scratchpads, takes LC_STATUS from the fuses and the commit record from its
copies, and at a power-up forgets memory. A cellar that does not train in time puts the device in Safe with FLOOR_FAILED (22
R552, R553, R559). The boot ROM completes interrupted fuse steps, runs the directory's slot or, where its image does not
verify, the other one as a fallback, raises the fused rollback count to its security version, and shows version, slot and
fallback in LC_STATUS. With no image that verifies no firmware runs (19 R506, R510). A fall of PWRGOOD resets the device as
a warm reset does, and its next rise is a power-up; with the rails off nothing but the flash and the fuses remains (22 R555,
18 R495). -/
def Obligations.PowerUpAndBoot : Prop :=
  ((∀ (s : State) (straps : Nat), s.dev.boot.phase = .off → ∃ t, exec (.aonPowerOn straps) s = .next t ∧
     t.dev.boot.phase = .aon ∧ t.dev.boot.powerUp = true ∧ t.dev.pins.smbAddr = 0x58 + straps % 8 ∧
     t.dev.pins.thermtripN = true ∧ t.dev.get Reg.LOG_STATUS_WRITE_SEQ = 0 ∧ t.dev.flash = s.dev.flash ∧ t.dev.mem = [] ∧
     t.dev.life = s.fuses.life ∧ t.fuses = s.fuses) ∧
   (∀ (s : State), s.dev.boot.phase = .aon → s.dev.pins.thermtripN = true → ∃ t, exec .resetRelease s = .next t ∧
     t.dev.boot.phase = .released ∧ t.dev.pins.resetN = true ∧ t.dev.js = (if s.dev.boot.powerUp then jsNone else s.dev.js) ∧
     t.dev.get Reg.LC_STATUS_ROLLBACK = s.fuses.rollback % 2 ^ 8 ∧
     (∀ b off, b < 144 → off < spSize → Memory.read t.dev.mem (spBase b + off) = 0) ∧
     (s.dev.boot.powerUp = true → ∀ k, k < cellarEnd → Memory.read t.dev.mem k = Memory.read [] k) ∧
     (s.dev.boot.powerUp = false → ∀ k, k < cellarEnd → Memory.read t.dev.mem k = Memory.read s.dev.mem k)) ∧
   (∀ (s : State) (k : Nat), s.dev.boot.phase = .released → s.dev.boot.powerUp = true → k < 8 → k ∉ s.dev.boot.trainTimeout →
     s.dev.js = jsNone → ∃ t, exec (.cellarTrainTimeout k) s = .next t ∧ t.dev.get Reg.FAULT_STATUS_SAFE = 1 ∧
       (t.dev.get Reg.FAULT_STATUS_SAFE_CAUSE).testBit scFloor = true)) ∧
  ((∀ (s : State), s.dev.boot.phase = .released → ∃ t, exec .bootRom s = .next t ∧
     (∀ (slot : Nat) (img : FwImage) (back : Bool),
       (s.dev.fuseStatus s.fuses.complete).bootSlot s.fuses.complete = some (slot, img, back) → slot ≤ 1 →
       t.dev.boot.phase = .run ∧ t.dev.boot.fwDigest = img.digest ∧
       t.fuses = { s.fuses.complete with rollback := max s.fuses.complete.rollback img.security } ∧
       t.dev.get Reg.LC_STATUS_BOOT_SLOT = slot ∧ t.dev.get Reg.LC_STATUS_SLOT_FALLBACK = b2n back ∧
       t.dev.get Reg.LC_STATUS_FW_VERSION = img.version % 2 ^ 32 ∧ t.dev.mem = s.dev.mem) ∧
     ((s.dev.fuseStatus s.fuses.complete).bootSlot s.fuses.complete = none →
       t.dev.boot.phase = .noFirmware ∧ t.fuses = s.fuses.complete ∧ t.dev.serving = false)) ∧
   (∀ (d : Dev) (f : Fuses) (a : Nat), d.directory.2.1 = a →
     d.bootSlot f = (match d.verifyImage f.rollback (d.slotImage a) with
       | some img => some (a, img, false)
       | none => (d.verifyImage f.rollback (d.slotImage (1 - a))).map (fun img => (1 - a, img, true)))) ∧
   (∀ (d : Dev) (r : Nat) (l : List Byte), (d.verifyImage r l).all (fun img => decide (r ≤ img.security)) = true)) ∧
  ((∀ s : State, s.dev.boot.phase ≠ .off → exec .pwrgoodFall s = .next (s.withDev
     { s.dev.warmReset with pins := { s.dev.warmReset.pins with pwrgood := false, resetN := false }
                            boot := { s.dev.warmReset.boot with powerUp := true } })) ∧
   (∀ s : State, ∃ t, exec .powerOff s = .next t ∧ t.fuses = s.fuses ∧ t.dev.flash = s.dev.flash ∧ t.dev.boot.phase = .off ∧
     t.dev.mem = [] ∧ t.dev.regs = [] ∧ t.dev.log = [] ∧ t.dev.ops = [] ∧ t.dev.boot.service = false))

/-- A frame on a host port that is down is not heard; one that finds no room in the receive buffer, or that fails a check,
is dropped and counted; a Smiper datagram is counted, dropped where R401 says so, and else served by its opcode's row, with
the frame's sender as the destination of its reply (14 R384 to R391, 15 R401, R402). Requests to the port's own addresses
are answered to their sender with the Ethernet header turned round, where the answer is no longer than MAX_FRAME: ARP
requests, neighbour solicitations and echo requests; the frame is counted (14 R385 to R387). A host link comes up on a port
that exists, with MODE and MAX_FRAME as last written, and goes down with the loss counted; both are logged, and a loss
changes no job, operation, channel, lattice port or memory (14 R392, R393, R398). -/
def Obligations.HostFrames : Prop :=
  (∀ (s : State) (port : Nat) (l : List Byte),
     (s.dev.hostHears port = false → exec (.hostFrameReceive port l) s = .next s) ∧
     (s.dev.hostHears port = true → 0x400000 < s.dev.buffered + l.length →
       exec (.hostFrameReceive port l) s = .next (s.withDev (s.dev.inc Reg.HP_COUNT1_BUFFER_DROPS))) ∧
     (s.dev.hostHears port = true → s.dev.buffered + l.length ≤ 0x400000 →
       (s.dev.frameIs port l = .dropped →
         exec (.hostFrameReceive port l) s = .next (s.withDev (s.dev.inc Reg.HP_COUNT0_FRAMES_DROPPED))) ∧
       (∀ src p, s.dev.frameIs port l = .smiper src p → packetOf src p = none →
         exec (.hostFrameReceive port l) s =
           .next (s.withDev ((s.dev.inc Reg.HP_COUNT0_FRAMES_IN).inc Reg.SM_COUNT0_DROPPED))) ∧
       (∀ src p op h w c, s.dev.frameIs port l = .smiper src p → packetOf src p = some (op, h, w) → cmdOf op = some c →
         h.src = src ∧ exec (.hostFrameReceive port l) s = (s.withDev (s.dev.inc Reg.HP_COUNT0_FRAMES_IN)).cmd c h w) ∧
       (s.dev.frameIs port l = .quiet ∨ s.dev.frameIs port l = .ptp →
         exec (.hostFrameReceive port l) s = .next (s.withDev (s.dev.inc Reg.HP_COUNT0_FRAMES_IN))))) ∧
  (∀ (s : State) (port : Nat) (l f : List Byte), s.dev.hostHears port = true → s.dev.buffered + l.length ≤ 0x400000 →
     (∀ a b, s.dev.frameIs port l = .arp a b → (s.dev.inc Reg.HP_COUNT0_FRAMES_IN).answerFrame port l (.arp a b) = some f →
       f.length ≤ s.dev.get Reg.HP_CTRL_MAX_FRAME →
       exec (.arpRequest port l) s = .next (s.withDev ((s.dev.inc Reg.HP_COUNT0_FRAMES_IN).send (.frame port f)))) ∧
     (∀ a b, s.dev.frameIs port l = .solicitation a b →
       (s.dev.inc Reg.HP_COUNT0_FRAMES_IN).answerFrame port l (.solicitation a b) = some f →
       f.length ≤ s.dev.get Reg.HP_CTRL_MAX_FRAME →
       exec (.neighbourSolicitation port l) s = .next (s.withDev ((s.dev.inc Reg.HP_COUNT0_FRAMES_IN).send (.frame port f)))) ∧
     (∀ v a b, s.dev.frameIs port l = .echo v a b →
       (s.dev.inc Reg.HP_COUNT0_FRAMES_IN).answerFrame port l (.echo v a b) = some f →
       f.length ≤ s.dev.get Reg.HP_CTRL_MAX_FRAME →
       exec (.echoRequest port l) s = .next (s.withDev ((s.dev.inc Reg.HP_COUNT0_FRAMES_IN).send (.frame port f))))) ∧
  ((∀ (s : State) (p : Nat), s.dev.boot.phase = .run → s.dev.power ≤ 2 → p ≤ 1 →
     (s.dev.takeStaged hpLo hpHi hpLater).hostPortExists p = true →
     ((s.dev.takeStaged hpLo hpHi hpLater).get Reg.HP_STATUS_LINK).testBit p = false → ∃ t, exec (.hostLinkUp p) s = .next t ∧
       t.dev.get Reg.HP_STATUS_LINK = (s.dev.takeStaged hpLo hpHi hpLater).get Reg.HP_STATUS_LINK + 2 ^ p ∧
       t.dev.logHeld.length = s.dev.logHeld.length + 1) ∧
   (∀ (s : State) (p : Nat), p ≤ 1 → (s.dev.get Reg.HP_STATUS_LINK).testBit p = true → ∃ t, exec (.hostLinkDown p) s = .next t ∧
     (t.dev.get Reg.HP_STATUS_LINK).testBit p = false ∧ t.dev.logHeld.length = s.dev.logHeld.length + 1 ∧
     t.dev.get Reg.HP_COUNT1_LINK_LOSSES = min Reg.HP_COUNT1_LINK_LOSSES.max (s.dev.get Reg.HP_COUNT1_LINK_LOSSES + 1) ∧
     t.dev.mem = s.dev.mem ∧ t.dev.job = s.dev.job ∧ t.dev.js = s.dev.js ∧ t.dev.ops = s.dev.ops ∧ t.dev.step = s.dev.step ∧
     t.dev.chans = s.dev.chans ∧ t.dev.lat = s.dev.lat) ∧
   (∀ (s : State) (p : Nat), (s.dev.get Reg.HP_STATUS_LINK).testBit p = false → exec (.hostLinkDown p) s = .next s))

/-- PTP messages of the unit's domain: a one-step Sync of the time transmitter is measured at once, a two-step one waits for
its Follow_Up; a Delay_Req is noted and sent; a Delay_Resp to it halves the way there and back; an Announce makes its sender
the time transmitter where there is none or it is better; without Sync the state is HOLDOVER and the increment stays (14
R395, R396). The servo steps the time base only where the offset exceeds 1 ms, by the offset, and counts and logs the step;
a smaller offset leaves the time base and steers the increment to a value within 200 ppm of nominal that is otherwise free
(log entry 50). LOCKED takes sixteen offsets in a row within 50 ns. No beat moves (14 R396). -/
def Obligations.TimeIsSteered : Prop :=
  ((∀ (s : State) (m : PtpMsg), s.dev.ptpOn m = true → s.dev.time.transmitter = some m.source →
     s.dev.get Reg.HP_STATUS_PTP_STATE = 1 ∨ s.dev.get Reg.HP_STATUS_PTP_STATE = 2 →
     exec (.ptpSync m) s = .next (s.withDev (if m.twoStep then { s.dev with time := { s.dev.time with sync := some m } }
       else s.dev.measureSync ((m.time : Int) + m.correction) m.stamp))) ∧
   (∀ (s : State) (m q : PtpMsg), s.dev.ptpOn m = true → s.dev.time.sync = some q → q.source = m.source → q.seqId = m.seqId →
     q.domain = m.domain →
     exec (.followUp m) s = .next (s.withDev (s.dev.measureSync ((m.time : Int) + q.correction + m.correction) q.stamp))) ∧
   (∀ (s : State) (m : PtpMsg), s.dev.ptpOn m = true → s.dev.time.transmitter ≠ none →
     exec (.delayReq m) s = .next (s.withDev
       (({ s.dev with time := { s.dev.time with delayReq := some (m.seqId, m.stamp) } } : Dev).send (.delayReq m.domain m.seqId)))) ∧
   (∀ (s : State) (m : PtpMsg) (t1 t2 t3 : Nat), s.dev.ptpOn m = true → s.dev.time.transmitter = some m.source →
     s.dev.time.delayReq = some (m.seqId, t3) → s.dev.time.lastSync = some (t1, t2) →
     exec (.delayResp m) s = .next (s.withDev { s.dev with time := { s.dev.time with
       delayReq := none
       delay := (((t2 : Int) - t1) + ((m.time : Int) - m.correction - t3)) / 2 } })) ∧
   (∀ (s : State) (m : PtpMsg), s.dev.ptpOn m = true → s.dev.time.transmitter = none →
     exec (.announce m) s = .next (s.withDev
       { s.dev with time := { s.dev.time with transmitter := some m.source, quality := m.quality } })) ∧
   (∀ (s : State) (m : PtpMsg) (other : Nat), s.dev.ptpOn m = true → s.dev.time.transmitter = some other → other ≠ m.source →
     better m.quality s.dev.time.quality = true → ∃ t, exec (.announce m) s = .next t ∧
       t.dev.time.transmitter = some m.source ∧ t.dev.time.quality = m.quality ∧ t.dev.regs = s.dev.regs) ∧
   (∀ s : State, s.dev.get Reg.HP_STATUS_PTP_STATE = 1 ∨ s.dev.get Reg.HP_STATUS_PTP_STATE = 2 → ∃ t,
     exec .ptpHoldover s = .next t ∧ t.dev.get Reg.HP_STATUS_PTP_STATE = 3 ∧ t.dev.time.inc = s.dev.time.inc)) ∧
  ((∀ (d : Dev) (o : Int), 1000000 < o.natAbs →
     (d.servo o).get Reg.HP_TIME_TIME_NS = unsigned 64 ((d.get Reg.HP_TIME_TIME_NS : Int) - o) ∧
     (d.servo o).get Reg.HP_COUNT1_TIME_STEPS = min Reg.HP_COUNT1_TIME_STEPS.max (d.get Reg.HP_COUNT1_TIME_STEPS + 1) ∧
     (d.servo o).get Reg.HP_STATUS_PTP_STATE = 1 ∧ (d.servo o).time.inc = d.time.inc ∧ (d.servo o).beat = d.beat) ∧
   (∀ (d : Dev) (o : Int), o.natAbs ≤ 1000000 →
     (d.servo o).get Reg.HP_TIME_TIME_NS = d.get Reg.HP_TIME_TIME_NS ∧
     incNominal - incSteer ≤ (d.servo o).time.inc ∧ (d.servo o).time.inc ≤ incNominal + incSteer ∧
     (d.servo o).get Reg.HP_STATUS_PTP_STATE = (if o.natAbs ≤ 50 ∧ 15 ≤ d.time.good then 2 else 1) ∧ (d.servo o).beat = d.beat))

/-- The bench sequencer reads the record at its place: an end mark ends the list, a record goes to its engine's queue, a
full queue holds it, a RAGGED_LOOP or a SELECT is taken in hand, and a type that no list takes stops the list with a
schedule fault (03 R566). A RAGGED_LOOP that passes its checks and finds its group table reads it, empties its slots where
it consumes them, and makes its issues as far as the queues take them; with none left the sequencer reads on; one that fails
its checks stops the list (05 R171, R172). -/
def Obligations.RecordsAreFetched : Prop :=
  (∀ (s : State) (b pos : Nat) (skip : List (Nat × Nat)) (w : List W64), b < 144 → s.dev.runs = true →
     (s.dev.bn b).seq = .running → afterSkip (s.dev.bn b).pos (s.dev.bn b).skip = (pos, skip) →
     s.dev.fetch ((s.dev.bn b).list + 64 * pos) 8 = .words w →
     let d₀ := s.dev.readJob ((s.dev.bn b).list + 64 * pos) 64
     (recType w = 0 → exec (.recordFetch b) s = .next (s.withDev (d₀.onBn b (fun x => { x with seq := .idle })))) ∧
     (recType w ≠ 0 →
       let d := d₀.onBn b (fun x => { x with pos := pos + 1, skip := skip, seq := .running })
       (queueOf w = none → exec (.recordFetch b) s = .next (s.withDev (seqFault d b (recId w) 0))) ∧
       (recType w = 0x30 →
         exec (.recordFetch b) s = .next (s.withDev (d.onBn b (fun x => { x with seq := .ragged w })))) ∧
       (recType w = 0x70 → d.selOk w false (s.dev.bn b).list (pos + 1) = true →
         exec (.recordFetch b) s = .next (s.withDev (d.onBn b (fun x => { x with seq := .selFence w })))) ∧
       (∀ q, queueOf w = some q → q ≠ 20 → benchQueueLen d b q < 8 →
         exec (.recordFetch b) s = .next (s.withDev (benchEnqueue d b q ((s.dev.bn b).list + 64 * pos) w))) ∧
       (∀ q, queueOf w = some q → q ≠ 20 → 8 ≤ benchQueueLen d b q →
         exec (.recordFetch b) s = .next (s.withDev (d.onBn b (fun x => { x with seq := .full { words := w } q })))))) ∧
  (∀ (s : State) (b : Nat) (w : List W64), b < 144 → s.dev.finishes = true → (s.dev.bn b).seq = .ragged w →
     ((s.dev.bn b).raggedSt = none →
       (∀ code, ragCheck s.dev b w = some code →
         exec (.raggedLoop b) s = .next (s.withDev (seqFault s.dev b (ragId w) 0))) ∧
       (let gt := (fld (wd w 1) 40 18, 8 * fld (wd w 0) 55 47)
        let slots := if fld (wd w 0) 18 17 = 0 then [] else slotRun b gt.1 gt.2
        ragCheck s.dev b w = none → s.dev.slotsReady slots true →
        s.dev.badRanges b (ragReads s.dev b w) = none →
        let d₁ := s.dev.correctReads b (ragReads s.dev b w)
        let d₂ := if fld (wd w 0) 18 17 = 2 then d₁.setTags slots false else d₁
        let todo := ((ragTable d₂ b w).zipIdx).flatMap (fun p =>
          (ragTemplates d₂ b w).flatMap (ragIssues d₂ b w p.2 p.1.1 p.1.2))
        exec (.raggedLoop b) s = .next (s.withDev (ragIssue (todo.length + 1)
          (d₂.onBn b (fun x => { x with raggedWait := none, raggedSt := some ⟨w, todo, 0, false⟩ })) b)))) ∧
     (∀ r, (s.dev.bn b).raggedSt = some r → r.todo = [] → exec (.raggedLoop b) s =
       .next (s.withDev (s.dev.onBn b (fun x => { x with raggedSt := none, seq := .running })))))

/-- The lane row: a record that fails its checks stops the list; where no meeting of ports stops the record (log entry 51) and
its words hold no error, the last row of its last chunk is accumulated in every pass, its source slots are emptied where the
record consumes, its drained rows follow, in the places of the drain ring for a batch, and the record ends; a batch takes one row
at a time, moving its stream ring, and closes at ROWS rows or at its timeout; a COMPACTED record runs on the packets of the
COMPACT record that agrees with it, and both are refused where they differ (03 R83, R85, R91, R94, R95, 04 R130). The rows
LANE_ROW_RECORD, BATCH_ROW_ARRIVE, BATCH_TIMEOUT and COMPACT complete so. -/
def Obligations.LaneRowRuns : Prop :=
  ∀ (s : State) (b : Nat), b < 144 → s.dev.finishes = true →
    (∀ it rest, s.dev.js = jsRunning → (s.dev.bn b).lane.cur = none → (s.dev.bn b).lane.queue = it :: rest →
      (s.dev.bn b).lane.drains = [] → (s.dev.bn b).lane.pre = none →
      let h := laneTakeHead s.dev b it
      ∀ it', h.2 = .ok it' → lrCheck h.1 b true (codeHead h.1 b it') it'.words ≠ none →
        exec (.laneRowRecord b) s = .next (s.withDev (seqFault (lanePop h.1 b) b (recId it'.words) 0))) ∧
    (∀ r, (s.dev.bn b).lane.cur = some r →
      (∀ r' ps rest, r.closed = true → r.loaded = true → r.chunk + 1 = lrChunks r.item.words →
        (if lrSparse r.item.words = 2 then rowPackets (s.dev.bn b).lane.packets else some ([], (s.dev.bn b).lane.packets)) =
          some (ps, rest) → (lrSparse r.item.words = 2 → (s.dev.bn b).lane.chunkMasks ≠ []) → (s.dev.bn b).lane.drains = [] →
        let m := laneMeet s.dev b
        let a := laneAhead m.1 b r
        let reads := rowReads a b r'
        m.2 = none → (m.1.bn b).lane = (s.dev.bn b).lane → (a.bn b).lane.cur = some r' → r'.row + 1 = r'.rows →
        (a.bn b).lane.drains = [] → r'.item.words = r.item.words → r'.chunk = r.chunk → r'.loaded = true → r'.closed = true →
        a.tagsClean (r'.slots a b r'.row) → (r'.chunk = 0 → a.tagsAre (r'.slots a b r'.row) true = true) →
        a.badRanges b reads.1 = none → a.badRanges b reads.2 = none →
        let w := r'.item.words
        let d₁ := a.correctReads b (reads.1 ++ reads.2)
        let d₂ := if ps.all (fun p => p.rowValid) then
          rowChunk d₁ b (codeHead d₁ b r'.item) w r'.file (r'.pos r'.row) r'.row r'.chunk ps else d₁
        let d₃ := if lrStreamFe w = 2 then d₂.setTags (r'.slots a b r'.row) false else d₂
        let re := if lrBatch w then (r'.dPos + r'.row) % 2 ^ lrDRing w else r'.row
        let im := if lrBatch w then (r'.dPos + r'.rows + r'.row) % 2 ^ lrDRing w else 64 + r'.row
        let more := if ps.all (fun p => p.rowValid) then drainsOf w (d₃.bn b).lane.starts r'.row re im else []
        let d₄ := drainRun 2 (d₃.onLane b (fun l => { l with packets := rest, drains := more.foldl (fun l x => drainInsert x l) l.drains })) b
        let r'' : LaneRun := { r' with row := 0, chunk := r'.chunk + 1, wait := none, loaded := r'.ahead, ahead := false }
        (d₄.bn b).lane.cur.isSome = true →
        exec (.laneRowRecord b) s = .next (s.withDev (drainRun 256 (laneFinish (laneNextChunk d₄ b r') b r'') b))) ∧
      (r.closed = false → s.dev.slotsReady (r.slots s.dev b r.rows) true →
        let r' : LaneRun := { r with rows := r.rows + 1, wait := none }
        let d := (lanePut s.dev b r').onLane b (fun l => { l with sRing := (r.sPos + (r.rows + 1)) % 2 ^ lrSRing r.item.words })
        exec (.batchRowArrive b) s = .next (s.withDev
          (if r.rows + 1 = lrRows r.item.words then batchClose d b r' (Reg.LR_COUNT1_BATCH_FULL b) else d))) ∧
      (r.closed = false → r.rows ≠ 0 → lrTimeout r.item.words ≠ 0 → exec (.batchTimeout b) s =
        .next (s.withDev (batchClose s.dev b r (Reg.LR_COUNT1_BATCH_TIMEOUTS b)))) ∧
      (lrSparse r.item.words = 2 → r.chunk = 0 → r.row = 0 → (s.dev.bn b).lane.chunkMasks = [] →
        (∀ c rest p, s.dev.js = jsRunning → (s.dev.bn b).awl.cur = none → (s.dev.bn b).awl.queue = c :: rest →
          recType c.words = 0x20 → compactAgrees s.dev b r.item.words c = true → s.dev.EngRuns b 0 c rest p →
          exec (.compact b) s = .next (s.withDev (laneRun ((s.dev.engStarted b 0 c rest).engWorked b 0 c.words p) b))) ∧
        (∀ c, oldestCompact (s.dev.bn b) = some c → compactAgrees s.dev b r.item.words c = false →
          exec (.compact b) s = .next (s.withDev
            (seqFault ((laneStop s.dev b).onBn b (fun x => { x with awl := match x.awl.cur with
              | some _ => { x.awl with cur := none }
              | none => { x.awl with queue := x.awl.queue.erase c } })) b (recId r.item.words) 0)))))

/-- A record at the head of the awl's, the last's or the vector engine's queue that passes its checks, finds its leave and
its tags, no uncorrectable word, and no meeting that stops it (log entry 51) does its work, makes its tag changes and leaves
the engine: so each engine row but COMPACT completes. One that fails its checks stops the bench's list with a schedule fault;
one whose leave is not held waits, and its wait is counted (04 R114, R150, 05 R152, 06 R198, 07 R223, 11 R307, 18 R487). -/
def Obligations.EngineRecordsRun : Prop :=
  ∀ (s : State) (b e : Nat) (it : Item) (rest : List Item) (i : Instr), b < 144 → s.dev.js = jsRunning → s.dev.paused = false →
    s.dev.get Reg.STEP_STATE_PHASE ≠ 2 → EngineRow b it.words i e → ((s.dev.bn b).eng e).cur = none →
    ((s.dev.bn b).eng e).queue = it :: rest → (e = 2 → (s.dev.bn b).last.cur = none) →
    s.dev.badRanges b (engLatch e s.dev b it).1 = none →
    (∀ x, enginePlan e (s.dev.engNamed b e it) b (engLatch e s.dev b it).2 = .error x → exec i s = .next (s.withDev
      (seqFault ((s.dev.engNamed b e it).onEng b e (fun q => { q with queue := rest })) b (recId it.words) 0))) ∧
    (∀ p, (enginePlan e (s.dev.engNamed b e it) b (engLatch e s.dev b it).2).isOk = true →
      enginePlan e (s.dev.engTaken b e it rest) b (engLatch e s.dev b it).2 = .ok p →
      leaveOk (s.dev.engTaken b e it rest) b (leaveUnits (s.dev.engTaken b e it rest) (engLeave it.words)) = false →
      exec i s = .next (s.withDev ((s.dev.engTaken b e it rest).addCycles (Reg.BENCH_LEAVE_LEAVE_WAIT_CYCLES b)))) ∧
    (∀ p, s.dev.EngRuns b e it rest p →
      exec i s = .next (s.withDev ((s.dev.engStarted b e it rest).engWorked b e it.words p)))

/-- A SELECT whose fence is released reads the recompute maps, counts its path and goes on at the path's records, skipping
the other paths; a bench asks for the path's slip (11 R319 to R321, R325). -/
def Obligations.SelectsChoosePaths : Prop :=
  (∀ (s : State) (b : Nat) (w : List W64) (own ck : Bool), b < 144 → s.dev.runs = true →
    (s.dev.bn b).seq = .selFence w ∨ (s.dev.bn b).seq = .selMaps w → (s.dev.fence (selFence w)).released = true →
    s.dev.recomputeAny (selGroup w) (onesOf 8 (selFloors w)) = .value own →
    (if selCkptEn w then s.dev.recomputeAny (selCkpt w) (onesOf 8 (selFloors w)) else .value false) = .value ck →
    let path := selPath (selForce w) (selCkptEn w) own ck
    let d₁ := (s.dev.readMaps w).countPath b path w
    let d := d₁.onBn b (fun x => { x with
      seq := .running, pos := (selGoes w path (d₁.bn b).pos).1, skip := (selGoes w path (d₁.bn b).pos).2.toList ++ x.skip })
    let beats := if path = 1 then selSlipB w else if path = 2 then selSlipC w else 0
    exec (.select b) s = .next (s.withDev (if beats = 0 then d else d.overrun b beats (selId w)))) ∧
  (∀ (s : State) (k pos : Nat) (skip : List (Nat × Nat)) (w : List W64) (own ck : Bool), k < 8 → s.dev.runs = true →
    s.dev.get (Reg.ATTIC_CTRL_EN k) = 1 → (s.dev.floor k).stash = .running → (s.dev.floor k).stashCur = none →
    afterSkip (s.dev.floor k).stashPos (s.dev.floor k).stashSkip = (pos, skip) →
    let d := s.dev.onFloor k (fun f => { f with stashPos := pos, stashSkip := skip })
    d.fetch ((s.dev.floor k).stashList + 64 * pos) 8 = .words w → recType w = 0x70 →
    d.selOk w true (s.dev.floor k).stashList (pos + 1) = true → (d.fence (selFence w)).released = true →
    d.recomputeAny (selGroup w) (onesOf 8 (selFloors w)) = .value own →
    (if selCkptEn w then d.recomputeAny (selCkpt w) (onesOf 8 (selFloors w)) else .value false) = .value ck →
    let path := selPath (selForce w) (selCkptEn w) own ck
    exec (.select (144 + k)) s = .next (s.withDev
      ((((d.readJob ((s.dev.floor k).stashList + 64 * pos) 64).readMaps w).countPath (144 + k) path w).onFloor k (fun f => { f with
      stashPos := (selGoes w path (pos + 1)).1, stashSkip := (selGoes w path (pos + 1)).2.toList ++ f.stashSkip, stash := .running }))))

/-- A residue mismatch of a lane withholds its contribution: the rerun's cycles are counted and it is reported, LOCAL where
the rerun agrees, and ABORT with the lane suspect and the record stopped where it does not; another unit's output is formed
again in the same way (17 R467 to R471). A record that waits for its source slots goes on to its destination and its work once
they are full, unless a meeting stops it (log entry 51) or another port's access comes before it (07 R224); the lane row, a ragged
loop and a channel go on likewise. A wait longer than SLOT_TIMEOUT beats stops its record, its ragged loop or its descriptor
with a slot timeout (07 R223 to R225). -/
def Obligations.MismatchesAndTagWaits : Prop :=
  ((∀ (s : State) (b lane : Nat) (agrees : Bool) (r : LaneRun), b < 144 → lane < 256 → s.dev.finishes = true →
     (s.dev.bn b).lane.cur = some r → exec (.laneResidueMismatch b lane agrees) s = .next (s.withDev
       (((if agrees then s.dev else laneStop s.dev b).addCycles (Reg.INTEG_COUNT_RERUN_CYCLES b)).fault
         { kind := fkResidue, unit := b, recordId := recId r.item.words, lane := lane, site := lane, suspect := !agrees }
         (if agrees then dLocal else dAbort)))) ∧
   (∀ (s : State) (u : ReformUnit) (ok : Bool), reformUnitOk u = true → s.dev.frozen = false →
     let f := reformFault (match u with | .awl b => decide (engType s.dev b 0 = 0x26) | _ => false) u
     exec (.outputReform u ok) s = .next (s.withDev
       ((if f.unit < 152 then s.dev.addCycles (Reg.INTEG_COUNT_RERUN_CYCLES f.unit) else s.dev).fault
         { f with suspect := !ok } (if ok then dLocal else dAbort))))) ∧
  ((∀ (s : State) (b e : Nat) (r : EngRun) (w : Wait), b < 144 → e < 3 → s.dev.finishes = true →
     ((s.dev.bn b).eng e).cur = some r → r.phase = 1 → r.wait = some w →
     (s.dev.waitExpired w = true → exec (.slotTimeout (.engine b (e + 2))) s = .next (s.withDev
       ((engDrop s.dev b e).slotTimeout b b (engPort e r.item.words) (recId r.item.words) w))) ∧
     (s.dev.waitExpired w = false → exec (.slotTimeout (.engine b (e + 2))) s = .next s) ∧
     (∀ p, s.dev.rivals (.engine b (e + 2)) = [] → enginePlan e s.dev b r.item = .ok p →
       (s.dev.tagsClean (p.fullSlots b) → s.dev.tagsAre (p.fullSlots b) true = false →
         exec (.tagWaitSatisfied (.engine b (e + 2))) s = .next s) ∧
       (s.dev.EngEnds b e r.item.words p → exec (.tagWaitSatisfied (.engine b (e + 2))) s =
         .next (s.withDev (s.dev.engWorked b e r.item.words p))))) ∧
   (∀ (s : State) (b : Nat), b < 144 → s.dev.finishes = true →
     (s.dev.rivals (.engine b 0) = [] → exec (.tagWaitSatisfied (.engine b 0)) s = exec (.laneRowRecord b) s) ∧
     (s.dev.rivals (.engine b 1) = [] → exec (.tagWaitSatisfied (.engine b 1)) s = exec (.laneRowRecord b) s) ∧
     (s.dev.rivals (.engine b 5) = [] → exec (.tagWaitSatisfied (.engine b 5)) s = exec (.raggedLoop b) s) ∧
     (∀ r w, (s.dev.bn b).lane.cur = some r → r.wait = some w → s.dev.waitExpired w = true →
       exec (.slotTimeout (.engine b 0)) s =
         .next (s.withDev ((laneStop s.dev b).slotTimeout b b 0 (recId r.item.words) w))) ∧
     (∀ r l w, (s.dev.bn b).lane.drains = r :: l → r.wait = some w → s.dev.waitExpired w = true →
       exec (.slotTimeout (.engine b 1)) s = .next (s.withDev (((laneStop s.dev b).onLane b (fun l =>
         { l with drains := [] })).slotTimeout b b 2 (recId r.words) w))) ∧
     (∀ u w, (s.dev.bn b).seq = .ragged u → (s.dev.bn b).raggedWait = some w → s.dev.waitExpired w = true →
       exec (.slotTimeout (.engine b 5)) s = .next (s.withDev ((seqStop s.dev b).slotTimeout b b 4 (ragId u) w)))) ∧
   (∀ (s : State) (loc ch : Nat) (r : ChanRun), s.dev.netRuns = true → (s.dev.chan loc ch).cur = some r →
     (∀ u w k l, r.fly.find? (fun b => (b.wait.map s.dev.waitExpired).getD false) = some u → u.wait = some w → w.slots = k :: l →
       exec (.slotTimeout (.channel loc ch)) s = .next (s.withDev
         (((s.dev.onRun loc ch (ChanRun.lessBurst u.pos)).slotTimeout (k / 16384) loc 3 (dmId r.words) w).stopChan loc ch 5))) ∧
     (∀ w k l, (∀ u ∈ r.fly, u.wait = none) → r.wait = some w → w.slots = k :: l →
       (s.dev.waitExpired w = true → exec (.slotTimeout (.channel loc ch)) s = .next (s.withDev
         ((s.dev.slotTimeout (k / 16384) loc 3 (dmId r.words) w).stopChan loc ch 5))) ∧
       (s.dev.waitExpired w = false → exec (.slotTimeout (.channel loc ch)) s = .next s)) ∧
     (s.dev.rivals (.channel loc ch) = [] →
       (∀ p ∈ (s.dev.ownRetry loc ch).net.pkts, p.loc = loc → p.ch = ch → p.wait = none) →
       exec (.tagWaitSatisfied (.channel loc ch)) s = .next (s.withDev (s.dev.ownRetry loc ch)))))

/-- An awake scrubber with SCRUB_EN reads its next codeword or line and advances: a clean one, or one of a segment that
is being cleared, changes nothing else; a word
found correctable is counted and waits for its write-back; one found uncorrectable is counted and reported as a latent
error. A write-back clears the error of its word (07 R218, R220, 10 R294, R296). -/
def Obligations.ScrubbersRead : Prop :=
  (∀ (s : State) (k ch : Nat) (seen : Ecc), k < 8 → ch < 32 → s.dev.awake (4 + k) = true →
    s.dev.get (Reg.CELLAR_CTRL_SCRUB_EN k) = 1 →
    let pos := SMap.get (fun _ => 0) (s.dev.floor k).scrubPos ch
    let a := channelAddr k ch (64 * pos)
    let next := if pos + 1 = channelWords then 0 else pos + 1
    let e := s.dev.scrubbed a seen
    let d := if s.dev.clearing.contains (a / 2 ^ 30) ∨ e = 0 then s.dev
      else if e = 3 then ((s.dev.noteErr a 3).inc (Reg.CELLAR_ECC_UNCORRECTABLE k)).fault
        { kind := fkLatent, unit := 144 + k, addr := a } dLatent
      else (s.dev.noteErr a e).codewordRead a e
    let d' := d.onFloor k (fun f => { f with
      scrubPos := SMap.set (fun _ => 0) f.scrubPos ch next, dieCounts := if ch = 0 ∧ next = 0 then [] else f.dieCounts })
    exec (.cellarScrubRead k ch seen) s =
      .next (s.withDev (if ch = 0 ∧ next = 0 then d'.inc (Reg.CELLAR_DIE_PASSES k) else d'))) ∧
  (∀ (s : State) (k a : Nat), k < 8 → s.dev.awake (4 + k) = true → a ∈ (s.dev.floor k).writeBacks →
    SMap.get (fun _ => 0) s.dev.errs a ≠ 3 → ∃ t, exec (.cellarEccWriteback k a) s = .next t ∧
      SMap.get (fun _ => 0) t.dev.errs a = 0 ∧ a ∉ (t.dev.floor k).writeBacks ∧ t.dev.mem = s.dev.mem) ∧
  (∀ (s : State) (b bank : Nat), b < 144 → bank < 64 → s.dev.awake (b / 36) = true → s.dev.get (Reg.SP_CTRL_SCRUB_EN b) = 1 →
    let pos := SMap.get (fun _ => 0) (s.dev.bn b).scrubPtr bank
    let base := bank * 131072 + pos * 128
    let adv (d : Dev) : Dev :=
      let d := d.onBn b (fun x => { x with scrubPtr := SMap.set (fun _ => 0) x.scrubPtr bank ((pos + 1) % 1024) })
      if bank = 0 ∧ pos = 1023 then d.inc (Reg.SP_SCRUB_PASSES b) else d
    (s.dev.errIn (spBase b + base) 128).filter (fun e => e.2 = 3) = [] →
    exec (.scratchpadScrubRead b bank []) s = .next (s.withDev (adv s.dev)) ∧
    (∀ n, n < 16 → SMap.get (fun _ => 0) s.dev.errs (spBase b + (base + 8 * n)) ≠ 3 →
      exec (.scratchpadScrubRead b bank [(n, 1)]) s = .next (s.withDev (adv
        (((s.dev.noteErr (spBase b + (base + 8 * n)) 1).inc (Reg.SP_ECC_CORRECTED b)).onBn b (fun x =>
          if x.writeBacks.contains (base + 8 * n) then x else { x with writeBacks := x.writeBacks ++ [base + 8 * n] })))) ∧
      exec (.scratchpadScrubRead b bank [(n, 3)]) s = .next (s.withDev (adv
        ((((s.dev.noteErr (spBase b + (base + 8 * n)) 3).spLastFault b 3 6 (base + 8 * n)).inc
          (Reg.SP_ECC_UNCORRECTABLE b)).fault { kind := fkLatent, unit := b, addr := spBase b + (base + 8 * n) } dLatent))))) ∧
  (∀ (s : State) (b off : Nat), b < 144 → s.dev.awake (b / 36) = true → off ∈ (s.dev.bn b).writeBacks →
    SMap.get (fun _ => 0) s.dev.errs (spBase b + off) ≠ 3 → ∃ t, exec (.scratchpadEccWriteback b off) s = .next t ∧
      SMap.get (fun _ => 0) t.dev.errs (spBase b + off) = 0 ∧ off ∉ (t.dev.bn b).writeBacks ∧ t.dev.mem = s.dev.mem)

/-- The stash engine: a STASH whose descriptor passes its checks and whose group is not yet marked launches its copy into the ring and records its frame, and ends
by writing its directory entry and moving WRITE_POS, or, stopped at its limit, by marking its group for recomputation; a
group already marked is skipped; a RECALL of a valid entry launches the copy back and ends with it; a FREE pops the oldest
frame and moves CONSUME_POS (10 R303, R304). A stash or recall in progress ends once its channel has stopped: a completed
stash writes its entry as valid and moves WRITE_POS; one stopped at its limit writes it as not valid and sets its group's
bit of the map (10 R303, R304). Every row answers a next state under these conditions: stash, recall, free. -/
def Obligations.StashRecordsRun : Prop :=
  (∀ (s : State) (k : Nat) (w : List W64) (a : Attic), (s.dev.floor k).stashCur = none → (stashHead s.dev k).2 = some w →
     let d := (stashHead s.dev k).1
     (stWait w = true → (d.fence (stFence w)).released = true) →
     (recType w = 0x60 → stBytes w ≠ 0 → stFe w ≤ 2 → d.attic k (stEntry w) (stGroup w) { map := true } = .found a →
       let d := d.readAttic a { map := true }
       let desc := stashDesc w false (stAddr w) 0 (a.ring + a.writePos % 2 ^ a.ringLog2) a.ringLog2 (stBytes w) (a.ctrl + 24)
       dmCheck (144 + k) 7 desc (Shape.ofWords []) (Shape.ofWords []) = none →
       (bit a.map (stGroup w % 64) = true → stFirst w = false →
         exec (.stash k) s = .next (s.withDev (stashEnd (stashConsume (d.inc (Reg.ATTIC_COUNT_SKIPPED k)) w 0) k w))) ∧
       (bit a.map (stGroup w % 64) = false ∨ stFirst w = true →
         let first := d.jobWrites (144 + k) (stId w)
           (if stFirst w then [(a.mapAddr, putMap a.map (stGroup w) false)] else [])
         let pushed := if stNewFrame w then first.1.onFloor k (fun f => { f with frames := f.frames ++ [a.writePos] })
           else first.1
         let limit := pushed.jobWrites (144 + k) (stId w) [(a.ctrl + 24, w64 (a.consumePos + 2 ^ 64 - a.writePos % 2 ^ 64))]
         first.2 = true → (stNewFrame w = true → (first.1.floor k).frames.length < 64) → limit.2 = true →
         exec (.stash k) s = .next (s.withDev (stashLaunch limit.1 k w desc)))) ∧
     (recType w = 0x61 → stFe w ≤ 1 → d.attic k (stEntry w) 0 { entry := true } = .found a → bit (wd a.entry 1) 23 = true →
       exec (.recall k) s = .next (s.withDev (stashLaunch (d.readAttic a { entry := true }) k w (stashDesc w true
         (a.ring + (wd a.entry 0).toNat % 2 ^ a.ringLog2) a.ringLog2 (stAddr w) 0 (fld (wd a.entry 1) 63 24) 0)))) ∧
     (∀ f rest, recType w = 0x62 → (d.floor k).frames = f :: rest → d.attic k 0 0 {} = .found a →
       let freed := (d.readAttic a {}).jobWrites (144 + k) (stId w) [(a.ctrl + 16, w64 (rest.headD a.writePos))]
       freed.2 = true →
       exec (.free k) s = .next (s.withDev (stashEnd (freed.1.onFloor k (fun f => { f with frames := rest })) k w)))) ∧
  (∀ (s : State) (k : Nat) (w : List W64) (x : Bool), (s.dev.floor k).stashCur = some (w, x) → s.dev.runs = true →
     stashIdle7 s.dev k = true →
     (∀ a, recType w = 0x60 → s.dev.get (Reg.CH_STATE_STOP_CAUSE (144 + k) 7) = 0 →
       s.dev.attic k (stEntry w) (stGroup w) {} = .found a →
       let wrote := (s.dev.readAttic a {}).jobWrites (144 + k) (stId w) [(a.entryAddr, w64 a.writePos),
         (a.entryAddr + 8, packFlds [(63, 24, stBytes w), (23, 23, 1)]),
         (a.ctrl + 8, w64 (a.writePos + roundUp (stBytes w) 4096))]
       wrote.2 = true →
       exec (.stash k) s = .next (s.withDev (stashEnd (wrote.1.inc (Reg.ATTIC_COUNT_STASHED k)) k w))) ∧
     (∀ a, recType w = 0x60 → s.dev.get (Reg.CH_STATE_STOP_CAUSE (144 + k) 7) = 8 →
       s.dev.attic k (stEntry w) (stGroup w) { map := true } = .found a →
       let wrote := (s.dev.readAttic a { map := true }).jobWrites (144 + k) (stId w) [(a.entryAddr, w64 a.writePos),
         (a.entryAddr + 8, packFlds [(63, 24, stBytes w), (23, 23, 0)]),
         (a.mapAddr, putMap a.map (stGroup w) true)]
       wrote.2 = true →
       exec (.stash k) s = .next (s.withDev (stashEnd (stashConsume (wrote.1.inc (Reg.ATTIC_COUNT_DROPPED k)) w
         (s.dev.get (Reg.CH_STATE_PROGRESS (144 + k) 7))) k w))) ∧
     (recType w = 0x61 → s.dev.get (Reg.CH_STATE_STOP_CAUSE (144 + k) 7) = 0 →
       exec (.recall k) s = .next (s.withDev (stashEnd s.dev k w))))

/-- An update entry: a group that is frozen is passed over and counted, an entry that fails its checks stops the list with a
schedule fault, and one that passes them and need not wait updates its granules into the pending view, moves the list on and
arrives at its fence where it asks to; the three rows are the entries of KIND 0, 1 and 2 (12 R338 to R343). Every row answers a next state under these
conditions: elementwise, orthoMomentum, orthoApply. -/
def Obligations.UpdateEntriesRun : Prop :=
  ∀ (s : State) (k kind : Nat) (w : List W64) (i : Instr), k < 8 → s.dev.runs = true →
    (i = .elementwise k ∧ kind = 0 ∨ i = .orthoMomentum k ∧ kind = 1 ∨ i = .orthoApply k ∧ kind = 2) →
    (updHead s.dev k).2 = some w → ueKind w = kind →
    let d := (updHead s.dev k).1
    let g := d.group (ueGroup w)
    let next (d : Dev) : Dev :=
      let d := d.readJob ((d.floor k).updList + 64 * (d.floor k).updPos) 64
      let d := d.onFloor k (fun f => { f with updPos := f.updPos + 1 })
      if ueArrive w then d.arrive (160 + k) (ueFence w) else d
    let ready : Prop := ueWait w = true → (d.fence (ueFence w)).released = true
    let done := granules k g (d.constOf (ueGroup w)) w (List.range (ueGranules w)) d
    (g.frozen = true → ready → exec i s = .next (s.withDev (next (d.inc (Reg.UPD_COUNT1_FROZEN k))))) ∧
    (g.frozen = false → d.ueOk g w = false →
      exec i s = .next (s.withDev ((updStop d k).schedFault (144 + k) (ueId w) 0))) ∧
    (g.frozen = false → d.ueOk g w = true → ready →
      exec i s = .next (s.withDev (match done.2 with
        | none => next done.1
        | some a => (updStop done.1 k).memFault (144 + k) (ueId w) a)))

/-- A step starts once its START_FENCE is released, with a snapshot taken first, and starts again at its agreed replay beat
from that snapshot; either way PHASE is RUNNING and STEP is the buffer's T; fences of steps re-arm (12 R335, R336, 17 R476).
In VOTING a floor that has not voted votes NO with its lowest cause or YES, and the device goes on with its own vote; at the
close beat a complete agreement of YES commits the step, or skips it where NONFINITE stands and asks for it, any other
agreement aborts it, and without one the close moves by a beat, at most VOTE_LATE_LIMIT times; held commands are tried again
(12 R346 to R348). -/
def Obligations.StepsStartAndClose : Prop :=
  ((∀ s : State, s.dev.js = jsRunning → s.dev.frozen = false → s.dev.startFence ≠ 0 → s.dev.get Reg.STEP_STATE_PHASE = 0 →
     s.dev.step.replayFrom = none → (s.dev.fence s.dev.startFence).released = true → ∃ t, exec .stepStart s = .next t ∧
       t.dev = ({ s.dev with step := { s.dev.step with snap := some s.dev.takeSnap } } : Dev).beginStep false ∧
       t.dev.get Reg.STEP_STATE_PHASE = 1 ∧ t.dev.step.snap = some s.dev.takeSnap ∧ t.dev.step.start = s.dev.beat) ∧
   (∀ (s : State) (b : Nat), s.dev.js = jsRunning → s.dev.frozen = false → s.dev.step.replayAt = some b → b ≤ s.dev.beat →
     s.dev.dueBefore 6 = false → ∃ t, exec .stepReplayStart s = .next t ∧ t.dev = s.dev.restoreSnap.beginStep true ∧
       t.dev.get Reg.STEP_STATE_PHASE = 1)) ∧
  ((∀ (s : State) (k : Nat), k < 8 → s.dev.js = jsRunning → s.dev.frozen = false → s.dev.get Reg.STEP_STATE_PHASE = 2 →
     (s.dev.floor k).vote = none → s.dev.writesOut (160 + k) s.dev.net.nextId = false →
     let f := s.dev.floor k
     let bad := s.dev.get Reg.COMMIT_STATUS_NONFINITE = 1 ∧ s.dev.get (Reg.STEP_W0_NONFINITE_ACTION s.dev.stepSlot) = 0
     let v := if f.updFault = true ∨ f.upd = .faulted then 1 else if f.skewed then 2 else if bad then 3 else 0
     exec (.floorVote k) s = .next (s.withDev (s.dev.onFloor k (fun x => { x with vote := some v })).voteProgress)) ∧
   (∀ s : State, s.dev.js = jsRunning → s.dev.frozen = false → s.dev.get Reg.STEP_STATE_PHASE = 2 →
     s.dev.step.close ≤ s.dev.beat → s.dev.dueBefore 5 = false →
     let d := s.dev.set Reg.COMMIT_STATUS_FP_MINORITY 0
     (∀ c at_, d.voteComplete = true → d.step.agreed = some (c, at_) →
       let skip := d.get Reg.COMMIT_STATUS_NONFINITE = 1 ∧ d.get (Reg.STEP_W0_NONFINITE_ACTION d.stepSlot) = 1
       let cause := lowCause c.num (if flagsDiffer c.flags then 4 else 0)
       (c.ok = true → flagsDiffer c.flags = false → ¬ skip → exec .voteClose s = .next (s.tried d.closeCommitted)) ∧
       (c.ok = true → flagsDiffer c.flags = false → skip → exec .voteClose s = .next (s.tried d.closeSkipped)) ∧
       (c.ok = false ∨ flagsDiffer c.flags = true → exec .voteClose s = .next (s.tried
         (if s.dev.step.fpDiff = some true then (d.closeAborted (if cause = 0 then 1 else cause)).fpRound
          else d.closeAborted (if cause = 0 then 1 else cause))))) ∧
     (d.voteComplete = false → d.step.lateMoves < d.get Reg.COMMIT_CTRL_VOTE_LATE_LIMIT → exec .voteClose s = .next (s.tried
       { d with step := { d.step with close := d.step.close + 1, lateMoves := d.step.lateMoves + 1 } })) ∧
     (d.voteComplete = false → d.get Reg.COMMIT_CTRL_VOTE_LATE_LIMIT ≤ d.step.lateMoves →
       exec .voteClose s = .next (s.tried (d.closeAborted 5)))))

/-- A committed close that is not the job's last flips COMMIT_PARITY, writes STEP into T_COMMITTED and every floor's
T_LOCAL, ends the step as COMMITTED and clears the skips (12 R334, R348). -/
def Obligations.CommitsFlipTheParity : Prop :=
  ∀ d : Dev, d.job.steps = 0 ∨ d.job.committed + 1 < d.job.steps → d.get Reg.STEP_STATE_PHASE = 2 →
    d.closeCommitted.get Reg.COMMIT_STATUS_COMMIT_PARITY = 1 - d.get Reg.COMMIT_STATUS_COMMIT_PARITY ∧
    d.closeCommitted.get Reg.COMMIT_STATUS_T_COMMITTED = d.get Reg.STEP_STATE_STEP ∧
    (∀ k, k < 8 → d.closeCommitted.get (Reg.UPD_COUNTER_T_LOCAL k) = d.get Reg.STEP_STATE_STEP) ∧
    d.closeCommitted.get Reg.STEP_STATE_PHASE = 0 ∧ d.closeCommitted.get Reg.STEP_STATE_LAST_OUTCOME = 1 ∧
    d.closeCommitted.step.skips = 0 ∧ d.closeCommitted.job.committed = d.job.committed + 1 ∧ d.closeCommitted.bench = d.bench

/-- A working channel takes the descriptor at the head of its queue, or of its list, by the row of its FORM: one that passes
its checks is in progress, its state word RUNNING with its RECORD_ID and its done mask clear; one that fails them is dropped
and refused; an end mark leaves the list idle (09 R263, R283, R284, R289). A waiting channel that reads its limit word again
goes on where it has changed and else stays as it is; a limit wait longer than LIMIT_TIMEOUT beats stops the descriptor; a
channel with a stop cause records its outcome once its bursts have ended: STATE, STOP_CAUSE, RECORD_ID and PROGRESS in its
state word (09 R273, R274, R285, R289). Every row answers a next state under these conditions: dmaTwoD, dmaCircular, dmaShape,
dmaLimitReread, limitTimeout, dmaStop. -/
def Obligations.DescriptorsStartAndStop : Prop :=
  (∀ (s : State) (loc ch form : Nat) (i : Instr), loc < 153 → ch < channelsOf loc → s.dev.chanLive loc ch = true →
     (i = .dmaTwoD loc ch ∧ form = 0 ∨ i = .dmaCircular loc ch ∧ form = 1 ∨ i = .dmaShape loc ch ∧ form = 2) →
     (s.dev.nextDesc loc ch = .none → exec i s = .next s) ∧
     (s.dev.nextDesc loc ch = .ended →
       exec i s = .next (s.withDev (s.dev.onChan loc ch (fun c => { c with reader := .idle })))) ∧
     (∀ w place listed x y, s.dev.nextDesc loc ch = .found w place listed → fld (wd w 0) 63 56 = 0x50 → dmForm w = form →
       (form ≠ 2 ∧ x = [] ∧ y = [] ∨
         form = 2 ∧ s.dev.shapeWords loc (dmSrc w) = .words x ∧ s.dev.shapeWords loc (dmDst w) = .words y) →
       (∀ code, dmCheck loc ch w (Shape.ofWords x) (Shape.ofWords y) = some code →
         exec i s = .next (s.withDev ((s.dev.popDesc loc ch listed).refuseDesc loc ch w code))) ∧
       (dmCheck loc ch w (Shape.ofWords x) (Shape.ofWords y) = none →
         ∃ t, exec i s = .next t ∧
         (t.dev.chan loc ch).cur = some { words := w, place := place, shapeS := x, shapeD := y } ∧
         t.dev.reg (Reg.CH_STATE loc ch) = packFlds [(63, 60, 1), (55, 40, dmId w)] ∧
         t.dev.reg (Reg.CH_DONE_MASK loc ch) = 0 ∧ t.dev.mem = s.dev.mem ∧ t.dev.tags = s.dev.tags))) ∧
  (∀ (s : State) (loc ch : Nat) (r : ChanRun), loc < 153 → ch < channelsOf loc → (s.dev.chan loc ch).cur = some r →
     (∀ l, s.dev.chanLive loc ch = true → r.stop = none → dmLimit r.words ≠ 0 → r.limitSince ≠ none →
       s.dev.readLimit r.words = .ok l →
       let d := s.dev.readJob (dmLimit r.words) 8
       (r.limit = some l → exec (.dmaLimitReread loc ch) s = .next (s.withDev d)) ∧
       (r.limit ≠ some l → exec (.dmaLimitReread loc ch) s = .next (s.withDev
         ((d.onRun loc ch (fun r => { r with limit := some l, limitSince := none })).showState loc ch)))) ∧
     (∀ b, r.limitSince = some b → r.stop = none → s.dev.frozen = false →
       s.dev.get (Reg.DMA_CTRL_LIMIT_TIMEOUT loc) < s.dev.countedBeats - b →
       exec (.limitTimeout loc ch) s = .next (s.withDev (s.dev.ownStop loc ch 7 (dmLimit r.words) r))) ∧
     (∀ c, r.stop = some c → r.ended = true → s.dev.chanBusy loc ch = false → s.dev.frozen = false →
       (s.dev.get (Reg.CH_STATE_STATE loc ch) = 3 → c = 11) →
       exec (.dmaStop loc ch) s = .next (s.withDev (s.dev.finishChan loc ch c)) ∧
       (r.tallied = none → (s.dev.finishChan loc ch c).reg (Reg.CH_STATE loc ch) =
         packFlds [(63, 60, if ((1 ≤ c ∧ c ≤ 7) ∨ c = 9 ∨ c = 10) ∧ ¬ (loc = 152 ∧ 28 ≤ ch ∧ c ≠ 9) then 3 else 0),
           (59, 56, c), (55, 40, dmId r.words), (39, 0, r.progress % 2 ^ 40)])))

/-- A channel that may issue takes its next burst: its ends have addresses, its source is cut into read bursts, and it issues
what may be issued, write bursts whose bytes are at hand and read bursts; a descriptor that waits for its fence stays WAITING;
one whose bursts have all ended completes; a burst at its limit waits, or ends the descriptor where LIMIT_ACTION says so (09
R264, R268, R272, R273, R281). A write burst at the channel's own port that nothing keeps waiting is served at once and
acknowledged, and one for another location is sent. The row dmaBurstIssue answers a next state under these conditions. -/
def Obligations.BurstsAreIssued : Prop :=
  (∀ (s : State) (loc ch : Nat) (q : ChanRun), (s.dev.chan loc ch).cur = some q → s.dev.chanLive loc ch = true →
    s.dev.latticeGate loc ch = true → q.stop = none →
    (dmWait q.words = true → q.begun = false → (s.dev.fence (dmFence q.words)).released = false →
      exec (.dmaBurstIssue loc ch) s = .next (s.withDev (s.dev.chState loc ch 2))) ∧
    (dmWait q.words = false ∨ q.begun = true ∨ (s.dev.fence (dmFence q.words)).released = true →
      (64 ≤ q.fly.length → exec (.dmaBurstIssue loc ch) s = .next (s.withDev (s.dev.chanGo loc ch))) ∧
      (q.fly.length < 64 →
        let r := (nextBurst { q with begun := true }).1
        let d := s.dev.onRun loc ch (fun _ => r)
        ((nextBurst { q with begun := true }).2 = none → exec (.dmaBurstIssue loc ch) s = .next (s.withDev
          (if r.fly = [] ∧ some r.head = r.total then d.finishChan loc ch 0 else d.chanGo loc ch))) ∧
        (∀ pos len, (nextBurst { q with begun := true }).2 = some (pos, len) →
          (∀ l, dmLimit q.words ≠ 0 → q.limit = some l → l ≤ pos →
            let d := d.onRun loc ch (fun r => { r with limit := some l })
            exec (.dmaBurstIssue loc ch) s = .next (s.withDev
              (if dmLimAct q.words = 1 then (if q.fly = [] then d.finishChan loc ch 8 else (d.stopChan loc ch 8).chanGo loc ch)
               else (d.onRun loc ch (fun r => { r with
                 limitSince := some (r.limitSince.getD s.dev.countedBeats) })).chanGo loc ch))) ∧
          (dmLimit q.words = 0 → dmSrcSp q.words ≠ spLog →
            let d := d.onRun loc ch (fun r => { r with limit := none })
            let dst := d.resolve loc q.dstSp (dstAt r pos).1 true (dmDstFe q.words ≠ 0)
            let cut := readPieces r none 64 r.reads (srcNeed r pos len).1 (srcNeed r pos len).2
            let new := d.placeReads loc r (cut.1.drop r.reads.length)
            dst.isOk = true → d.routeBad loc (endpointOf (valueOr 0 dst)) = false → new.isOk = true →
            exec (.dmaBurstIssue loc ch) s = .next (s.withDev (((d.onRun loc ch (fun _ => { r with
              reads := r.reads ++ valueOr [] new
              fly := r.fly ++ [⟨pos, len, valueOr 0 dst, cut.2, false, none⟩], limit := none, limitSince := none
              next := if r.desc then r.total.getD 0 - pos else pos + len })).addCycles
                (Reg.CH_COUNT_PACE_CYCLES loc ch)).chanGo loc ch))))))) ∧
  (∀ (d : Dev) (loc ch : Nat) (r : ChanRun) (b : Burst), dmOp r.words ≠ 1 →
    let e := d.countOob loc (r.oob b.pos b.len)
    let bytes := e.burstBytes r b
    let pkt : Pkt := { id := 0, kind := 0, src := loc, dst := endpointOf b.dst, addr := b.dst, len := b.len, data := bytes,
                       loc := loc, ch := ch, pos := b.pos, fe := dmDstFe r.words }
    (endpointOf b.dst = loc → dmDstFe r.words ≠ 1 →
      let m := e.dmaMeet loc true b.dst bytes.length
      m.2 = false → m.1.badWrite b.dst bytes.length = none →
      d.burstSend loc ch r b = ((((m.1.metPartly b.dst bytes.length).wr b.dst bytes).keepOrig loc ch b.dst
        (m.1.bytes b.dst bytes.length)).burstAcked loc ch b.pos b.len)) ∧
    (endpointOf b.dst ≠ loc → d.burstSend loc ch r b = (e.inject pkt).onBurst loc ch b.pos (fun x => { x with sent := true })))

/-- Packets at their destinations, where no meeting of ports refuses them (log entry 51): a WRITE lands and is acknowledged, filling the slot it is tagged for, and waits while
that slot is full; a READ_REQ is answered with the bytes, waits for a tagged slot, or joins the merge window of a bench with
MERGE_EN; READ_DATA, ACK and NACK go to their channel: the first hands over its bytes, the second acknowledges its burst, or
has tallied blocks that came back differing moved again, the third stops the channel; the channel then goes on (08 R243, R244,
07 R223, R230, 09 R282, R284). Every row answers a next state under these conditions: bulkWrite, bulkReadReq, bulkReadData,
bulkAck, bulkNack. -/
def Obligations.PacketsAreServed : Prop :=
  ∀ (s : State) (id : Nat) (p : Pkt), s.dev.netRuns = true →
    (s.dev.arriving id 0 = some p → s.dev.routeBad p.src p.dst = false → p.loc ≠ noLoc →
      (p.fe = 1 → s.dev.tagsClean [slotOf p.addr]) →
      (p.fe = 1 → s.dev.tag (slotOf p.addr) = true → exec (.bulkWrite id) s = .next (s.withDev (s.dev.pktWait p false))) ∧
      ((p.fe = 1 → s.dev.tag (slotOf p.addr) = false) →
        let m := s.dev.dmaMeet p.dst true p.addr p.data.length
        let d := (m.1.metPartly p.addr p.data.length).wr p.addr p.data
        m.2 = false → m.1.badWrite p.addr p.data.length = none → exec (.bulkWrite id) s = .next (s.withDev
          (((if p.fe = 1 then d.setTags [slotOf p.addr] true else d).answer p 3 [] 0).showPkt p)))) ∧
    (s.dev.arriving id 1 = some p → s.dev.routeBad p.src p.dst = false →
      (s.dev.mergeable p.dst p.fe p.addr p.len = true → p.window = none → (p.fe = 1 → s.dev.tag (slotOf p.addr) = true) →
        let open_ := s.dev.openWindow p.addr
        exec (.bulkReadReq id) s = .next (s.withDev ((s.dev.inc
          (if open_.isSome then Reg.SP_MERGE_BURSTS_MERGED p.dst else Reg.SP_MERGE_WINDOWS p.dst)).onPkt id
            (fun _ => { p with window := some (open_.getD id), joinedAt := s.dev.countedBeats })))) ∧
      (s.dev.mergeable p.dst p.fe p.addr p.len = false → (p.fe ≠ 0 → s.dev.slotsReady [slotOf p.addr] true) →
        let m := s.dev.dmaMeet p.dst false p.addr p.len
        m.2 = false → m.1.badPhys p.addr p.len = none → exec (.bulkReadReq id) s = .next (s.withDev
          (((m.1.rdPhys p.addr p.len).1.answer p 2 (m.1.bytes p.addr p.len) 0).showPkt p))) ∧
      (s.dev.mergeable p.dst p.fe p.addr p.len = false → p.fe ≠ 0 → s.dev.tagBad [slotOf p.addr] = none →
        s.dev.tag (slotOf p.addr) = false → exec (.bulkReadReq id) s = .next (s.withDev (s.dev.pktWait p true)))) ∧
    (s.dev.arriving id 2 = some p → exec (.bulkReadData id) s =
      .next (s.withDev ((s.dev.dropPkt id).partRead p.loc p.ch p.part p.data))) ∧
    (∀ r, s.dev.arriving id 3 = some p → (s.dev.chan p.loc p.ch).cur = some r → ∀ agrees,
      (agrees = true ∨ r.tallied = none → exec (.bulkAck id agrees) s = .next (s.withDev
        (((s.dev.dropPkt id).burstAcked p.loc p.ch p.pos p.len).chanGo p.loc p.ch))) ∧
      (agrees = false → r.blocksBy p.pos p.len ≠ [] → exec (.bulkAck id agrees) s = .next (s.withDev
        (((s.dev.dropPkt id).tallyRetry p.loc p.ch p.pos p.len).chanGo p.loc p.ch)))) ∧
    (∀ r, s.dev.arriving id 6 = some p → (s.dev.chan p.loc p.ch).cur = some r → p.cause ≠ 4 → p.cause ≠ 5 →
      exec (.bulkNack id) s = .next (s.withDev
        (((s.dev.dropPkt id).burstLost p.loc p.ch p.pos p.part).stopChan p.loc p.ch p.cause))) ∧
    (s.dev.routeBad p.src p.dst = true →
      (s.dev.arriving id 0 = some p → exec (.bulkWrite id) s = .next (s.withDev (s.dev.answer p 6 [] 10))) ∧
      (s.dev.arriving id 1 = some p → exec (.bulkReadReq id) s = .next (s.withDev (s.dev.answer p 6 [] 10))))

/-- A merge window that closes, and that no meeting of ports refuses (log entry 51), reads its slot once: each floor or hub that asked is answered, and the benches of each die
get one MULTICAST, whose extra copies are counted; the MULTICAST hands its bytes to every channel of its mask (07 R229,
R230, 08 R245). A REDUCE that begins a set in a router with room is held and acknowledged, one that completes its set sends
the sum in ORDER on, and one with no entry, a second one of a port or one of another length stops the set; a set that has
waited REDUCE_TIMEOUT beats stops too; a link cycle's CRC failures are counted as replays, and eight in succession fail the
link (08 R244, R247, R248, 17 R465). Every row answers a next state under these conditions: mergeWindowClose, bulkMulticast,
bulkReduce, reduceTimeout, linkCrcReplay. -/
def Obligations.MergesAndReductions : Prop :=
  ((∀ (s : State) (b slot w : Nat) (h : Pkt) (t : List Pkt), s.dev.netRuns = true → b < 144 →
     s.dev.openWindow (spBase b + slot % 16384 * 512) = some w →
     let d : Dev := { s.dev with net := { s.dev.net with
       pkts := s.dev.net.pkts.map (fun p => if p.window = some w then { p with closed := true } else p) } }
     d.net.pkts.filter (fun p => p.kind = 1 && p.window = some w) = h :: t →
     ((h :: t).any (fun p => p.fe = 1) = true → s.dev.slotsReady [slotOf h.addr] true) →
     let m := d.dmaMeet h.dst false h.addr 512
     m.2 = false → m.1.badPhys h.addr 512 = none →
     let l := m.1.bytes h.addr 512
     let far := ((h :: t).filter (fun p => 144 ≤ p.src)).foldl (fun d p => d.answer p 2 l 0) (m.1.rdPhys h.addr 512).1
     let near := (List.range 4).foldl (fun d die =>
       match ((h :: t).filter (fun p => p.src < 144)).filter (fun p => p.src / 36 = die) with
       | [] => d
       | x :: y => (((x :: y).foldl (fun d p => d.dropPkt p.id) d).countCopies
           (multicastHops h.dst ((x :: y).map Pkt.src))).inject
           { id := 0, kind := 5, src := h.dst, dst := x.src, addr := h.addr, len := 512, data := l, loc := noLoc, ch := 0,
             pos := 0, targets := (x :: y).map (fun p => (p.src, p.loc, p.ch, p.id, p.part)) }) far
     exec (.mergeWindowClose b slot) s = .next (s.withDev ((h :: t).foldl (fun d p => d.showPkt p) near))) ∧
   (∀ (s : State) (id : Nat) (p : Pkt), s.dev.netRuns = true → s.dev.arriving id 5 = some p →
     exec (.bulkMulticast id) s = .next (s.withDev (p.targets.foldl
       (fun d t => d.partRead t.2.1 t.2.2.1 t.2.2.2.2 p.data) (s.dev.dropPkt id))))) ∧
  ((∀ (s : State) (id : Nat) (p : Pkt), s.dev.netRuns = true → s.dev.arriving id 4 = some p →
     let same (x : RedSet) : Bool := x.router = p.router && x.redId = p.redId && x.addr = p.addr
     let got := if p.loc = noLoc then s.dev.dropPkt id
       else ((s.dev.dropPkt id).burstAcked p.loc p.ch p.pos p.len).chanGo p.loc p.ch
     (s.dev.redEntry p.router p.redId = none →
       exec (.bulkReduce id) s = .next (s.withDev (got.reduceFault p.router p.addr same))) ∧
     (∀ w, s.dev.redEntry p.router p.redId = some w →
       (s.dev.net.sets.find? same = none → (s.dev.net.sets.filter (fun x => x.router = p.router)).length < 32 →
         let x : RedSet := ⟨p.router, p.redId, p.addr, p.len, [(p.port, p.data)], s.dev.liveBeats⟩
         exec (.bulkReduce id) s = .next (s.withDev
           (if (redOrder w).all (fun q => q = p.port) then execBulkReduceOn.finish got p.router w x same
            else { got with net := { got.net with sets := got.net.sets ++ [x] } }))) ∧
       (∀ x, s.dev.net.sets.find? same = some x →
         (x.len ≠ p.len ∨ x.got.any (fun g => g.1 = p.port) = true →
           exec (.bulkReduce id) s = .next (s.withDev (got.reduceFault p.router p.addr same))) ∧
         (x.len = p.len → x.got.any (fun g => g.1 = p.port) = false →
           let x' := { x with got := x.got ++ [(p.port, p.data)] }
           exec (.bulkReduce id) s = .next (s.withDev
             (if (redOrder w).all (fun q => x'.got.any (fun g => g.1 = q)) then
               execBulkReduceOn.finish got p.router w x' same
              else { got with net := { got.net with sets := got.net.sets.map (fun y => if same y then x' else y) } })))))) ∧
   (∀ (s : State) (b : Nat) (x : RedSet), s.dev.netRuns = true →
     s.dev.net.sets.find? (fun x => x.router = b && decide (x.since + s.dev.get Reg.SYNC_CTRL_REDUCE_TIMEOUT ≤
       s.dev.liveBeats)) = some x →
     exec (.reduceTimeout b) s = .next (s.withDev (s.dev.reduceFault b x.addr
       (fun y => y.router = b && y.redId = x.redId && y.addr = x.addr)))) ∧
   (∀ (s : State) (b port n : Nat), s.dev.netRuns = true → b < 144 → hasPort b port = true → port ≠ 0 → 1 ≤ n →
     let d := s.dev.addTo (Reg.NET_COUNT_LINK_REPLAYS b) (min n 8)
     (n < 8 ∨ s.dev.net.badLinks.contains (b, port) = true → exec (.linkCrcReplay b port n) s = .next (s.withDev d)) ∧
     (8 ≤ n → s.dev.net.badLinks.contains (b, port) = false → exec (.linkCrcReplay b port n) s = .next (s.withDev
       (({ d with net := { d.net with badLinks := d.net.badLinks ++ [(b, port)] } } : Dev).fault
         { kind := fkLinkFailed, unit := b } dSafe)))))

/-- Payload flits: one that fails an arrival check is refused with its cause; a WRITE or a READ_DATA that passes them lands
at its offset in its window, a REDUCE_ADD joins the additions that are made at the end of their beat, in the order of beat, position and port, a READ_REQ is queued for
the RESPONSE phases, a STREAM goes on to its receive ring, an IDLE takes its number and a pause flit does not; WIN_W2.ACCEPTED counts the flits
of windows (13 R355, R375 to R378). The elements of a REDUCE_ADD flit are added to those that stand in its window, in the
flit's format, and the sums are written back in their place (13 R376, 02 R59). Every row answers a next state under these conditions: flitWrite, flitReduceAdd, flitReadReq, flitReadData,
flitStream, flitIdle. -/
def Obligations.FlitsTakeEffect : Prop :=
  (∀ (s : State) (p : Nat) (f : Flit), s.dev.TakesFlit p f →
     let d := s.dev.tookFlit p f
     (∀ c kind i, (i = .flitWrite p f ∧ kind = 1 ∨ i = .flitReduceAdd p f ∧ kind = 2 ∨ i = .flitReadReq p f ∧ kind = 3 ∨
         i = .flitReadData p f ∧ kind = 4 ∨ i = .flitStream p f ∧ kind = 5) → flKind f = kind → d.flitCause p f = some c →
       exec i s = .next (s.withDev (d.refuseFlit p f c).drainAdds)) ∧
     (d.flitCause p f = none →
       let e := d.inc (Reg.WIN_W2_ACCEPTED (flWindow f))
       let a := e.get (Reg.WIN_W0_BASE (flWindow f)) + 32 * flOffset f
       (∀ l i, (i = .flitWrite p f ∧ flKind f = 1 ∨ i = .flitReadData p f ∧ flKind f = 4) →
         e.jobRuns a (f.payload.take (flBytes f)).length = some l →
         (e.runsBarred l = false → e.runsBad l true = none →
           exec i s = .next (s.withDev ((e.metRuns l).wrRuns l (f.payload.take (flBytes f))).drainAdds)) ∧
         (e.runsBarred l = true → exec i s = .next (s.withDev (e.schedFault 152 0 a).drainAdds))) ∧
       (flKind f = 2 → exec (.flitReduceAdd p f) s = .next (s.withDev
         ({ e with lat := { e.lat with adds := e.lat.adds ++ [((s.dev.flitBeat p f, flPos f, p), f)] } } : Dev).drainAdds)) ∧
       (flKind f = 3 → exec (.flitReadReq p f) s = .next (s.withDev (e.onPort p (fun x => { x with reads := x.reads ++
         [⟨flSrc f, a, (readReqOf f).2.1, (readReqOf f).2.2, (readReqOf f).1⟩] })).drainAdds)) ∧
       (flKind f = 5 → exec (.flitStream p f) s = .next (s.withDev (d.landStream p f).drainAdds))) ∧
     (flKind f = 0 → s.dev.isPause p f = false → exec (.flitIdle p f) s = .next (s.withDev d.drainAdds)) ∧
     (flKind f = 0 → s.dev.isPause p f = true →
       exec (.flitIdle p f) s = .next (s.withDev (s.dev.takeAck p (flAck f))))) ∧
  (∀ (d : Dev) (f : Flit) (l : List (Xl × Nat)),
     d.jobRuns (d.get (Reg.WIN_W0_BASE (flWindow f)) + 32 * flOffset f) (flBytes f) = some l → d.runsBarred l = false →
     d.runsBad l false = none →
     let bf := bit f.word0 59
     let k := if bf then 2 else 4
     let d₁ := d.readPhys (l.map (fun r => (r.1.phys, r.2)))
     d.addFlit f = d₁.wrRuns l ((List.zipWith (addElem bf)
       (unpackElems (8 * k) (flBytes f / k) (l.flatMap (fun r => d₁.bytes r.1.phys r.2)))
       (unpackElems (8 * k) (flBytes f / k) (f.payload.take (flBytes f)))).flatMap (toLe k)))

/-- A SERVICE flit with one message: the message takes effect, then covered bursts are settled. BEAT gives the beat and the
subtree, RETRY_REQ queues a resend, NACK stops the sender, POLL and VOTE of a child are combined, RESULT and VOTE_RESULT of
the parent are taken and passed down, a flood is noted and relayed, NORM and FPRINT are taken or sent on (13 R356 to R360,
R365 to R370, R375). Every SERVICE row takes the messages of its flit in order of place (13 R357). Every row answers a next state under these
conditions: beatMessage, retryReq, nack, poll, result, vote, voteResult, flood, norm, fprint. -/
def Obligations.MessagesTakeEffect : Prop :=
  (∀ (s : State) (p : Nat) (f : Flit) (m : List W64) (l : List (List W64)),
     s.dev.TakesFlit p f → let d := s.dev.tookFlit p f
     flKind f = 6 → flMessages f = m :: l → (∀ x ∈ l, msType x = 0) →
     (∀ r, msType m = 0x01 →
       exec (.beatMessage p f r) s = .next (s.withDev ((d.takeBeat p m (some r)).serviced p))) ∧
     (msType m = 0x03 → (d.port p).held.any (fun h => h.seq = fld (wd m 0) 9 0) = true →
       (d.port p).resend.any (fun r => r.1 = fld (wd m 0) 9 0) = false → exec (.retryReq p f) s = .next (s.withDev
         ((d.onPort p (fun x => { x with resend := x.resend ++ [(fld (wd m 0) 9 0, d.beat)] })).serviced p))) ∧
     (msType m = 0x04 → exec (.nack p f) s = .next (s.withDev ((d.takeNack p m).serviced p))) ∧
     (msType m = 0x05 → (d.kids.any (fun k => k.2 = p && k.1 = msOrigin m)) = true →
       fld (wd m 1) 63 48 ≠ d.startFence ∨ d.js ≠ jsRunning ∨ d.step.startPoll.isSome = true ∨ d.step.replayFrom.isSome = true → exec (.poll p f) s = .next (s.withDev
         ((d.pollKid (fld (wd m 1) 63 48) (msOrigin m) (contribOf (wd m 1))).serviced p))) ∧
     (msType m = 0x06 → d.parentPort = some p → exec (.result p f) s = .next (s.withDev
       ((d.pollResult (fld (wd m 1) 63 48) (contribOf (wd m 1))).serviced p))) ∧
     (msType m = 0x07 → (d.kids.any (fun k => k.2 = p && k.1 = msOrigin m)) = true → d.voteComplete = false →
       let kids := d.step.kids.filter (fun (k : Nat × Contrib) => k.1 ≠ msOrigin m) ++ [(msOrigin m, voteOf (wd m 1))]
       exec (.vote p f) s = .next (s.withDev
         ((({ d with step := { d.step with kids := kids } } : Dev).voteProgress).serviced p))) ∧
     (msType m = 0x08 → d.parentPort = some p → d.voteComplete = false → d.get Reg.STEP_STATE_PHASE = 2 →
       let at_ := match d.step.agreed with | some (_, b) => b | none => d.beat
       exec (.voteResult p f) s = .next (s.withDev
         ((({ d with step := { d.step with agreed := some (voteOf (wd m 1), at_) } } : Dev).postDown 4
           (voteMsg 0x08 d.index (voteOf (wd m 1)))).serviced p))) ∧
     (msType m = 0x09 → exec (.flood p f) s = .next (s.withDev ((d.noteFlood (some p) (msOrigin m) (fld (wd m 1) 63 60)
       (wd m 2) (fld (wd m 1) 59 0) (wd m 3).toNat).serviced p))) ∧
     (msType m = 0x0A →
       (msTarget m = d.index → exec (.norm p f) s =
         .next (s.withDev ((d.normArrive (fld (wd m 2) 9 0) (fld (wd m 1) 31 0)).serviced p))) ∧
       (msTarget m ≠ d.index → exec (.norm p f) s = .next (s.withDev ((d.postTo (msTarget m) 5 m).serviced p)))) ∧
     (msType m = 0x0B →
       (msTarget m = d.index → exec (.fprint p f) s = .next (s.withDev
         ((d.fpArrive (msOrigin m) (fld (wd m 2) 9 0) (fld (wd m 2) 17 16) (wd m 1)).serviced p))) ∧
       (msTarget m ≠ d.index → exec (.fprint p f) s = .next (s.withDev ((d.postTo (msTarget m) 5 m).serviced p))))) ∧
  (∀ (s : State) (p : Nat) (f : Flit), s.dev.TakesFlit p f → flKind f = 6 →
     let d := s.dev.tookFlit p f
     ∀ (type : Nat) (i : Instr), (flMessages f).any (fun m => msType m = type) = true →
       (i = .flood p f ∧ type = 0x09 ∨ i = .retryReq p f ∧ type = 0x03 ∨ i = .nack p f ∧ type = 0x04 ∨
         i = .poll p f ∧ type = 0x05 ∨ i = .result p f ∧ type = 0x06 ∨ i = .vote p f ∧ type = 0x07 ∨
         i = .voteResult p f ∧ type = 0x08 ∨ i = .norm p f ∧ type = 0x0A ∨ i = .fprint p f ∧ type = 0x0B) →
       exec i s = .next (s.withDev
         (((flMessages f).foldl (fun d m => d.takeMsg p none 0 m) d).serviced p)))

/-- Lanes and ports: a flit found missing is asked for once and a CRC mismatch is counted; a lost lane of an UP port sends
it to RETRAINING with DEGRADE flooded, of a DEGRADED one fails it; a resend that comes too late costs a lane too; retraining
ends with every held flit to be sent again, and on a degraded port a phase that has not begun asks for its stretch at its
closing fence; a failed port has no lanes; a lasting beat skew is reported (13 R356, R359, R372 to R374). -/
def Obligations.LanesAndPorts : Prop :=
  ∀ (s : State) (p : Nat),
    (∀ q bad, s.dev.portHears p = true → q < 1024 → seqAhead (s.dev.port p).recvNext q < 512 → (s.dev.port p).gaps = [] →
      (s.dev.port p).early = [] →
      let d := if bad then s.dev.inc (Reg.PORT_W1_CRC_ERRORS p) else s.dev
      exec (.flitCrcMismatch p [q] bad) s = .next (s.withDev
        ((d.onPort p (fun x => { x with gaps := x.gaps ++ [(q, s.dev.beat)] })).askRetry p q))) ∧
    (∀ lane, s.dev.portHears p = true → lane < 4 → (s.dev.get (Reg.PORT_W0_LANES p)).testBit lane = true →
      let d := s.dev.set (Reg.PORT_W0_LANES p) (s.dev.get (Reg.PORT_W0_LANES p) - 2 ^ lane)
      (s.dev.get (Reg.PORT_W0_STATE p) = 3 → exec (.laneLoss p lane) s = .next (s.withDev
        ((((d.inc (Reg.PORT_W1_RETRAINS p)).setPort p 5).floodDegrade p).fault
          { kind := fkPortDegraded, unit := 153 + p, lane := lane } dLocal))) ∧
      (s.dev.get (Reg.PORT_W0_STATE p) = 4 → exec (.laneLoss p lane) s = .next (s.withDev
        ((d.setPort p 6).fault { kind := fkPortFailed, unit := 153 + p } dLocal)))) ∧
    (∀ q b lane, s.dev.portHears p = true → (s.dev.port p).resend.find? (fun r => r.1 = q) = some (q, b) →
      b + 2 < s.dev.beat ∨ (s.dev.port p).held.any (fun h => h.seq = q && decide (3 ≤ h.resends)) = true →
      lane < 4 → (s.dev.get (Reg.PORT_W0_LANES p)).testBit lane = true →
      (∀ i, lane < i → i < 4 → (s.dev.get (Reg.PORT_W0_LANES p)).testBit i = false) →
      exec (.resendTimeout p q) s = exec (.laneLoss p lane) s ∧ ∃ t, exec (.resendTimeout p q) s = .next t) ∧
    (p < 12 → s.dev.get (Reg.PORT_W0_STATE p) = 5 → s.dev.frozen = false →
      let d := (s.dev.setPort p (if s.dev.get (Reg.PORT_W0_LANES p) = 15 then 3 else 4)).onPort p (fun x => { x with
        replay := x.held.map HeldFlit.seq, resend := [], held := x.held.map (fun h => { h with resends := 0 }) })
      ((s.dev.get (Reg.PORT_W0_LANES p) = 15 ∨ (s.dev.port p).phase = none) → exec (.retrainComplete p) s = .next (s.withDev d)) ∧
      (∀ ph, (s.dev.port p).phase = some ph → ph.used.isSome = true → exec (.retrainComplete p) s = .next (s.withDev d)) ∧
      (∀ ph, (s.dev.port p).phase = some ph → ph.used = none → s.dev.get (Reg.PORT_W0_LANES p) ≠ 15 →
        exec (.retrainComplete p) s = .next (s.withDev (d.onFence (phClose ph.words) (fun x => { x with
          req := max x.req (phaseLength true ph.words - phBeats ph.words) }))))) ∧
    (p < 12 → s.dev.get (Reg.PORT_W0_STATE p) ∈ [3, 4, 5] → s.dev.frozen = false → exec (.portFailed p) s = .next (s.withDev
      (((s.dev.set (Reg.PORT_W0_LANES p) 0).setPort p 6).fault { kind := fkPortFailed, unit := 153 + p } dLocal))) ∧
    (s.dev.parentPort = some p → 16 ≤ (s.dev.port p).skewBeats → s.dev.frozen = false → exec (.beatSkew p) s = .next (s.withDev
      (((s.dev.inc Reg.LAT_COUNT_BEAT_SKEWS).onPort p (fun x => { x with skewBeats := 0 })).fault
        { kind := fkBeatSkew, unit := 153 + p } dAbort)))

/-- A port that is free takes the next record of its list: an end mark leaves it idle; a phase that passes its checks
begins, asking for its stretch on a degraded port, and its descriptor goes to the send channel, or, for an all-to-all phase of a
routed layer, stands for its segments (log entry 82); a record of another type is refused (13 R361, R362, R373). Floods that are due, with no action due that the order of 01
R37 puts first, take effect, each counted once: a DEGRADE voids the agreements polled near its
event and takes a slip request of RETRAIN_SLIP, an ABORT abandons the step from the earliest effect beat, a PREEMPT chooses
the quiesce fence (13 R370 to R372, 16 R449, 17 R475). Every row answers a next state under these conditions: phaseRecord,
degradeEffect, abortEffect, preemptEffect. -/
def Obligations.PhasesAndFloods : Prop :=
  (∀ (s : State) (p : Nat) (w : List W64), p < 12 → s.dev.runs = true → (s.dev.port p).list ≠ 0 →
     (s.dev.port p).reader = .running → (s.dev.port p).phase = none →
     let a := (s.dev.port p).list + 64 * (s.dev.port p).pos
     s.dev.fetch a 8 = .words w →
     let d₀ := s.dev.readJob a 64
     (fld (wd w 0) 63 56 = 0 →
       exec (.phaseRecord p) s = .next (s.withDev (d₀.onPort p (fun x => { x with reader := .idle })))) ∧
     (fld (wd w 0) 63 56 = 0x90 → phaseOk w = false →
       exec (.phaseRecord p) s = .next (s.withDev (d₀.refusePhase p (phId w) a))) ∧
     (fld (wd w 0) 63 56 = 0x90 → phaseOk w = true →
       let d₁ := if phKind w = 4 then d₀ else d₀.readJob (phDesc w) 64
       let d := d₁.onPort p (fun x => { x with pos := x.pos + 1, reader := .running, phase := some { words := w } })
       let d := if d.degraded p then d.onFence (phClose w) (fun x => { x with req := max x.req (phaseLength true w - phBeats w) }) else d
       (phKind w = 4 → exec (.phaseRecord p) s = .next (s.withDev d)) ∧
       (∀ v, phKind w ≠ 4 → d₀.fetch (phDesc w) 8 = .words v →
         phaseDescOk (d₀.get (Reg.PORT_W0_PARTNER p)) (phKind w) v = true →
         exec (.phaseRecord p) s = .next (s.withDev
           (if (Config.routedPhase s.dev.index w).isSome = true ∧ phKind w = 1 then
              d.onPort p (fun x => { x with phase := some { words := w, segs := some { desc := v, place := phDesc w } } })
            else d.onChan 152 (2 * p) (fun c => { c with queue := c.queue ++ [(v, some (phDesc w))] })))) ∧
       (∀ v, phKind w ≠ 4 → d₀.fetch (phDesc w) 8 = .words v →
         phaseDescOk (d₀.get (Reg.PORT_W0_PARTNER p)) (phKind w) v = false →
         exec (.phaseRecord p) s = .next (s.withDev (d₀.refusePhase p (phId w) a)))) ∧
     (fld (wd w 0) 63 56 ∉ [0, 0x90] →
       exec (.phaseRecord p) s = .next (s.withDev (d₀.refusePhase p (phId w) a)))) ∧
  (∀ s : State, s.dev.frozen = false →
     (s.dev.dueFloods 0 ≠ [] → s.dev.dueBefore 3 = false → exec .degradeEffect s = .next (s.withDev ((s.dev.dueFloods 0).foldl
       (fun d f => (d.voidNear f.event).slipRequest (d.get Reg.LAT_DOMAIN_RETRAIN_SLIP) true) (s.dev.takeFloods 0)))) ∧
     (∀ f t, s.dev.dueFloods 1 = f :: t → s.dev.dueBefore 2 = false → exec .abortEffect s = .next (s.withDev ((s.dev.takeFloods 1).abortEffect
       (t.foldl (fun e g => min e (s.dev.effectBeat g)) (s.dev.effectBeat f))))) ∧
     (s.dev.dueFloods 2 ≠ [] → s.dev.dueBefore 4 = false → exec .preemptEffect s = .next (s.withDev (s.dev.takeFloods 2).preemptEffect)) ∧
     (∀ k, s.dev.dueFloods k ≠ [] → (s.dev.takeFloods k).dueFloods k = []))

/-- At a beat start a device that is off stands still; a frozen or sleeping one counts its always-on beat and its time; a
running one sends its frames, counts its beat, one of its slip beats or else one of the beats that timeouts count, makes the additions of the
beat that ended, takes staged windows, returns leave and goes on with its lists and its vote; held commands are tried again (08 R256, 13 R360, 14
R394, 18 R487, 21 R532). -/
def Obligations.BeatsPass : Prop :=
  ∀ s : State,
    (s.dev.boot.phase = .off → exec .beat s = .next (s.tried s.dev)) ∧
    (s.dev.boot.phase ≠ .off → s.dev.frozen = true ∨ 2 < s.dev.power → ∃ t, exec .beat s = .next (s.tried t) ∧
      t = ({ s.dev with aonBeat := s.dev.aonBeat + 1, ageBeats := s.dev.ageBeats + 1 } : Dev).tickTime ∧ t.beat = s.dev.beat) ∧
    (s.dev.boot.phase ≠ .off → s.dev.frozen = false → s.dev.power ≤ 2 →
      let d := s.dev.sendFrames
      let e := ({ d with aonBeat := d.aonBeat + 1, ageBeats := d.ageBeats + 1 } : Dev).tickTime
      let g : Dev := { e.set Reg.SYNC_BEAT_BEAT ((e.beat + 1) % 2 ^ 64) with liveBeats := e.liveBeats + 1 }
      g.beat = (e.beat + 1) % 2 ^ 64 ∧
      exec .beat s = .next (s.tried (if 0 < g.slipLeft then
        ({ g with slipLeft := g.slipLeft - 1 } : Dev).drainAdds.takeWindows.returnLeave.listsTurn.voteProgress.preemptRetry
       else ({ g with countedBeats := g.countedBeats + 1 } : Dev).drainAdds.takeWindows.returnLeave.listsTurn.voteProgress.preemptRetry)))

/-- An ARRIVE at the head of its leaf's events, with the leaf's earlier writes acknowledged, is accepted once at an
unreleased fence and has no effect at a released one; a local fence that moves is released at its beat when its participants
have arrived, and is late otherwise: counted once and slipped; one that stays late FENCE_LATE_LIMIT beats is reported once
(08 R254, R257). An overrun notice at the head of its leaf's events becomes a slip request, which the first fence that can
take it keeps at the largest asked; an agreed slip is broadcast once: it is logged, counted, and moves its fence and every
later one (08 R258, 13 R365). Every row answers a next state under these conditions: syncArrive, fenceRelease, syncTimeout,
slipReq, slip. -/
def Obligations.FencesAndSlips : Prop :=
  ((∀ (s : State) (rank f after : Nat), s.dev.paused = false → s.dev.js ≠ jsPreempted →
     s.dev.upq.find? (fun e => e.from_ = rank) = some (.arrive rank f after) → s.dev.writesOut rank after = false →
     let d : Dev := { s.dev with upq := s.dev.upq.erase (.arrive rank f after) }
     ((d.fence f).released = true → exec (.syncArrive rank f) s = .next (s.withDev d)) ∧
     ((d.fence f).released = false → exec (.syncArrive rank f) s = .next (s.withDev (d.onFence f (fun x => { x with
       arrived := if x.arrived.contains rank then x.arrived else x.arrived ++ [rank] }))))) ∧
   (∀ (s : State) (f : Nat), feDomain (s.dev.fenceEntry f) = false → s.dev.specialFence f = false → s.dev.fenceLive f = true →
     s.dev.dueOf f ≤ s.dev.beat →
     (feParticipants (s.dev.fenceEntry f) ≤ (s.dev.fence f).arrived.length → f ≠ s.dev.get Reg.COMMIT_FENCES_NORM_FENCE →
       f ≠ s.dev.get Reg.COMMIT_FENCES_VOTE_FENCE → s.dev.job.preemptFence ≠ some f → exec (.fenceRelease f) s =
         .next (s.withDev (s.dev.onFence f (fun x => { x with released := true, relBeat := s.dev.beat })))) ∧
     (feParticipants (s.dev.fenceEntry f) ≤ (s.dev.fence f).arrived.length → exec (.fenceRelease f) s =
       .next (s.withDev (s.dev.releaseFence f ((List.range 8).any (fun k => (s.dev.floor k).nonfinite))))) ∧
     ((s.dev.fence f).arrived.length < feParticipants (s.dev.fenceEntry f) →
       let first := (s.dev.fence f).firstDue.getD s.dev.beat
       let d := if (s.dev.fence f).firstDue = none then s.dev.inc Reg.SYNC_COUNT_LATE_FENCES else s.dev
       exec (.fenceRelease f) s = .next (s.withDev ((d.onFence f (fun x => { x with firstDue := some first })).slipRequest
         (s.dev.beat - first + 1) false)))) ∧
   (∀ (s : State) (f b : Nat), (s.dev.fence f).firstDue = some b → s.dev.fenceLive f = true →
     ((s.dev.fence f).timedOut = false → b + s.dev.get Reg.SYNC_CTRL_FENCE_LATE_LIMIT ≤ s.dev.beat →
       exec (.syncTimeout f) s = .next (s.withDev ((s.dev.onFence f (fun x => { x with timedOut := true })).fault
         { kind := fkSyncTimeout, unit := 152, addr := f } dAbort))) ∧
     ((s.dev.fence f).timedOut = true → exec (.syncTimeout f) s = .next s))) ∧
  ((∀ (s : State) (rank beats record after : Nat), s.dev.paused = false →
     s.dev.upq.find? (fun e => e.from_ = rank) = some (.slipReq rank beats record after) →
     s.dev.writesOut rank after = false → s.dev.js = jsRunning →
     let d : Dev := { s.dev with upq := s.dev.upq.erase (.slipReq rank beats record after) }
     exec (.slipReq rank beats record) s = .next (s.withDev (d.slipRequest beats false))) ∧
   (∀ (s : State) (f beats : Nat), s.dev.paused = false → s.dev.job.agreedSlips.contains (f, beats) = true →
     s.dev.dueBefore 3 = false → ∃ t, exec (.slip f beats) s = .next t ∧ t.dev.slipLeft = s.dev.slipLeft + beats ∧
       t.dev.job.agreedSlips = s.dev.job.agreedSlips.erase (f, beats) ∧ t.dev.logHeld.length = s.dev.logHeld.length + 1 ∧
       (s.dev.specialFence f = false → ∀ g, g < 65536 → feStep (s.dev.fenceEntry g) = false → t.dev.dueOf g =
         if f = g ∨ s.dev.dueOf f < s.dev.dueOf g then s.dev.dueOf g + beats else s.dev.dueOf g)))

/-- At its poll beat a device polls a fence: a join with its readiness, a start with its slot's VALID, another domain fence
with its arrivals, its flits and its slip requests; at the release beat the agreed result joins, starts, replays or
releases, or slips the fence by at least AGREE_BEATS (12 R335, 13 R365, R366, 16 R447, 17 R476). Both rows
answer a next state under these conditions: domainFencePoll, domainFenceResult. -/
def Obligations.DomainFencesAgree : Prop :=
  (∀ (s : State) (f : Nat), s.dev.frozen = false →
    (∀ b, s.dev.job.joinPoll = some b → f = s.dev.joinFence → b ≤ s.dev.beat → exec (.domainFencePoll f) s =
      .next (s.withDev (({ s.dev with job := { s.dev.job with joinPoll := none } } : Dev).pollOwn f
        (s.dev.beat + s.dev.get Reg.LAT_DOMAIN_AGREE_BEATS) ⟨s.dev.readyToJoin, 0, s.dev.pollFlags⟩))) ∧
    (∀ b, s.dev.job.joinPoll = none → s.dev.fencesMove = true → f ≠ 0 → f = s.dev.startFence → s.dev.step.replayFrom = none →
      s.dev.step.startPoll = some b → b ≤ s.dev.beat → s.dev.get Reg.STEP_STATE_PHASE = 0 → exec (.domainFencePoll f) s =
      .next (s.withDev (({ s.dev with step := { s.dev.step with startPoll := some (s.dev.beat + 1) } } : Dev).pollOwn f
        (s.dev.beat + s.dev.get Reg.LAT_DOMAIN_AGREE_BEATS)
        { s.dev.pollContrib f with ok := (s.dev.pollContrib f).ok && s.dev.slotValid }))) ∧
    (s.dev.job.joinPoll = none → f ≠ 0 → f ≠ s.dev.startFence → feDomain (s.dev.fenceEntry f) = true →
      s.dev.fenceLive f = true → s.dev.pollBeat f ≤ s.dev.beat →
      s.dev.lat.polls.any (fun h => h.1 = f && h.2.own.isSome) = false → exec (.domainFencePoll f) s =
      .next (s.withDev ((s.dev.onFence f (fun x => { x with req := 0 })).pollOwn f (max (s.dev.dueOf f) s.dev.beat)
        (s.dev.pollContrib f))))) ∧
  (∀ (s : State) (f : Nat) (h : Nat × Poll) (c : Contrib), s.dev.frozen = false →
    s.dev.lat.polls.find? (fun h => h.1 = f && h.2.own.isSome) = some h → h.2.result = some c → h.2.due ≤ s.dev.beat →
    let d := s.dev.lessPoll f
    let joining := (s.dev.js = jsLoaded ∨ s.dev.js = jsPreempted ∨ s.dev.js = jsResuming ∨ s.dev.frz.wasRunning = true) ∧
      f = s.dev.joinFence ∧ s.dev.job.joinAt = none
    (joining → c.ok = true →
      exec (.domainFenceResult f) s = .next (s.withDev { d with job := { d.job with joinAt := some h.2.due } })) ∧
    (joining → c.ok = false →
      exec (.domainFenceResult f) s = .next (s.withDev { d with job := { d.job with joinPoll := some d.nextJoinPoll } })) ∧
    (¬ joining → s.dev.js = jsRunning → s.dev.paused = false → s.dev.job.agreedSlips = [] → s.dev.dueBefore 3 = false →
      s.dev.floodDue 0 = false → (c.ok = true → c.num = 0 → d.dueBefore 6 = false ∧ s.dev.floodDue 2 = false) →
      (f ≠ 0 → f = s.dev.startFence → s.dev.step.replayFrom = none → c.ok = true → c.num = 0 → c.flags / 2 % 2 = 1 →
        exec (.domainFenceResult f) s = .next (s.withDev
          ((({ d with step := { d.step with startPoll := none } } : Dev).dropPolls f).releaseFence f false))) ∧
      (f ≠ 0 → f = s.dev.startFence → s.dev.step.replayFrom ≠ none → c.ok = true →
        exec (.domainFenceResult f) s = .next (s.withDev
          (({ d with step := { d.step with replayAt := some h.2.due } } : Dev).dropPolls f))) ∧
      (f = 0 ∨ f ≠ s.dev.startFence → s.dev.fenceOpen f = true →
        (c.ok = true → c.num = 0 →
          exec (.domainFenceResult f) s = .next (s.withDev (d.releaseFence f (c.flags % 2 = 1)))) ∧
        (c.ok = false ∨ c.num ≠ 0 →
          let n := max c.num (s.dev.get Reg.LAT_DOMAIN_AGREE_BEATS)
          let e := d.onFence f (fun x => { x with firstDue := some (x.firstDue.getD h.2.due) })
          exec (.domainFenceResult f) s = .next (s.withDev
            { e with job := { e.job with agreedSlips := e.job.agreedSlips ++ [(f, n)] } })))))

/-- While the job stops at its quiesce point a leaf that is quiet reports once; the last report begins the save, making the
save record invalid first (08 R259, 16 R453). A leave request that can never be met is refused for good; one that the free
units cover, with none waiting before it and nothing held back, is granted at once; any other is queued and counted; the
oldest waiting request is granted once the free units cover it (18 R488, R491). -/
def Obligations.QuiesceAndLeave : Prop :=
  (∀ (s : State) (r : Nat), s.dev.js = jsPreempting → s.dev.frozen = false → 1 ≤ r → r ≤ 167 →
     s.dev.leafQuiet r = true → s.dev.job.quiesced.contains r = false →
     let d : Dev := { s.dev with job := { s.dev.job with quiesced := s.dev.job.quiesced ++ [r] } }
     (d.allQuiet = false → exec (.quiesced r) s = .next (s.withDev d)) ∧
     (d.allQuiet = true → exec (.quiesced r) s = .next (s.withDev
       (match d.xlate (d.get Reg.JOB_SAVE_SAVE_ADDR) with | some x => d.wrWord x.phys 0 | none => d)))) ∧
  ((∀ (s : State) (b units id : Nat), s.dev.frozen = false → s.dev.leaveQ.any (fun q => q.who = b) = false →
     s.dev.leaveNeed b = some (units, id) → units ≠ 0 →
     (s.dev.poolCapacity - s.dev.standing < units → exec (.leaveRequest b) s = .next (s.withDev (s.dev.leaveNever b id))) ∧
     (units ≤ s.dev.poolCapacity - s.dev.standing →
       (s.dev.leaveQ = [] → s.dev.leaveHeldBack = false → units ≤ s.dev.get Reg.PWR_STATUS_FREE →
         exec (.leaveRequest b) s = .next (s.withDev (s.dev.giveLeave b units))) ∧
       (s.dev.leaveQ ≠ [] ∨ s.dev.leaveHeldBack = true ∨ s.dev.get Reg.PWR_STATUS_FREE < units → b < 145 →
         exec (.leaveRequest b) s = .next (s.withDev
           (({ s.dev with leaveQ := s.dev.leaveQ ++ [⟨b, units⟩] } : Dev).inc Reg.LEAVE_COUNT_REFUSALS))))) ∧
   (∀ (s : State) (q : LeaveReq) (rest : List LeaveReq), s.dev.leaveQ = q :: rest → s.dev.frozen = false →
     s.dev.leaveHeldBack = false → q.units ≤ s.dev.get Reg.PWR_STATUS_FREE → exec .leaveGrant s =
       .next (s.withDev (({ s.dev with leaveQ := rest } : Dev).giveLeave q.who q.units))))

/-- While the device is frozen its benches, floors, channels, ports, fences and leave stand still: these rows change nothing
(21 R532). -/
def Obligations.FrozenStandsStill : Prop :=
  ∀ (s : State) (i : Instr), s.dev.frozen = true → Instr.clocked i = true → exec i s = .next s

/-- Minimum and maximum return the canonical NaN if either operand is NaN; the minimum of −0 and +0 is −0 and their maximum
+0; comparisons with NaN give false, so that no NaN is equal to anything (02 R58). -/
def Obligations.MinimumMaximumComparisons : Prop :=
  (∀ a b : Nat, (dec32 a).isNan = true ∨ (dec32 b).isNan = true →
    fmin a b = nan32 ∧ fmax a b = nan32 ∧ (dec32 a).eqv (dec32 b) = false ∧
    (∀ op ∈ [0x20, 0x21, 0x22], ∀ mode x r e, vecOp mode op x r a b e = (0, {}))) ∧
  fmin 0x80000000 0 = 0x80000000 ∧ fmin 0 0x80000000 = 0x80000000 ∧ fmax 0x80000000 0 = 0 ∧ fmax 0 0x80000000 = 0 ∧
  (∀ a b : Nat, (dec32 a).isNan = false → (dec32 b).isNan = false →
    (fmin a b = a ∨ fmin a b = b) ∧ (dec32 a).lt (dec32 (fmin a b)) = false ∧ (dec32 b).lt (dec32 (fmin a b)) = false ∧
    (fmax a b = a ∨ fmax a b = b) ∧ (dec32 (fmax a b)).lt (dec32 a) = false ∧ (dec32 (fmax a b)).lt (dec32 b) = false)

/-- An integer lane adds a cycle's exact products to its INT32 accumulator; outside the INT32 range it takes the nearest
limit and the bench's saturation counter counts one (02 R56). -/
def Obligations.IntegerLanesSaturate : Prop :=
  ∀ (d : Dev) (b f g acc : Nat) (l : List (Nat × Nat)), fmtIsInt f = true → fmtIsInt g = true →
    let t := l.foldl (fun a p => a + decInt f p.1 * decInt g p.2) (signed 32 acc)
    let q := accCycle true acc (l.map (fun p => product (decodeElem f false p.1) (decodeElem g false p.2)))
    signed 32 q.1 = max (-2147483648) (min 2147483647 t) ∧ q.1 < 2 ^ 32 ∧
    (d.count b q.2).arithOf b 2 = (if t < -2147483648 ∨ 2147483647 < t then min 0xFFFFFFFF (d.arithOf b 2 + 1) else d.arithOf b 2)

/-- Two ports of a bench whose banks meet wait for open numbers of cycles, which are counted; under STRICT, with any, the later
one in the order DRAIN, STREAM, STATIONARY, AWL, VECTOR, DMA is refused, unless the other meets a partial-word write. An
engine's record that is refused stops as CONFLICT_STRICT and as a schedule fault of its bench, a WRITE is answered by a NACK of
the same cause and reported to the bench it lands in (07 R213 to R216, R234, 08 R244; the cycles are the model's choice, log
entry 51). -/
def Obligations.MeetingsUnderStrict : Prop :=
  (∀ (d : Dev) (b : Nat) (x y : PortUse), x.port ≠ y.port → x.banks &&& y.banks ≠ 0 →
     let v := Config.freeWord d.free
     (d.meetPair b x y).1 = ((({ d with free := d.free + 1 } : Dev).addWaits b x.port (fld v 31 0)).addWaits b y.port (fld v 63 32)) ∧
     ((d.meetPair b x y).2 = none ↔ v = 0 ∨ d.get (Reg.SP_CTRL_STRICT b) ≠ 1) ∧
     (v ≠ 0 → d.get (Reg.SP_CTRL_STRICT b) = 1 → (bit v 0 = false ∨ x.part &&& y.banks = 0 ∧ y.part &&& x.banks = 0) →
       (d.meetPair b x y).2 = some (if portOrder y.port < portOrder x.port then x else y))) ∧
  (∀ (s : State) (b e : Nat) (it : Item) (rest : List Item) (i : Instr) (p : Plan), b < 144 → s.dev.js = jsRunning →
     s.dev.paused = false → s.dev.get Reg.STEP_STATE_PHASE ≠ 2 → EngineRow b it.words i e → ((s.dev.bn b).eng e).cur = none →
     ((s.dev.bn b).eng e).queue = it :: rest → (e = 2 → (s.dev.bn b).last.cur = none) →
     s.dev.badRanges b (engLatch e s.dev b it).1 = none →
     (enginePlan e (s.dev.engNamed b e it) b (engLatch e s.dev b it).2).isOk = true →
     enginePlan e (s.dev.engTaken b e it rest) b (engLatch e s.dev b it).2 = .ok p →
     leaveOk (s.dev.engTaken b e it rest) b (leaveUnits (s.dev.engTaken b e it rest) (engLeave it.words)) = true →
     let d := s.dev.engStarted b e it rest
     d.slotsReady (p.fullSlots b) true → d.slotsReady (p.emptySlots b) false →
     let m := d.engMet b e it.words p
     (m.2 = none → (d.engRead b e it.words p).2 = none ∧ (p.run (d.engRead b e it.words p).1).2 = none) →
     exec i s = .next (s.withDev (match m.2 with
       | none => d.engWorked b e it.words p
       | some port => seqFault ((engDrop m.1 b e).conflict b port) b (recId it.words) 0))) ∧
  (∀ (s : State) (id : Nat) (p : Pkt), s.dev.netRuns = true → s.dev.arriving id 0 = some p →
     s.dev.routeBad p.src p.dst = false → p.loc ≠ noLoc → p.fe ≠ 1 →
     let m := s.dev.dmaMeet p.dst true p.addr p.data.length
     (m.2 = false → m.1.badWrite p.addr p.data.length = none) →
     exec (.bulkWrite id) s = .next (s.withDev (if m.2 then (m.1.dmaConflict p.dst p.loc p.ch).answer p 6 [] 6
       else (((m.1.metPartly p.addr p.data.length).wr p.addr p.data).answer p 3 [] 0).showPkt p)))
end

