-- ==== Sys2Proof/Laws/Meetings.lean ====
section
/-! SUPPORT. What the meetings of scratchpad ports and the correction of tag words leave as they were. -/

namespace Sys2Proof.Machine

variable (d : Dev)

/-! ### Two uses of ports -/

/-- Two uses that meet nowhere: of one port, or of banks that are disjoint. -/
abbrev PortUse.apart (x y : PortUse) : Prop := x.port = y.port ∨ x.banks &&& y.banks = 0

theorem Dev.meetPair_apart (b : Nat) {x y : PortUse} (h : x.apart y) : d.meetPair b x y = (d, none) := by
  rcases h with h | h <;> simp [Dev.meetPair, h]

/-- Where the banks of two users' ports meet: free amounts are counted for both. Without STRICT neither is refused. -/
theorem Dev.meetPair_lax (b : Nat) {x y : PortUse} (hp : x.port ≠ y.port) (hb : x.banks &&& y.banks ≠ 0)
    (h : (((({ d with free := d.free + 1 } : Dev).addWaits b x.port (fld (Config.freeWord d.free) 31 0)).addWaits b y.port
      (fld (Config.freeWord d.free) 63 32)).get (Reg.SP_CTRL_STRICT b)) ≠ 1) :
    d.meetPair b x y = ((({ d with free := d.free + 1 } : Dev).addWaits b x.port (fld (Config.freeWord d.free) 31 0)).addWaits b
      y.port (fld (Config.freeWord d.free) 63 32), none) := by
  unfold Dev.meetPair Dev.free?
  dsimp only
  rw [if_neg (by simp [hp, hb]), if_pos (by simp [h])]

/-- Waits count in no field that shares a bit with none of the port's counters. -/
theorem Dev.get_addWaits_ne (b port n : Nat) {f : Fld} (h : ∀ g ∈ portWaits b port, g.fits ∧ g.apart f) :
    (d.addWaits b port n).get f = d.get f := by
  unfold Dev.addWaits
  generalize portWaits b port = l at h
  induction l generalizing d with
  | nil => rfl
  | cons g l ih =>
    rw [List.foldl_cons, ih _ (fun x hx => h x (by simp [hx]))]
    exact Dev.get_addTo_ne d (h g (by simp)).1 n (h g (by simp)).2

/-- The counters of waits lie in other registers than SP_CTRL. -/
theorem portWaits_strict (b port : Nat) : ∀ g ∈ portWaits b port, g.fits ∧ g.apart (Reg.SP_CTRL_STRICT b) := by
  intro g hg
  unfold portWaits at hg
  split at hg <;> simp only [List.mem_cons, List.not_mem_nil, or_false] at hg <;>
    rcases hg with rfl | rfl <;> refine ⟨⟨?_, ?_⟩, Or.inl ?_⟩ <;> simp

theorem Dev.addWaits_strict (b port n : Nat) : (d.addWaits b port n).get (Reg.SP_CTRL_STRICT b) = d.get (Reg.SP_CTRL_STRICT b) :=
  d.get_addWaits_ne b port n (portWaits_strict b port)

/-! ### Meetings without a refusal -/

/-- What the counting of waits keeps, a meeting of two uses keeps. -/
theorem Dev.meetPair_keeps {α : Type} (g : Dev → α) (hg : ∀ (x : Dev) (f : Fld) (n : Nat), g (x.addTo f n) = g x)
    (hf : ∀ x : Dev, g { x with free := x.free + 1 } = g x) (b : Nat) (x y : PortUse) : g (d.meetPair b x y).1 = g d := by
  have fold : ∀ (port n : Nat) (x : Dev), g (x.addWaits b port n) = g x := by
    intro port n x
    unfold Dev.addWaits
    generalize portWaits b port = l
    induction l generalizing x with
    | nil => rfl
    | cons f l ih => rw [List.foldl_cons, ih, hg]
  unfold Dev.meetPair Dev.free?
  dsimp only
  split
  · rfl
  · split <;> rw [fold, fold, hf]

theorem Dev.meetPairs_keeps {α : Type} (g : Dev → α) (hg : ∀ (x : Dev) (f : Fld) (n : Nat), g (x.addTo f n) = g x)
    (hf : ∀ x : Dev, g { x with free := x.free + 1 } = g x) (b : Nat) (l : List (PortUse × PortUse)) :
    g (d.meetPairs b l).1 = g d := by
  induction l generalizing d with
  | nil => rfl
  | cons p l ih => exact (ih (d.meetPair b p.1 p.2).1).trans (d.meetPair_keeps g hg hf b p.1 p.2)

/-- Pairs of uses that are apart do not meet. -/
theorem Dev.meetPairs_apart (b : Nat) (l : List (PortUse × PortUse)) (h : ∀ p ∈ l, p.1.apart p.2) : d.meetPairs b l = (d, []) := by
  induction l with
  | nil => rfl
  | cons p l ih =>
    unfold Dev.meetPairs
    simp only [d.meetPair_apart b (h p (by simp)), ih (fun q hq => h q (by simp [hq])), Option.toList, List.append_nil]

/-- Without STRICT no meeting refuses a use. -/
theorem Dev.meetPairs_lax (b : Nat) (l : List (PortUse × PortUse)) (h : d.get (Reg.SP_CTRL_STRICT b) ≠ 1) :
    (d.meetPairs b l).2 = [] := by
  induction l generalizing d with
  | nil => rfl
  | cons p l ih =>
    have h2 : (d.meetPair b p.1 p.2).2 = none ∧ (d.meetPair b p.1 p.2).1.get (Reg.SP_CTRL_STRICT b) = d.get (Reg.SP_CTRL_STRICT b) := by
      have k : (Dev.addWaits (Dev.addWaits { d with free := d.free + 1 } b p.1.port (fld (Config.freeWord d.free) 31 0)) b
        p.2.port (fld (Config.freeWord d.free) 63 32)).get (Reg.SP_CTRL_STRICT b) = d.get (Reg.SP_CTRL_STRICT b) :=
        (Dev.addWaits_strict _ b _ _).trans (Dev.addWaits_strict _ b _ _)
      unfold Dev.meetPair Dev.free?
      dsimp only
      split
      · exact ⟨rfl, rfl⟩
      · rw [if_pos (by rw [k]; simp [h])]
        exact ⟨rfl, k⟩
    have h3 := ih (d.meetPair b p.1 p.2).1 (by rw [h2.2]; exact h)
    unfold Dev.meetPairs
    dsimp only
    rw [h2.1, h3]
    rfl

/-- The pairs that a user's meeting looks at. -/
def Dev.meetPairsOf (d : Dev) (b : Nat) (own : List PortUse) : List (PortUse × PortUse) :=
  pairsOf own ++ own.flatMap (fun o => ((spUses d b).filter (fun u => !own.any (fun o => o.user = u.user))).map (fun u => (o, u)))

/-- A meeting in which every pair is apart changes nothing and refuses nothing. -/
theorem Dev.meet_apart (b : Nat) (own : List PortUse) (h : ∀ p ∈ d.meetPairsOf b own, p.1.apart p.2) : d.meet b own = (d, none) := by
  unfold Dev.meet
  dsimp only
  rw [show d.meetPairs b (pairsOf own ++ own.flatMap _) = (d, []) from d.meetPairs_apart b _ h]
  rfl

/-- Without STRICT a meeting refuses nothing, and leaves what the counting of waits leaves. -/
theorem Dev.meet_lax (b : Nat) (own : List PortUse) (h : d.get (Reg.SP_CTRL_STRICT b) ≠ 1) :
    d.meet b own = ((d.meetPairs b (d.meetPairsOf b own)).1, none) := by
  have e := d.meetPairs_lax b (d.meetPairsOf b own) h
  unfold Dev.meetPairsOf at e
  unfold Dev.meet
  dsimp only
  rw [e]
  rfl

theorem Dev.meet_keeps {α : Type} (g : Dev → α) (hg : ∀ (x : Dev) (f : Fld) (n : Nat), g (x.addTo f n) = g x)
    (hf : ∀ x : Dev, g { x with free := x.free + 1 } = g x) (b : Nat) (own : List PortUse)
    (h : d.get (Reg.SP_CTRL_STRICT b) ≠ 1) : g (d.meet b own).1 = g d := by
  rw [d.meet_lax b own h]
  exact d.meetPairs_keeps g hg hf b _

/-! ### Tag words -/

/-- Clean tag words need no correction. -/
theorem Dev.tagFix_clean (l : List Nat) (h : ∀ k ∈ l, d.tagErr k = 0) : d.tagFix l = d := by
  unfold Dev.tagFix
  induction l with
  | nil => rfl
  | cons k l ih =>
    have : d.tagErr k ≠ 1 := by rw [h k (by simp)]; decide
    simp only [List.foldl_cons, this, if_false]
    exact ih (fun k hk => h k (by simp [hk]))

/-- Clean tag words hold no uncorrectable error. -/
theorem Dev.tagBad_clean (l : List Nat) (h : ∀ k ∈ l, d.tagErr k = 0) : d.tagBad l = none := by
  simp only [Dev.tagBad, List.find?_eq_none]
  intro k hk
  simp [h k hk]

@[simp] theorem Dev.tagFix_ageBeats (l : List Nat) : (d.tagFix l).ageBeats = d.ageBeats := by
  unfold Dev.tagFix
  induction l generalizing d with
  | nil => rfl
  | cons k l ih => simp only [List.foldl_cons]; rw [ih]; split <;> simp [Dev.inc]
@[simp] theorem Dev.tagFix_liveBeats (l : List Nat) : (d.tagFix l).liveBeats = d.liveBeats := by
  unfold Dev.tagFix
  induction l generalizing d with
  | nil => rfl
  | cons k l ih => simp only [List.foldl_cons]; rw [ih]; split <;> simp [Dev.inc]
@[simp] theorem Dev.tagFix_aonBeat (l : List Nat) : (d.tagFix l).aonBeat = d.aonBeat := by
  unfold Dev.tagFix
  induction l generalizing d with
  | nil => rfl
  | cons k l ih => simp only [List.foldl_cons]; rw [ih]; split <;> simp [Dev.inc]
@[simp] theorem Dev.tagFix_arith (l : List Nat) : (d.tagFix l).arith = d.arith := by
  unfold Dev.tagFix
  induction l generalizing d with
  | nil => rfl
  | cons k l ih => simp only [List.foldl_cons]; rw [ih]; split <;> simp [Dev.inc]
@[simp] theorem Dev.tagFix_bench (l : List Nat) : (d.tagFix l).bench = d.bench := by
  unfold Dev.tagFix
  induction l generalizing d with
  | nil => rfl
  | cons k l ih => simp only [List.foldl_cons]; rw [ih]; split <;> simp [Dev.inc]
@[simp] theorem Dev.tagFix_bist (l : List Nat) : (d.tagFix l).bist = d.bist := by
  unfold Dev.tagFix
  induction l generalizing d with
  | nil => rfl
  | cons k l ih => simp only [List.foldl_cons]; rw [ih]; split <;> simp [Dev.inc]
@[simp] theorem Dev.tagFix_boot (l : List Nat) : (d.tagFix l).boot = d.boot := by
  unfold Dev.tagFix
  induction l generalizing d with
  | nil => rfl
  | cons k l ih => simp only [List.foldl_cons]; rw [ih]; split <;> simp [Dev.inc]
@[simp] theorem Dev.tagFix_chans (l : List Nat) : (d.tagFix l).chans = d.chans := by
  unfold Dev.tagFix
  induction l generalizing d with
  | nil => rfl
  | cons k l ih => simp only [List.foldl_cons]; rw [ih]; split <;> simp [Dev.inc]
@[simp] theorem Dev.tagFix_countedBeats (l : List Nat) : (d.tagFix l).countedBeats = d.countedBeats := by
  unfold Dev.tagFix
  induction l generalizing d with
  | nil => rfl
  | cons k l ih => simp only [List.foldl_cons]; rw [ih]; split <;> simp [Dev.inc]
@[simp] theorem Dev.tagFix_errs (l : List Nat) : (d.tagFix l).errs = d.errs := by
  unfold Dev.tagFix
  induction l generalizing d with
  | nil => rfl
  | cons k l ih => simp only [List.foldl_cons]; rw [ih]; split <;> simp [Dev.inc]
@[simp] theorem Dev.tagFix_faults (l : List Nat) : (d.tagFix l).faults = d.faults := by
  unfold Dev.tagFix
  induction l generalizing d with
  | nil => rfl
  | cons k l ih => simp only [List.foldl_cons]; rw [ih]; split <;> simp [Dev.inc]
@[simp] theorem Dev.tagFix_fences (l : List Nat) : (d.tagFix l).fences = d.fences := by
  unfold Dev.tagFix
  induction l generalizing d with
  | nil => rfl
  | cons k l ih => simp only [List.foldl_cons]; rw [ih]; split <;> simp [Dev.inc]
@[simp] theorem Dev.tagFix_flash (l : List Nat) : (d.tagFix l).flash = d.flash := by
  unfold Dev.tagFix
  induction l generalizing d with
  | nil => rfl
  | cons k l ih => simp only [List.foldl_cons]; rw [ih]; split <;> simp [Dev.inc]
@[simp] theorem Dev.tagFix_floors (l : List Nat) : (d.tagFix l).floors = d.floors := by
  unfold Dev.tagFix
  induction l generalizing d with
  | nil => rfl
  | cons k l ih => simp only [List.foldl_cons]; rw [ih]; split <;> simp [Dev.inc]
@[simp] theorem Dev.tagFix_frz (l : List Nat) : (d.tagFix l).frz = d.frz := by
  unfold Dev.tagFix
  induction l generalizing d with
  | nil => rfl
  | cons k l ih => simp only [List.foldl_cons]; rw [ih]; split <;> simp [Dev.inc]
@[simp] theorem Dev.tagFix_gated (l : List Nat) : (d.tagFix l).gated = d.gated := by
  unfold Dev.tagFix
  induction l generalizing d with
  | nil => rfl
  | cons k l ih => simp only [List.foldl_cons]; rw [ih]; split <;> simp [Dev.inc]
@[simp] theorem Dev.tagFix_granted (l : List Nat) : (d.tagFix l).granted = d.granted := by
  unfold Dev.tagFix
  induction l generalizing d with
  | nil => rfl
  | cons k l ih => simp only [List.foldl_cons]; rw [ih]; split <;> simp [Dev.inc]
@[simp] theorem Dev.tagFix_hotSensors (l : List Nat) : (d.tagFix l).hotSensors = d.hotSensors := by
  unfold Dev.tagFix
  induction l generalizing d with
  | nil => rfl
  | cons k l ih => simp only [List.foldl_cons]; rw [ih]; split <;> simp [Dev.inc]
@[simp] theorem Dev.tagFix_hubGrant (l : List Nat) : (d.tagFix l).hubGrant = d.hubGrant := by
  unfold Dev.tagFix
  induction l generalizing d with
  | nil => rfl
  | cons k l ih => simp only [List.foldl_cons]; rw [ih]; split <;> simp [Dev.inc]
@[simp] theorem Dev.tagFix_job (l : List Nat) : (d.tagFix l).job = d.job := by
  unfold Dev.tagFix
  induction l generalizing d with
  | nil => rfl
  | cons k l ih => simp only [List.foldl_cons]; rw [ih]; split <;> simp [Dev.inc]
@[simp] theorem Dev.tagFix_lastBist (l : List Nat) : (d.tagFix l).lastBist = d.lastBist := by
  unfold Dev.tagFix
  induction l generalizing d with
  | nil => rfl
  | cons k l ih => simp only [List.foldl_cons]; rw [ih]; split <;> simp [Dev.inc]
@[simp] theorem Dev.tagFix_lastBistDigest (l : List Nat) : (d.tagFix l).lastBistDigest = d.lastBistDigest := by
  unfold Dev.tagFix
  induction l generalizing d with
  | nil => rfl
  | cons k l ih => simp only [List.foldl_cons]; rw [ih]; split <;> simp [Dev.inc]
@[simp] theorem Dev.tagFix_lat (l : List Nat) : (d.tagFix l).lat = d.lat := by
  unfold Dev.tagFix
  induction l generalizing d with
  | nil => rfl
  | cons k l ih => simp only [List.foldl_cons]; rw [ih]; split <;> simp [Dev.inc]
@[simp] theorem Dev.tagFix_leaveQ (l : List Nat) : (d.tagFix l).leaveQ = d.leaveQ := by
  unfold Dev.tagFix
  induction l generalizing d with
  | nil => rfl
  | cons k l ih => simp only [List.foldl_cons]; rw [ih]; split <;> simp [Dev.inc]
@[simp] theorem Dev.tagFix_log (l : List Nat) : (d.tagFix l).log = d.log := by
  unfold Dev.tagFix
  induction l generalizing d with
  | nil => rfl
  | cons k l ih => simp only [List.foldl_cons]; rw [ih]; split <;> simp [Dev.inc]
@[simp] theorem Dev.tagFix_logHeld (l : List Nat) : (d.tagFix l).logHeld = d.logHeld := by
  unfold Dev.tagFix
  induction l generalizing d with
  | nil => rfl
  | cons k l ih => simp only [List.foldl_cons]; rw [ih]; split <;> simp [Dev.inc]
@[simp] theorem Dev.tagFix_maxNeed (l : List Nat) : (d.tagFix l).maxNeed = d.maxNeed := by
  unfold Dev.tagFix
  induction l generalizing d with
  | nil => rfl
  | cons k l ih => simp only [List.foldl_cons]; rw [ih]; split <;> simp [Dev.inc]
@[simp] theorem Dev.tagFix_mem (l : List Nat) : (d.tagFix l).mem = d.mem := by
  unfold Dev.tagFix
  induction l generalizing d with
  | nil => rfl
  | cons k l ih => simp only [List.foldl_cons]; rw [ih]; split <;> simp [Dev.inc]
@[simp] theorem Dev.tagFix_net (l : List Nat) : (d.tagFix l).net = d.net := by
  unfold Dev.tagFix
  induction l generalizing d with
  | nil => rfl
  | cons k l ih => simp only [List.foldl_cons]; rw [ih]; split <;> simp [Dev.inc]
@[simp] theorem Dev.tagFix_ops (l : List Nat) : (d.tagFix l).ops = d.ops := by
  unfold Dev.tagFix
  induction l generalizing d with
  | nil => rfl
  | cons k l ih => simp only [List.foldl_cons]; rw [ih]; split <;> simp [Dev.inc]
@[simp] theorem Dev.tagFix_outbox (l : List Nat) : (d.tagFix l).outbox = d.outbox := by
  unfold Dev.tagFix
  induction l generalizing d with
  | nil => rfl
  | cons k l ih => simp only [List.foldl_cons]; rw [ih]; split <;> simp [Dev.inc]
@[simp] theorem Dev.tagFix_pins (l : List Nat) : (d.tagFix l).pins = d.pins := by
  unfold Dev.tagFix
  induction l generalizing d with
  | nil => rfl
  | cons k l ih => simp only [List.foldl_cons]; rw [ih]; split <;> simp [Dev.inc]
@[simp] theorem Dev.tagFix_railHist (l : List Nat) : (d.tagFix l).railHist = d.railHist := by
  unfold Dev.tagFix
  induction l generalizing d with
  | nil => rfl
  | cons k l ih => simp only [List.foldl_cons]; rw [ih]; split <;> simp [Dev.inc]
@[simp] theorem Dev.tagFix_resetAt (l : List Nat) : (d.tagFix l).resetAt = d.resetAt := by
  unfold Dev.tagFix
  induction l generalizing d with
  | nil => rfl
  | cons k l ih => simp only [List.foldl_cons]; rw [ih]; split <;> simp [Dev.inc]
@[simp] theorem Dev.tagFix_resting (l : List Nat) : (d.tagFix l).resting = d.resting := by
  unfold Dev.tagFix
  induction l generalizing d with
  | nil => rfl
  | cons k l ih => simp only [List.foldl_cons]; rw [ih]; split <;> simp [Dev.inc]
@[simp] theorem Dev.tagFix_results (l : List Nat) : (d.tagFix l).results = d.results := by
  unfold Dev.tagFix
  induction l generalizing d with
  | nil => rfl
  | cons k l ih => simp only [List.foldl_cons]; rw [ih]; split <;> simp [Dev.inc]
@[simp] theorem Dev.tagFix_saved (l : List Nat) : (d.tagFix l).saved = d.saved := by
  unfold Dev.tagFix
  induction l generalizing d with
  | nil => rfl
  | cons k l ih => simp only [List.foldl_cons]; rw [ih]; split <;> simp [Dev.inc]
@[simp] theorem Dev.tagFix_slipLeft (l : List Nat) : (d.tagFix l).slipLeft = d.slipLeft := by
  unfold Dev.tagFix
  induction l generalizing d with
  | nil => rfl
  | cons k l ih => simp only [List.foldl_cons]; rw [ih]; split <;> simp [Dev.inc]
@[simp] theorem Dev.tagFix_smiper (l : List Nat) : (d.tagFix l).smiper = d.smiper := by
  unfold Dev.tagFix
  induction l generalizing d with
  | nil => rfl
  | cons k l ih => simp only [List.foldl_cons]; rw [ih]; split <;> simp [Dev.inc]
@[simp] theorem Dev.tagFix_staged (l : List Nat) : (d.tagFix l).staged = d.staged := by
  unfold Dev.tagFix
  induction l generalizing d with
  | nil => rfl
  | cons k l ih => simp only [List.foldl_cons]; rw [ih]; split <;> simp [Dev.inc]
@[simp] theorem Dev.tagFix_step (l : List Nat) : (d.tagFix l).step = d.step := by
  unfold Dev.tagFix
  induction l generalizing d with
  | nil => rfl
  | cons k l ih => simp only [List.foldl_cons]; rw [ih]; split <;> simp [Dev.inc]
@[simp] theorem Dev.tagFix_tags (l : List Nat) : (d.tagFix l).tags = d.tags := by
  unfold Dev.tagFix
  induction l generalizing d with
  | nil => rfl
  | cons k l ih => simp only [List.foldl_cons]; rw [ih]; split <;> simp [Dev.inc]
@[simp] theorem Dev.tagFix_time (l : List Nat) : (d.tagFix l).time = d.time := by
  unfold Dev.tagFix
  induction l generalizing d with
  | nil => rfl
  | cons k l ih => simp only [List.foldl_cons]; rw [ih]; split <;> simp [Dev.inc]
@[simp] theorem Dev.tagFix_unlocked (l : List Nat) : (d.tagFix l).unlocked = d.unlocked := by
  unfold Dev.tagFix
  induction l generalizing d with
  | nil => rfl
  | cons k l ih => simp only [List.foldl_cons]; rw [ih]; split <;> simp [Dev.inc]
@[simp] theorem Dev.tagFix_upq (l : List Nat) : (d.tagFix l).upq = d.upq := by
  unfold Dev.tagFix
  induction l generalizing d with
  | nil => rfl
  | cons k l ih => simp only [List.foldl_cons]; rw [ih]; split <;> simp [Dev.inc]

end Sys2Proof.Machine
end

