-- ==== Sys2Proof/Laws/Reads.lean ====
section
/-! SUPPORT. A read, and a write in part, of memory without stored errors leaves the device as it was. -/

namespace Sys2Proof.Machine

variable (d : Dev)

theorem Dev.errIn_clean (h : d.errs = []) (a n : Nat) : d.errIn a n = [] := by simp [Dev.errIn, h]

theorem Dev.badPhys_clean (h : d.errs = []) (a n : Nat) : d.badPhys a n = none := by
  simp [Dev.badPhys, Dev.errIn_clean d h]

theorem Dev.correctReads_clean (h : d.errs = []) (b : Nat) (l : List (Nat × Nat)) : d.correctReads b l = d := by
  have e : l.flatMap (fun p => d.errIn (spBase b + p.1) p.2) = [] := by simp [Dev.errIn_clean d h]
  simp [Dev.correctReads, e, uniq]

/-- A clean read answers the bytes and changes nothing. -/
theorem Dev.rdPhys_clean (h : d.errs = []) (a n : Nat) : d.rdPhys a n = (d, .ok (d.bytes a n)) := by
  simp only [Dev.rdPhys, Dev.badPhys_clean d h, Dev.errIn_clean d h, List.foldl_nil, Dev.correctReads_clean d h, ite_self]

theorem Dev.readPhys_clean (h : d.errs = []) (l : List (Nat × Nat)) : d.readPhys l = d := by
  unfold Dev.readPhys
  induction l with
  | nil => rfl
  | cons r l ih => simpa only [List.foldl_cons, Dev.rdPhys_clean d h] using ih

theorem Dev.readJob_clean (h : d.errs = []) (a n : Nat) : d.readJob a n = d := by
  unfold Dev.readJob
  split
  · exact Dev.readPhys_clean d h _
  · rfl

theorem Dev.readShape_clean (h : d.errs = []) (loc a : Nat) : d.readShape loc a = d := by
  unfold Dev.readShape
  split
  · split
    · exact Dev.readPhys_clean d h _
    · rfl
  · exact Dev.readJob_clean d h _ _

theorem Dev.readMap_clean (h : d.errs = []) (g k : Nat) : d.readMap g k = d := by
  unfold Dev.readMap
  dsimp only
  split
  · rw [Dev.readJob_clean d h, Dev.readJob_clean d h]
  · rfl

theorem Dev.readMaps_clean (h : d.errs = []) (w : List W64) : d.readMaps w = d := by
  have fold : ∀ (g : Nat) (l : List Nat), l.foldl (fun d k => d.readMap g k) d = d := by
    intro g l
    induction l with
    | nil => rfl
    | cons k l ih => rw [List.foldl_cons, Dev.readMap_clean d h]; exact ih
  unfold Dev.readMaps
  dsimp only
  rw [fold, fold, ite_self]

theorem Dev.readAttic_clean (h : d.errs = []) (a : Attic) (u : AtticUse) : d.readAttic a u = d := by
  unfold Dev.readAttic
  simp only [Dev.readJob_clean d h, ite_self]

theorem Dev.metPartly_clean (h : d.errs = []) (a n : Nat) : d.metPartly a n = d := by
  simp [Dev.metPartly, Dev.errIn_clean d h]

theorem Dev.metRuns_clean (h : d.errs = []) (l : List (Xl × Nat)) : d.metRuns l = d := by
  unfold Dev.metRuns
  induction l with
  | nil => rfl
  | cons r l ih => simpa only [List.foldl_cons, Dev.metPartly_clean d h] using ih

end Sys2Proof.Machine
end

