-- ==== Sys2Proof/WellFormed.lean ====
section
/-! DEFINITION. Well-formed commands: every unit, number and length is one that the spec has. A command that is not
well-formed names nothing of the device, and its meaning leaves the state as it is or refuses it. -/

namespace Sys2Proof

/-- A bench (01 R21, R22). -/
def wfBench (b : Nat) : Bool := decide (b < 144)

/-- A DMA channel of a location: bench, floor or hub (09 R261). -/
def wfChannel (loc ch : Nat) : Bool := decide (loc ≤ 152) && decide (ch < if loc = 152 then 32 else 8)

/-- The rank of a leaf (08 R251). -/
def wfRank (r : Nat) : Bool := decide (r < 168)

/-- A Smiper packet: at most 1,138 parameter words, from a port of the device (15 R400, R401; 14 R383). -/
def wfPacket (h : Hdr) (w : List W64) : Bool := decide (w.length ≤ 1138) && decide (h.src.port < 2) && decide (h.version < 16)

/-- A flit carries 256 bytes (13 R353). -/
def wfFlit (f : Flit) : Bool := decide (f.payload.length = 256)

/-- A tagged access that can wait (07 R222). -/
def wfAccess : Access → Bool
  | .engine b e => wfBench b && decide (e < 6)
  | .channel loc ch => wfChannel loc ch

/-- A unit that forms its output again (17 R465). -/
def wfReform : ReformUnit → Bool
  | .vector b => wfBench b
  | .awl b => wfBench b
  | .last b => wfBench b
  | .router b => wfBench b
  | .channel loc ch => wfChannel loc ch
  | .former loc => decide (loc ≤ 152)
  | .update k => decide (k < 8)

/-- The commands that are well-formed. -/
def Instr.wellFormed : Instr → Bool
  | .identify h w => wfPacket h w
  | .identifyPart h w => wfPacket h w
  | .sessionOpen h w => wfPacket h w
  | .sessionTake h w => wfPacket h w
  | .unknownOpcode h opcode w => wfPacket h w && opcode < 0x10000
  | .domainForm h w => wfPacket h w
  | .domainFormEx h w => wfPacket h w
  | .domainFormTimeout => true
  | .regRead h w => wfPacket h w
  | .regReadBlock h w => wfPacket h w
  | .regWrite h w => wfPacket h w
  | .regWriteMulti h w => wfPacket h w
  | .jobXlateClear h w => wfPacket h w
  | .faultStatusClear h w => wfPacket h w
  | .frzMatchWrite h w => wfPacket h w
  | .hpCtrlLinkWrite h w => wfPacket h w
  | .hostAddressWrite h w => wfPacket h w
  | .statusRead h w => wfPacket h w
  | .statusPageRead h w => wfPacket h w
  | .resultRead h w => wfPacket h w
  | .resultReadRaw h w => wfPacket h w
  | .opAbort h w => wfPacket h w
  | .opAbortClass h w => wfPacket h w
  | .longOpStart slot => slot < 256
  | .memRead h w => wfPacket h w
  | .memReadEx h w => wfPacket h w
  | .memWrite h w => wfPacket h w
  | .memWriteEx h w => wfPacket h w
  | .copy h w => wfPacket h w
  | .descSubmit h w => wfPacket h w
  | .windowOpen h w => wfPacket h w
  | .windowWrite h w => wfPacket h w
  | .jobLoad h w => wfPacket h w
  | .jobLoadEx h w => wfPacket h w
  | .jobRun h w => wfPacket h w
  | .jobRunEx h w => wfPacket h w
  | .jobJoinBeat => true
  | .preempt h w => wfPacket h w
  | .preemptAt h w => wfPacket h w
  | .resume h w => wfPacket h w
  | .resumeAt h w => wfPacket h w
  | .jobUnload h w => wfPacket h w
  | .jobUnloadEx h w => wfPacket h w
  | .segmentMap h w => wfPacket h w
  | .segmentWrite h w => wfPacket h w
  | .halt h w => wfPacket h w
  | .haltChannel h w => wfPacket h w
  | .step h w => wfPacket h w
  | .stepEx h w => wfPacket h w
  | .groupPreset h w => wfPacket h w
  | .groupWrite h w => wfPacket h w
  | .commitRead h w => wfPacket h w
  | .commitReadEx h w => wfPacket h w
  | .countersRead h w => wfPacket h w
  | .countersReadEx h w => wfPacket h w
  | .scrub h w => wfPacket h w
  | .scrubEx h w => wfPacket h w
  | .bist h w => wfPacket h w
  | .bistEx h w => wfPacket h w
  | .bistRegionStart region => region < 0x10000
  | .bistRegionEnd region _ => region < 0x10000
  | .powerState h w => wfPacket h w
  | .powerStateEx h w => wfPacket h w
  | .powerRead h w => wfPacket h w
  | .powerReadEx h w => wfPacket h w
  | .reset h w => wfPacket h w
  | .resetAt h w => wfPacket h w
  | .resetAtBeat => true
  | .attest h w => wfPacket h w
  | .attestEx h w => wfPacket h w
  | .lifecycleAdvance h w => wfPacket h w
  | .lifecycleAuth h w => wfPacket h w
  | .firmwareUpdate h w => wfPacket h w
  | .flashWrite h w => wfPacket h w
  | .freeze h w => wfPacket h w
  | .freezeAt h w => wfPacket h w
  | .stateRead h w => wfPacket h w
  | .ijtagAccess h w => wfPacket h w
  | .tapScan _ => true
  | .logRead h w => wfPacket h w
  | .logReadEx h w => wfPacket h w
  | .thaw h w => wfPacket h w
  | .thawAt h w => wfPacket h w
  | .thawTakeEffect => true
  | .smbStatus => true
  | .smbTemp => true
  | .smbPower => true
  | .smbIdent => true
  | .smbWake => true
  | .smbReset => true
  | .smbAlertResponse => true
  | .recoveryErase slot => slot < 256
  | .recoveryWrite off data => off < 2 ^ 32 && data.length < 256
  | .recoveryActivate slot => slot < 256
  | .aonPowerOn straps => straps < 8
  | .resetRelease => true
  | .cellarTrainTimeout k => k < 8
  | .bootRom => true
  | .warmReset => true
  | .pwrgoodFall => true
  | .powerOff => true
  | .hostFrameReceive port _ => port < 2
  | .arpRequest port _ => port < 2
  | .neighbourSolicitation port _ => port < 2
  | .echoRequest port _ => port < 2
  | .hostLinkUp port => port < 2
  | .hostLinkDown port => port < 2
  | .ptpSync m => m.port < 2 && m.domain < 256 && m.seqId < 0x10000
  | .followUp m => m.port < 2 && m.domain < 256 && m.seqId < 0x10000
  | .delayReq m => m.port < 2 && m.domain < 256 && m.seqId < 0x10000
  | .delayResp m => m.port < 2 && m.domain < 256 && m.seqId < 0x10000
  | .announce m => m.port < 2 && m.domain < 256 && m.seqId < 0x10000
  | .ptpHoldover => true
  | .recordFetch b => wfBench b
  | .laneRowRecord b => wfBench b
  | .batchRowArrive b => wfBench b
  | .batchTimeout b => wfBench b
  | .laneResidueMismatch b lane _ => wfBench b && lane < 256
  | .compact b => wfBench b
  | .compress b => wfBench b
  | .expand b => wfBench b
  | .gather b => wfBench b
  | .scatterAdd b => wfBench b
  | .sort b => wfBench b
  | .wsum b => wfBench b
  | .raggedLoop b => wfBench b
  | .routeDispatch b => wfBench b
  | .routeCollect b => wfBench b
  | .transpose b => wfBench b
  | .transposeInPlace b => wfBench b
  | .select loc => loc < 152
  | .vectorRecord b => wfBench b
  | .outputReform u _ => wfReform u
  | .dmaTwoD loc ch => wfChannel loc ch
  | .dmaCircular loc ch => wfChannel loc ch
  | .dmaShape loc ch => wfChannel loc ch
  | .dmaBurstIssue loc ch => wfChannel loc ch
  | .dmaLimitReread loc ch => wfChannel loc ch
  | .limitTimeout loc ch => wfChannel loc ch
  | .dmaStop loc ch => wfChannel loc ch
  | .bulkWrite _ => true
  | .bulkReadReq _ => true
  | .bulkReadData _ => true
  | .bulkAck _ _ => true
  | .bulkNack _ => true
  | .bulkMulticast _ => true
  | .bulkReduce _ => true
  | .reduceTimeout b => wfBench b
  | .linkCrcReplay b port failures => wfBench b && 1 ≤ port && port ≤ 5 && 1 ≤ failures
  | .mergeWindowClose b slot => wfBench b && slot < 16384
  | .tagWaitSatisfied a => wfAccess a
  | .slotTimeout a => wfAccess a
  | .scratchpadScrubRead b bank seen => wfBench b && bank < 64 && seen.all (fun p => p.1 < 16 && (p.2 = 1 || p.2 = 3))
  | .scratchpadEccWriteback b off => wfBench b && off < 0x800000 && off % 8 = 0
  | .cellarScrubRead k ch _ => k < 8 && ch < 32
  | .cellarEccWriteback k addr => k < 8 && addr < 0x9000000000 && addr % 64 = 0
  | .stash k => k < 8
  | .recall k => k < 8
  | .free k => k < 8
  | .phaseRecord p => p < 12
  | .flitWrite p f => p < 12 && wfFlit f
  | .flitReduceAdd p f => p < 12 && wfFlit f
  | .flitReadReq p f => p < 12 && wfFlit f
  | .flitReadData p f => p < 12 && wfFlit f
  | .flitStream p f => p < 12 && wfFlit f
  | .flitIdle p f => p < 12 && wfFlit f
  | .beatMessage p f _ => p < 12 && wfFlit f
  | .flood p f => p < 12 && wfFlit f
  | .retryReq p f => p < 12 && wfFlit f
  | .resendTimeout p seq => p < 12 && seq < 1024
  | .nack p f => p < 12 && wfFlit f
  | .poll p f => p < 12 && wfFlit f
  | .result p f => p < 12 && wfFlit f
  | .vote p f => p < 12 && wfFlit f
  | .voteResult p f => p < 12 && wfFlit f
  | .norm p f => p < 12 && wfFlit f
  | .fprint p f => p < 12 && wfFlit f
  | .cal p f _ => p < 12 && wfFlit f
  | .laneLoss p lane => p < 12 && lane < 4
  | .retrainComplete p => p < 12
  | .portFailed p => p < 12
  | .beatSkew p => p < 12
  | .degradeEffect => true
  | .abortEffect => true
  | .preemptEffect => true
  | .freezeEffect => true
  | .freezePin => true
  | .beat => true
  | .syncArrive rank fence => wfRank rank && fence < 0x10000
  | .fenceRelease fence => fence < 0x10000
  | .syncTimeout fence => fence < 0x10000
  | .slipReq rank beats record => wfRank rank && beats < 0x10000 && record < 0x10000
  | .slip fence beats => fence < 0x10000 && beats < 0x10000
  | .domainFencePoll fence => fence < 0x10000
  | .domainFenceResult fence => fence < 0x10000
  | .quiesced rank => wfRank rank
  | .saveComplete => true
  | .restoreComplete => true
  | .unloadComplete => true
  | .stepStart => true
  | .elementwise k => k < 8
  | .orthoMomentum k => k < 8
  | .orthoApply k => k < 8
  | .floorVote k => k < 8
  | .voteClose => true
  | .stepReplayStart => true
  | .leaveRequest b => b < 1024
  | .leaveGrant => true
  | .railMeasure rails => rails.length = 10
  | .tempSensorRead temps => temps.length = 142
  | .thermalTrip sensor _ => sensor < 142
  | .clockGateOpen domain => domain < 164
  | .clockGateIdle domain => domain < 164
  | .pllLocked pll => pll < 12
  | .logEntryWrite => true
  | .jobLoadDone => true
  | .domainFormDone => true
  | .scrubDone => true
  | .attestDone => true
  | .firmwareUpdateDone => true
  | .flashWriteDone => true
  | .flitCrcMismatch p missing _ => p < 12 && missing.all (fun n => n < 1024)
  | .freezeNHigh => true
  | .smbUnlistedCommand code => code < 256

end Sys2Proof
end

