-- ==== Sys2Proof/Tests/Slice0.lean ====
section
/-! SUPPORT. Tests: ill-formed terms refused, a witness for the hypotheses of each statement, small steps. -/

open Sys2Proof Sys2Proof.Machine

namespace Sys2Proof.Tests

set_option Elab.async false

/-! ### Small states -/

/-- The device of the reset state with a change. -/
def at_ (f : Dev → Dev) : State := State.reset.withDev (f State.reset.dev)

/-- A session is open: id 7, no command yet. -/
def live : State := at_ (fun d => d.set Reg.SM_STATE_SESSION 7)

/-- The live state with a change of its device. -/
def liveAt (f : Dev → Dev) : State := live.withDev (f live.dev)

/-- A packet outside the sequence. -/
def ask : Hdr := { noseq := true }

/-- The next packet in the sequence. -/
def snd : Hdr := { seq := 1, session := 7 }

/-- What `Heard` says, as a Bool. -/
def heardB (c : Cmd) (s : State) (h : Hdr) (w : List W64) : Bool :=
  s.dev.serving && h.version = 1 && c.len w && w.length ≤ 1138 && s.dev.admits c.op && c.states.contains s.dev.life && c.pre s.dev

theorem heard_of {c : Cmd} {s : State} {h : Hdr} {w : List W64} (x : heardB c s h w = true) : Heard c s h w := by
  simp only [heardB, Bool.and_eq_true, decide_eq_true_eq, List.contains_iff_mem] at x
  obtain ⟨⟨⟨⟨⟨⟨a, b⟩, e⟩, f⟩, g⟩, i⟩, j⟩ := x
  exact ⟨a, b, e, f, g, i, j⟩

theorem asked_of {c : Cmd} {s : State} {h : Hdr} {w : List W64} (x : (heardB c s h w && h.noseq) = true) : Asked c s h w := by
  rw [Bool.and_eq_true] at x
  exact ⟨heard_of x.1, x.2⟩

theorem sent_of {c : Cmd} {s : State} {h : Hdr} {w : List W64}
    (x : (heardB c s h w && !h.noseq && h.session != 0 && h.session.toNat == s.dev.get Reg.SM_STATE_SESSION &&
      h.seq == s.dev.expected && s.dev.smiper.heldCmds.isEmpty) = true) : Sent c s h w := by
  simp only [Bool.and_eq_true, Bool.not_eq_true', bne_iff_ne, ne_eq, beq_iff_eq, List.isEmpty_iff] at x
  obtain ⟨⟨⟨⟨⟨a, b⟩, e⟩, f⟩, g⟩, i⟩ := x
  exact ⟨heard_of a, b, ⟨e, f⟩, g, i⟩

/-- An Except that is not an error is a value. -/
theorem ok_of {ε α : Type} {x : Except ε α} (h : x.toBool = true) : ∃ a, x = .ok a := by
  cases x with
  | ok a => exact ⟨a, rfl⟩
  | error e => cases h

theorem some_of {α : Type} {x : Option α} (h : x.isSome = true) : ∃ a, x = some a := Option.isSome_iff_exists.1 h

/-- The live device in a job state. -/
def jobIn (js : Nat) : State := liveAt (fun d => d.setJs js)

/-- The live device with these long operations. -/
def withOps (l : List LongOp) : State := liveAt (fun d => { d with ops := l })

/-- An operation in slot 0: its opcode, parameters and whether it runs. -/
abbrev opn (op : Nat) (w : List W64) (r : Bool) : LongOp := { slot := 0, opcode := op, params := w, running := r }

/-- The live device once its freeze has taken effect. -/
def frozen : State := liveAt (fun d => d.set Reg.FRZ_STATUS_FROZEN 1)

/-- Slot 0's operation in progress, its checks passed. -/
abbrev rdy (op : Nat) (w : List W64) : LongOp := { slot := 0, opcode := op, params := w, running := true, ready := true }

/-- The live device with an operation in progress whose checks have passed, and its job state. -/
def running (op : Nat) (w : List W64) (js : Nat) : State := liveAt (fun d => { d with ops := [rdy op w] }.setJs js)

/-- A flit with its CRC. -/
def sealed (w0 w1 : W64) (l : List Byte) : Flit :=
  { word0 := w0, word1 := putFld w1 63 32 (flCrc { word0 := w0, word1 := w1, payload := l }), payload := l }

theorem crcR_lt (l : List Byte) (c : Nat) (h : c < 2 ^ 32) : crcR 0x82F63B78 c l < 2 ^ 32 := by
  have bits : ∀ n c, c < 2 ^ 32 → crcBitsR 0x82F63B78 n c < 2 ^ 32 := by
    intro n
    induction n with
    | zero => exact fun c h => h
    | succ n ih =>
      intro c h
      refine ih _ ?_
      unfold crcStepR
      split
      · exact Nat.xor_lt_two_pow (by omega) (by decide)
      · omega
  induction l generalizing c with
  | nil => exact h
  | cons b t ih => exact ih _ (bits _ _ (Nat.xor_lt_two_pow h (Nat.lt_trans b.isLt (by decide))))

theorem good_sealed (w0 w1 : W64) (l : List Byte) (h : l.length = 256) : flGood (sealed w0 w1 l) = true := by
  have again : ∀ v, putFld (putFld w1 63 32 v) 63 32 0 = putFld w1 63 32 0 := by
    intro v
    apply BitVec.eq_of_toNat_eq
    have hv := putFld_toNat w1 (hi := 63) (lo := 32) (by decide) (by decide) v
    have h0 := putFld_toNat w1 (hi := 63) (lo := 32) (by decide) (by decide) 0
    have hz := putFld_toNat (putFld w1 63 32 v) (hi := 63) (lo := 32) (by decide) (by decide) 0
    have := (putFld w1 63 32 v).isLt
    have := w1.isLt
    simp only [Nat.reduceAdd, Nat.reduceSub, Nat.reducePow] at hv h0 hz
    omega
  have lt : flCrc { word0 := w0, word1 := w1, payload := l } < 2 ^ 32 :=
    Nat.xor_lt_two_pow (crcR_lt _ _ (by decide)) (by decide)
  have same : flCrc (sealed w0 w1 l) = flCrc { word0 := w0, word1 := w1, payload := l } := by
    simp only [flCrc, sealed, again]
  have is : fld (sealed w0 w1 l).word1 63 32 = flCrc { word0 := w0, word1 := w1, payload := l } :=
    (fld_putFld _ (by decide) (by decide) _).trans (Nat.mod_eq_of_lt lt)
  unfold flGood
  rw [Bool.and_eq_true, decide_eq_true_eq, decide_eq_true_eq]
  exact ⟨h, is.trans same.symm⟩

/-- A SERVICE flit that carries one message. -/
def carry (m : List W64) : Flit := sealed (packFlds [(63, 60, 6)]) 0 (wordsBytes (m ++ List.replicate (32 - m.length) 0))

/-- The live device in VAULT. -/
def vault : State := live.withDev (live.dev.set Reg.PWR_STATUS_STATE 3)
/-! ### Witnesses: hypotheses that a state meets -/

theorem witness_IdentityReadsAnswer :
    (Asked cmdIdentify live ask [] ∧ 32 ≤ live.dev.replyMax) ∧
    (Asked cmdIdentifyPart live ask [1] ∧ reserved (wd [1] 0) [(1, 0)] = false ∧ 2304 ≤ live.dev.replyMax) := by
  refine ⟨⟨asked_of ?_, ?_⟩, asked_of ?_, ?_, ?_⟩ <;> decide +kernel

/-- The address of a register. -/
def oneReg : List W64 := [w64 Reg.FAULT_STATUS]

theorem witness_RegisterReadsAnswer :
    (Asked cmdRegRead live ask oneReg ∧ reserved (wd oneReg 0) [(39, 0)] = false ∧
      regAddrOk (fld (wd oneReg 0) 39 0) = true ∧ 8 ≤ live.dev.replyMax) ∧
    (Asked cmdRegReadBlock live ask [packFlds [(63, 53, 2), (39, 0, Reg.PWR_STATUS)]] ∧
      (∀ i, i < 2 → regAddrOk (Reg.PWR_STATUS + 8 * i) = true)) ∧ Reg.FAULT_STATUS ≠ Reg.SM_COUNT1 ∧
    (Asked cmdStatusRead live ask [255] ∧ reserved (wd [255] 0) [(7, 0)] = false) ∧
    (Asked cmdStatusPageRead live ask [0xFFFF] ∧ reserved (wd [0xFFFF] 0) [(15, 0)] = false ∧ 8 * (255 + 1) ≤ live.dev.replyMax) ∧
    (Asked cmdResultRead live ask [packFlds [(41, 32, 142)]] ∧ live.dev.resultRecord 0 0 = List.replicate 8 0 ∧
      64 * 142 ≤ live.dev.replyMax) ∧
    (Asked cmdResultReadRaw live ask [packFlds [(44, 32, 8)]] ∧ 8 * 8 ≤ live.dev.replyMax) ∧
    fld (live.dev.status 3) 49 34 ≤ 0 := by
  refine ⟨⟨asked_of ?_, ?_, ?_, ?_⟩, ⟨asked_of ?_, ?_⟩, ?_, ⟨asked_of ?_, ?_⟩, ⟨asked_of ?_, ?_, ?_⟩, ⟨asked_of ?_, ?_, ?_⟩,
    ⟨asked_of ?_, ?_⟩, ?_⟩ <;> decide +kernel

theorem witness_StateReadsAnswer :
    Asked cmdCommitRead live ask [] ∧ (Asked cmdCommitReadEx live ask [] ∧ 224 ≤ live.dev.replyMax) ∧
    Asked cmdCountersRead live ask [] ∧
    (Asked cmdCountersReadEx live ask [152] ∧ 8 * (4 + (counterOffsets .hub).length) ≤ live.dev.replyMax) ∧
    Asked cmdPowerRead live ask [] ∧ Asked cmdPowerReadEx live ask [] ∧
    (Asked cmdLogRead live ask [0] ∧ (live.dev.ringWords 0).length = 8) ∧
    (Asked cmdLogReadEx live ask [packFlds [(29, 16, 1)]] ∧ 64 * 1 ≤ live.dev.replyMax) := by
  have n : (counterOffsets .hub).length ≤ 1000 := by unfold counterOffsets; rw [List.length_mergeSort]; decide +kernel
  have m : live.dev.replyMax = 9104 := by decide +kernel
  refine ⟨asked_of ?_, ⟨asked_of ?_, ?_⟩, asked_of ?_, ⟨asked_of ?_, by omega⟩, asked_of ?_, asked_of ?_, ⟨asked_of ?_, ?_⟩,
    asked_of ?_, ?_⟩ <;> decide +kernel

/-- What `WritesPass` says, as a Bool. -/
def passB : Dev → List (Nat × W64 × W64) → Bool
  | _, [] => true
  | d, x :: t => (d.writeBad x.1 x.2.1 x.2.2 false).isNone && passB (d.writeReg x.1 x.2.1 x.2.2) t

theorem pass_of {d : Dev} {l : List (Nat × W64 × W64)} (h : passB d l = true) : d.WritesPass l := by
  induction l generalizing d with
  | nil => intro i x e; cases e
  | cons y t ih =>
    rw [passB, Bool.and_eq_true, Option.isNone_iff_eq_none] at h
    intro i x e
    cases i with
    | zero => cases e; exact h.1
    | succ i => exact ih h.2 i x e

theorem witness_RegisterWritesTakeEffect :
    (let w := [w64 Reg.FRZ_CTRL, packFlds [(26, 11, 1)], fldMask 61 11]
     Sent cmdRegWrite live snd w ∧ reserved (wd w 0) [(39, 0)] = false ∧
      (live.taken 0x105 snd).writeBad (fld (wd w 0) 39 0) (wd w 1) (wd w 2) false = none) ∧
    (let w := [1, w64 Reg.FRZ_CTRL, packFlds [(26, 11, 1)], fldMask 61 11]
     Sent cmdRegWriteMulti live snd w ∧ fld (wd w 0) 6 0 = 1 ∧ reserved (wd w 1) [(39, 0)] = false ∧
      (live.taken 0x185 snd).WritesPass [(fld (wd w 1) 39 0, wd w 2, wd w 3)]) := by
  refine ⟨⟨sent_of ?_, ?_, ?_⟩, sent_of ?_, ?_, ?_, pass_of ?_⟩ <;> decide +kernel

theorem witness_SpecialRegisterWrites :
    Sent cmdRegWrite live snd [w64 Reg.JOB_XLATE, w64 (2 ^ 63), w64 (2 ^ 63)] ∧
    Sent cmdRegWrite live snd [w64 Reg.FAULT_STATUS, w64 (2 ^ 2), w64 (2 ^ 2)] ∧
    (Sent cmdRegWrite live snd [w64 Reg.FRZ_CTRL, packFlds [(26, 11, 1)], fldMask 61 11] ∧
      fld (packFlds [(26, 11, 1)]) 61 60 < 3 ∧ fld (packFlds [(26, 11, 1)]) 26 11 ≠ 0) ∧
    (∀ n ∈ [1518, 9216], Sent cmdRegWrite live snd [w64 Reg.HP_CTRL, packFlds [(63, 62, 1), (48, 35, n)], hpLater Reg.HP_CTRL] ∧
      fld (packFlds [(63, 62, 1), (48, 35, n)]) 63 62 ≤ 1 ∧ fld (packFlds [(63, 62, 1), (48, 35, n)]) 48 35 = n) ∧
    live.dev.staged = [] ∧ Sent cmdRegWrite live snd [w64 Reg.HP_IPV4, 5, fldMask 31 0] := by
  refine ⟨sent_of ?_, sent_of ?_, ⟨sent_of ?_, ?_, ?_⟩, ?_, ?_, sent_of ?_⟩
  case refine_6 =>
    intro n h
    simp only [List.mem_cons, List.not_mem_nil, or_false] at h
    rcases h with rfl | rfl <;> exact ⟨sent_of (by decide +kernel), by decide +kernel, by decide +kernel⟩
  all_goals decide +kernel

/-- Words of a read or write of 8 bytes at physical address 0. -/
def memAt : List W64 := [0, 8]

theorem witness_MemoryReadsAnswer :
    (Sent cmdMemRead live snd memAt ∧ reserved (wd memAt 0) [(63, 63), (47, 0)] = false ∧ reserved (wd memAt 1) [(31, 0)] = false ∧
      live.dev.memTo 0 0 8 false = .runs [(0, 8)] ∧
      (let m := ((live.taken 0x201 snd).wakeRuns [(0, 8)]).hostMeet [(0, 8)] false
       m.2 = false ∧ m.1.errIn 0 8 = [])) ∧
    (let w := [0, packFlds [(63, 40, 8), (39, 0, 64)], packFlds [(63, 40, 2)]]
     let l := [(0, 8), (64, 8)]
     Sent cmdMemReadEx live snd w ∧ live.dev.memLines (wd w 0) 8 64 2 false = .runs l ∧
      (let m := ((live.taken 0x281 snd).wakeRuns l).hostMeet l false
       m.2 = false ∧ m.1.errIn 0 8 = [] ∧ m.1.errIn 64 8 = [])) ∧
    (0 < cellarEnd ∧ live.dev.get (Reg.SP_CTRL_STRICT ((spBase 3 + 64 - spBase 0) / spSize)) ≠ 1) ∧
    (let s := liveAt (fun d => d.set Reg.FRZ_STATUS_FROZEN 1)
     (Sent cmdStateRead s snd [0, 1] ∧ touchesElement 0 1 = true) ∧ elementKind 0 = some 0 ∧ s.dev.errIn 0 8 = [] ∧
      elementKind 0xFF00000000 = some 2) ∧
    Sent cmdIjtagAccess (liveAt (fun d => d.set Reg.LC_STATUS_STATE 4)) snd [5] := by
  refine ⟨⟨sent_of ?_, ?_, ?_, ?_, ?_⟩, ⟨sent_of ?_, ?_, ?_⟩, ?_, ⟨⟨sent_of ?_, ?_⟩, ?_, ?_, ?_⟩, sent_of ?_⟩ <;> decide +kernel

theorem witness_MemoryWritesStore :
    (Sent cmdMemWrite live snd [0, 8, 5] ∧ live.dev.memTo 0 0 8 true = .runs [(0, 8)] ∧
      (let m := ((live.taken 0x202 snd).wakeRuns [(0, 8)]).hostMeet [(0, 8)] true
       m.2 = false ∧ m.1.errIn 0 8 = []) ∧
      live.dev.errIn 0 8 = [] ∧ 0 < cellarEnd ∧ Memory.wf live.dev.mem) ∧
    (let w := [0, packFlds [(63, 40, 8), (39, 0, 64)], packFlds [(63, 40, 2)], 0, 0, 5, 6]
     let l := [(0, 8), (64, 8)]
     Sent cmdMemWriteEx live snd w ∧ live.dev.memLines (wd w 0) 8 64 2 true = .runs l ∧
      (let m := ((live.taken 0x282 snd).wakeRuns l).hostMeet l true
       m.2 = false ∧ m.1.errIn 0 8 = [] ∧ m.1.errIn 64 8 = [])) := by
  refine ⟨⟨sent_of ?_, ?_, ?_, ?_, ?_, ?_⟩, sent_of ?_, ?_, ?_⟩ <;> decide +kernel

theorem witness_PacketsAreRefused :
    vault.dev.serving = false ∧ live.dev.serving = true ∧ ({ snd with version := 2 } : Hdr).version ≠ 1 ∧
    cmdMemRead.len [] = false ∧ (ask.noseq = true ∧ cmdMemRead.free = false ∧ cmdMemRead.len memAt = true) ∧
    (basicOp cmdMemRead.op ≠ 0x102 ∧ ({ snd with session := 8 } : Hdr).session.toNat ≠ live.dev.get Reg.SM_STATE_SESSION) ∧
    cmdOf 0x0FF = none ∧
    (cmdStateRead.free = false ∧ cmdStateRead.len [0, 1] = true ∧ cmdStateRead.pre (live.taken cmdStateRead.op snd) = false) ∧
    (cmdCommitRead.free = true ∧ cmdCommitRead.len [] = true ∧
      (live.dev.set Reg.FRZ_STATUS_FROZEN 1).admits cmdCommitRead.op = false) ∧
    (cmdIdentify.free = true ∧ (liveAt (fun d => d.set Reg.PWR_STATUS_STATE 3)).dev.serving = false) := by decide +kernel

theorem witness_RefusalFrame : Reg.FAULT_STATUS ≠ Reg.SM_STATE ∧ Reg.FAULT_STATUS ≠ Reg.SM_COUNT0 ∧
    Reg.FAULT_STATUS ≠ Reg.SM_COUNT1 := by decide

theorem witness_SequenceAndSessions :
    (live.dev.seqAhead 2 = 2 ∧ live.dev.seqAhead 0x7FFFFFFF = 2 ^ 31 - 1 ∧ live.dev.seqAhead 0x80000000 = 2 ^ 31 ∧
      live.dev.seqAhead 0 = 0 ∧ live.dev.seqAhead 0xFFFFFFC1 = 2 ^ 32 - 63) ∧
    (Heard cmdSessionOpen State.reset snd [] ∧ State.reset.dev.get Reg.SM_STATE_SESSION = 0) ∧
    (Heard cmdSessionTake live snd [] ∧ live.dev.resent 0x182 snd = none) ∧
    (Heard cmdSessionOpen live { snd with session := 8 } [] ∧ live.dev.ageBeats < live.dev.smiper.lastBeat + 10000000) ∧
    Heard cmdSessionOpen live { snd with session := 0 } [] := by
  refine ⟨?_, ⟨heard_of ?_, ?_⟩, ⟨heard_of ?_, ?_⟩, ⟨heard_of ?_, ?_⟩, heard_of ?_⟩ <;> decide +kernel

theorem witness_StepTakesFront : ({ live with pending := [.beat] } : State).pending = .beat :: [] := by decide

theorem witness_EveryCommandAnswers : live.pending = [] := by decide

theorem witness_FusesOneWay : ∃ t, step ({ live with pending := [.beat] } : State) = .next t := ⟨_, rfl⟩


/-! Long operations -/

/-- The hypotheses of every acceptance: the packet is heard in sequence, and its slot has room. -/
abbrev Fits (c : Cmd) (s : State) (h : Hdr) (w : List W64) : Prop := Sent c s h w ∧ s.dev.roomFor h

theorem fits_of {c : Cmd} {s : State} {h : Hdr} {w : List W64}
    (x : (heardB c s h w && !h.noseq && h.session != 0 && h.session.toNat == s.dev.get Reg.SM_STATE_SESSION &&
      h.seq == s.dev.expected && s.dev.smiper.heldCmds.isEmpty &&
      ((s.dev.opOf (h.tag.toNat % 256)).isNone && decide (s.dev.ops.length < 32))) = true) : Fits c s h w := by
  rw [Bool.and_eq_true] at x
  refine ⟨sent_of x.1, ?_⟩
  simpa [Dev.roomFor, Option.isNone_iff_eq_none] using x.2

/-- A root with no ports: INDEX 0, parent 15. -/
def formWords : List W64 := packFlds [(33, 30, 15)] :: List.replicate 12 0

/-- A preempted job with JOB_ID 9 whose save area is mapped to physical segments 0 and 1 and holds its save record. -/
def parked : State := liveAt (fun d =>
  (((((({ d with mem := Memory.writeRun [] 0 (wordsBytes [packFlds [(63, 56, 0x5A), (55, 55, 1)], packFlds [(63, 32, 9)]]) } : Dev).setJs
    jsPreempted).set Reg.JOB_STATE_JOB_ID 9).setReg (Reg.SEGTAB 0) (packFlds [(63, 63, 1)])).setReg (Reg.SEGTAB 1)
    (packFlds [(63, 63, 1), (61, 44, 1), (9, 0, 1)])).set (Reg.LR_WIDTH_UNIFORM_EN 0) 1))

theorem witness_OperationsAreAccepted :
    (Fits cmdDomainForm live snd formWords ∧ formBad formWords = none ∧
      (let w := formWords ++ [packFlds [(29, 24, 2), (23, 18, 1), (17, 8, 400)]]
       Fits cmdDomainFormEx live snd w ∧ formBad w = none ∧ formExBad w = none)) ∧
    (let w := [0, 128, 0, packFlds [(63, 32, 9)]]
     Fits (cmdLoad 0x301 4) live snd w ∧ loadBad w = none ∧ Fits (cmdLoad 0x381 5) live snd (w ++ [0]) ∧ loadBad (w ++ [0]) = none) ∧
    (Fits (cmdRun 0x302 0) (jobIn jsLoaded) snd [] ∧ Fits (cmdRun 0x382 1) (jobIn jsLoading) snd [5]) ∧
    (Fits (cmdPreempting 0x303 0) (jobIn jsRunning) snd [] ∧ Fits (cmdPreempting 0x383 1) (jobIn jsRunning) snd [0]) ∧
    (Fits (cmdResuming 0x304 0) parked snd [] ∧ (parked.taken 0x304 snd).resumeBad.isNone = true ∧
      Fits (cmdResuming 0x384 1) parked snd [0] ∧ (parked.taken 0x384 snd).resumeBad.isNone = true) ∧
    (Fits (cmdUnload 0x305 0) (jobIn jsLoaded) snd [] ∧ Fits (cmdUnload 0x385 9) (jobIn jsEnded) snd (List.replicate 9 0)) ∧
    Fits cmdHalt (jobIn jsRunning) snd [] ∧
    (let s := jobIn jsRunning
     let w := [packFlds [(63, 32, 1)], packFlds [(63, 32, 0x3F800000)]]
     Fits cmdStep s snd w ∧ reserved (wd w 1) [(63, 23)] = false ∧ (s.taken 0x401 snd).slotBusy 1 = false ∧
      Fits cmdStepEx s snd (w ++ List.replicate 134 0) ∧ (s.taken 0x481 snd).slotBusy 1 = false ∧
      (let s' := s.withDev (s.dev.set (Reg.STEP_W0_VALID 1) 1)
       Fits cmdStep s' snd w ∧ (s'.taken 0x401 snd).slotBusy 1 = true)) := by
  refine ⟨⟨fits_of ?_, ?_, fits_of ?_, ?_, ?_⟩, ⟨fits_of ?_, ?_, fits_of ?_, ?_⟩, ⟨fits_of ?_, fits_of ?_⟩, ⟨fits_of ?_, fits_of ?_⟩,
    ⟨fits_of ?_, ?_, fits_of ?_, ?_⟩, ⟨fits_of ?_, fits_of ?_⟩, fits_of ?_, fits_of ?_, ?_, ?_, fits_of ?_, ?_, fits_of ?_, ?_⟩ <;>
    decide +kernel

theorem witness_OperationsAreAccepted_others :
    (let w : List W64 := [0, 4096, 64]
     Fits cmdCopy live snd w ∧ ((live.taken 0x203 snd).endRefused (copyDesc w 28) false (Shape.ofWords [])).isNone = true ∧
      ((live.taken 0x203 snd).endRefused (copyDesc w 28) true (Shape.ofWords [])).isNone = true ∧
      (dmFault 152 28 (copyDesc w 28) (Shape.ofWords []) (Shape.ofWords [])).isNone = true ∧
      (live.taken 0x203 snd).endViews (copyDesc w 28) false (Shape.ofWords []) = .runs [] ∧
      (live.taken 0x203 snd).endViews (copyDesc w 28) true (Shape.ofWords []) = .runs []) ∧
    (let w : List W64 := 0 :: copyDesc [0, 4096, 64] 28
     Fits cmdDescSubmit live snd w ∧ dmForm (w.drop 1) ≠ 2 ∧ descJob (w.drop 1) = false ∧
      ((live.taken 0x283 snd).endRefused (w.drop 1) true (Shape.ofWords [])).isNone = true ∧
      (live.taken 0x283 snd).endViews (w.drop 1) true (Shape.ofWords []) = .runs []) ∧
    (Fits cmdScrub live snd [] ∧ Fits cmdScrubEx live snd (List.replicate 10 0)) ∧
    (let s := liveAt (fun d => d.set Reg.LC_STATUS_STATE 4)
     Fits cmdBist live snd [] ∧ Fits cmdBistEx s snd [1, packFlds [(47, 16, 1)]] ∧
      ((s.taken 0x583 snd).bistWordBad [] 1 (packFlds [(47, 16, 1)])).isNone = true ∧
      (Fits cmdFlashWrite s snd [0, 0, 8] ∧ (∀ c, (s.taken 0x783 snd).physTo 0 8 false ≠ .no c))) ∧
    (Fits (cmdAttesting 0x701 4) live snd [0, 0, 0, 0] ∧ Fits (cmdAttesting 0x781 5) live snd [0, 0, 0, 0, 0x13F] ∧
      fld (0x13F : W64) 7 6 = 0) ∧
    Fits cmdFirmwareUpdate live snd [0, 8192] := by
  refine ⟨⟨fits_of ?_, ?_, ?_, ?_, ?_, ?_⟩, ⟨fits_of ?_, ?_, ?_, ?_, ?_⟩, ⟨fits_of ?_, fits_of ?_⟩,
    ⟨fits_of ?_, fits_of ?_, ?_, fits_of ?_, ?_⟩, ⟨fits_of ?_, fits_of ?_, ?_⟩, fits_of ?_⟩ <;>
    first | decide +kernel | (intro c h; cases h)

theorem witness_SlotsOfLongOperations :
    (withOps [opn 0x502 [] false]).dev.opOf 0 = some (opn 0x502 [] false) ∧
    (let d := (withOps ((List.range 32).map (fun i => { opn 0x502 [] false with slot := i + 1 }))).dev
     d.opOf 0 = none ∧ 32 ≤ d.ops.length) ∧
    live.dev.errIn (statusAddr 0) 8 = [] ∧ (live.dev.opOf 0 = none ∧ live.dev.ops.length < 32 ∧ 0x502 < 65536) := by decide +kernel

theorem witness_TablesAreWritten :
    (let w := [packFlds [(15, 10, 12), (8, 6, 7)], (0 : W64)]
     Sent cmdWindowOpen live snd w ∧ (12 ≤ fld (wd w 0) 15 10 ∧ fld (wd w 1) 47 0 % 2 ^ 12 = 0) ∧
      (live.taken 0x204 snd).WritesPass
        [(Reg.WIN_W0 0, packFlds [(63, 63, 1), (62, 62, 1), (61, 61, 3), (60, 60, 7), (59, 54, 12), (47, 0, 0)], fullMask (Reg.WIN_W0 0)),
         (Reg.WIN_W1 0, packFlds [(63, 54, 0), (53, 44, live.dev.get Reg.LAT_DOMAIN_DOMAIN_LAST), (43, 34, 1)], fullMask (Reg.WIN_W1 0))]) ∧
    (Sent cmdWindowWrite live snd [0, 0, 0] ∧ (live.taken 0x284 snd).WritesPass
      [(Reg.WIN_W0 0, 0, fullMask (Reg.WIN_W0 0)), (Reg.WIN_W1 0, 0, fullMask (Reg.WIN_W1 0))]) ∧
    (let s := jobIn jsLoaded
     (Sent cmdSegmentMap s snd [5, packFlds [(63, 63, 1), (9, 0, 3)]] ∧ ((s.taken 0x306 snd).tableWrite
      [(5, some (packFlds [(63, 63, 1), (61, 44, 5), (9, 0, 3)]))]).toBool = true) ∧
     (Sent cmdSegmentWrite s snd [1, 5, packFlds [(63, 63, 1), (9, 0, 3)]] ∧ rawBad (packFlds [(63, 63, 1), (9, 0, 3)]) = false ∧
      ((s.taken 0x386 snd).tableWrite [(5, some (rawEntry 5 (packFlds [(63, 63, 1), (9, 0, 3)])))]).toBool = true)) ∧
    (Sent cmdGroupPreset live snd [packFlds [(11, 8, 2), (7, 0, 127)], 0, 1] ∧
      ∃ l, presetWords 2 0 0 true = some l ∧ (live.taken 0x402 snd).WritesPass
        ((groupWrites 127 l).map (fun p => (p.1, p.2, fullMask p.1)))) ∧
    (Sent cmdGroupWrite live snd (List.replicate 9 0) ∧ (live.taken 0x482 snd).WritesPass
      ((groupWrites 0 (List.replicate 8 0)).map (fun p => (p.1, p.2, fullMask p.1)))) := by
  refine ⟨⟨sent_of ?_, ?_, pass_of ?_⟩, ⟨sent_of ?_, pass_of ?_⟩, ⟨⟨sent_of ?_, ?_⟩, sent_of ?_, ?_, ?_⟩,
    ⟨sent_of ?_, _, rfl, pass_of ?_⟩, sent_of ?_, pass_of ?_⟩ <;> decide +kernel

theorem witness_ChannelsAndOperationsStop :
    (Sent cmdHaltChannel live snd [packFlds [(12, 8, 31), (7, 0, 152)]] ∧ 31 < channelsOf 152 ∧ (live.dev.chan 152 31).cur = none) ∧
    (Sent cmdOpAbort (withOps [opn 0x502 [] false]) snd [0] ∧
      (withOps [opn 0x502 [] false]).dev.opOf 0 = some (opn 0x502 [] false)) ∧
    (Sent cmdOpAbort (withOps [opn 0x502 [] true]) snd [0] ∧ basicOp 0x502 ∈ endable ∧
      Sent cmdOpAbort (withOps [opn 0x401 [0, 0] true]) snd [0] ∧ basicOp 0x401 ∉ endable) ∧
    (Sent cmdOpAbort live snd [255] ∧ live.dev.opOf 255 = none) ∧
    (Sent cmdOpAbortClass live snd [5] ∧ live.dev.ops = []) ∧
    (let s := withOps [opn 0x502 [] true]
     Sent cmdOpAbortClass s snd [0] ∧ (s.dev.ops.filter (fun o => opClass o.opcode = 0)).reverse = [opn 0x502 [] true] ∧
      s.dev.opOf 0 = some (opn 0x502 [] true) ∧
      ((s.taken 0x188 snd).abortAll [opn 0x502 [] true]).isSome = true) := by
  refine ⟨⟨sent_of ?_, ?_, ?_⟩, ⟨sent_of ?_, ?_⟩, ⟨sent_of ?_, ?_, sent_of ?_, ?_⟩, ⟨sent_of ?_, ?_⟩, ⟨sent_of ?_, ?_⟩, sent_of ?_, ?_, ?_, ?_⟩ <;>
    decide +kernel

theorem witness_PowerAndResetCommands :
    (Sent cmdPowerState live snd [3] ∧ live.dev.js = jsNone ∧ live.dev.ops = [] ∧ Sent cmdPowerState live snd [2] ∧
      live.dev.restAllowed = true) ∧
    (Sent cmdPowerStateEx live snd [2, 0] ∧ Sent cmdPowerStateEx live snd [1, 0xFFF]) ∧
    (Sent cmdPowerState (jobIn jsLoaded) snd [3] ∧ (jobIn jsLoaded).dev.js ≠ jsNone ∧
      Sent cmdPowerState (jobIn jsRunning) snd [2] ∧ (jobIn jsRunning).dev.restAllowed = false) ∧
    (Sent cmdReset live snd [] ∧ Sent cmdResetAt live snd [1000]) ∧
    (let s := liveAt (fun d => { d with resetAt := some 0 })
     s.dev.resetAt = some 0 ∧ s.dev.boot.phase = .run ∧ 0 ≤ s.dev.aonBeat) ∧
    (let s := liveAt (fun d => { d with resetAt := some 7 })
     s.dev.resetAt = some 7 ∧ s.dev.aonBeat < 7) ∧
    (Sent cmdFreeze live snd [] ∧ Sent cmdFreezeAt live snd [9, 1] ∧ Sent cmdFreezeAt live snd [9, 0]) ∧
    (Sent cmdThaw frozen snd [] ∧ Sent cmdThawAt frozen snd [9] ∧ frozen.dev.frozen = true) ∧
    (Sent cmdThaw live snd [] ∧ Sent cmdThawAt live snd [9] ∧ live.dev.frozen = false) := by
  refine ⟨⟨sent_of ?_, ?_, ?_, sent_of ?_, ?_⟩, ⟨sent_of ?_, sent_of ?_⟩, ⟨sent_of ?_, ?_, sent_of ?_, ?_⟩, ⟨sent_of ?_, sent_of ?_⟩,
    ?_, ?_, ⟨sent_of ?_, sent_of ?_, sent_of ?_⟩, ⟨sent_of ?_, sent_of ?_, ?_⟩, sent_of ?_, sent_of ?_, ?_⟩ <;> decide +kernel

theorem witness_WarmResetEndsOperations :
    (∀ o ∈ (withOps [opn 0x502 [] true]).dev.ops, o.slot < 256) ∧ (withOps [opn 0x502 [] true]).dev.opOf 255 = none ∧
    (withOps [opn 0x502 [] true]).dev.errIn (statusAddr 0) 8 = [] ∧ live.dev.boot.phase ≠ .off ∧ live.dev.pins.pwrgood = true := by decide +kernel

theorem witness_WarmResetKeeps :
    (let d : Dev := { live.dev with errs := [(8, 3), (0xF000000000, 3)] }
     (8, 3) ∈ d.errs ∧ (8, 3).1 < 574 * 2 ^ 30 ∧ d.warmReset.errs = [(8, 3)]) := by decide +kernel

/-- A device in a life-cycle state, with these fuses. -/
def inLife (n : Nat) (f : Fuses) : State := { liveAt (fun d => d.set Reg.LC_STATUS_STATE n) with fuses := f }

/-- The word of a move to a state. -/
abbrev moveTo (n : Nat) : List W64 := [packFlds [(63, 32, 2 ^ 32 - 1 - n), (31, 0, n)]]

theorem witness_LifeCycleAdvances :
    (Sent cmdLifecycleAdvance (inLife 0 {}) snd (moveTo 1) ∧ (inLife 0 {}).dev.life = 0 ∧ (inLife 0 {}).dev.js = jsNone ∧
      (inLife 0 {}).dev.lifeBusy = false ∧ fld (wd (moveTo 1) 0) 63 32 = 2 ^ 32 - 1 - 1) ∧
    (let s := inLife 1 { banks := [.unblown, .unblown] }
     Sent cmdLifecycleAdvance s snd (moveTo 2) ∧ s.dev.life = 1 ∧ s.dev.lifeBusy = false ∧
      s.fuses.banks.findIdx? (fun b => b = .unblown) = some 0) ∧
    (let s := inLife 2 {}
     Sent cmdLifecycleAdvance s snd (moveTo 3) ∧ s.dev.life = 2 ∧ s.dev.lifeBusy = false) ∧
    (Sent cmdLifecycleAdvance live snd (moveTo 5) ∧ live.dev.life = 3 ∧ live.dev.lifeBusy = false) ∧
    (Sent cmdLifecycleAdvance live snd (moveTo 1) ∧
      [(0, 1), (1, 2), (2, 3), (3, 5), (4, 5)].contains (live.dev.life, 1) = false) ∧
    (Sent cmdLifecycleAuth live snd [4] ∧ live.dev.life = 3 ∧ live.dev.js = jsNone ∧
      (live.taken 0x782 snd).authorised live.fuses 4 [] = false) := by
  refine ⟨⟨sent_of ?_, ?_, ?_, ?_, ?_⟩, ⟨sent_of ?_, ?_, ?_, ?_⟩, ⟨sent_of ?_, ?_, ?_⟩, ⟨sent_of ?_, ?_, ?_⟩, ⟨sent_of ?_, ?_⟩,
    sent_of ?_, ?_, ?_, ?_⟩ <;> decide +kernel

theorem witness_LongOperationsRun :
    (let s := withOps [opn 0x502 [] false]
     s.dev.opOf 0 = some (opn 0x502 [] false) ∧ s.dev.frozen = false ∧ s.dev.serving = true ∧
      s.dev.opNext (opn 0x502 [] false) = true ∧ s.dev.classFree (opn 0x502 [] false) = true) ∧
    (let s := withOps [opn 0x503 [] true, { opn 0x502 [] false with slot := 1 }]
     s.dev.opOf 1 = some { opn 0x502 [] false with slot := 1 } ∧ s.dev.classFree { opn 0x502 [] false with slot := 1 } = false) ∧
    ((running 0x582 (1 :: List.replicate 9 0) 0).dev.runningOp 0x502 = some (rdy 0x582 (1 :: List.replicate 9 0)) ∧
      bit (wd (1 :: List.replicate 9 0 : List W64) 0) 0 = true) ∧
    ((running 0x502 [] 0).dev.runningOp 0x502 = some (rdy 0x502 []) ∧ (running 0x502 [] 0).dev.frozen = false) ∧
    (running 0x701 [0, 0, 0, 0] 0).dev.runningOp 0x701 = some (rdy 0x701 [0, 0, 0, 0]) ∧
    (let s := running 0x703 [0, 8] 0
     s.dev.ops.find? (fun o => o.running && o.opcode = 0x703) = some (rdy 0x703 [0, 8]) ∧
      s.dev.badPhys (fld 0 39 0) (fld 8 39 0) = none) ∧
    (let s := running 0x783 [0, 0, 8] 0
     s.dev.ops.find? (fun o => o.running && o.opcode = 0x783) = some (rdy 0x783 [0, 0, 8]) ∧
      s.dev.badPhys (fld 0 39 0) (fld 8 31 0) = none) := by decide +kernel

/-- A domain formation in progress with port 0 in use, its partner device 2; its ports in a state. -/
def form0 (op ps : Nat) : State := liveAt (fun d => ({ d with
  ops := [{ rdy op (packFlds [(33, 30, 15)] :: packFlds [(63, 63, 1), (13, 4, 2)] :: List.replicate 11 0) with
    note := 0 :: List.replicate 36 0 }] }.setPort 0 ps).set (Reg.PORT_W0_PARTNER 0) 2)

/-- The operation of `form0`. -/
abbrev formOp (op : Nat) : LongOp := { rdy op (packFlds [(33, 30, 15)] :: packFlds [(63, 63, 1), (13, 4, 2)] :: List.replicate 11 0) with
  note := 0 :: List.replicate 36 0 }

theorem witness_DomainsForm :
    ((form0 0x103 3).dev.forming = some (formOp 0x103) ∧ (form0 0x103 3).dev.frozen = false ∧
      (form0 0x103 3).dev.formUp (formOp 0x103) = true ∧ (form0 0x103 3).dev.treeNests = true ∧
      ((form0 0x103 3).dev.set Reg.LAT_DOMAIN_SUBTREE_LAST 9).treeNests = false) ∧
    (let s := (form0 0x183 3).withDev (((form0 0x183 3).dev.set Reg.LAT_DOMAIN_AGREE_BEATS 63).set Reg.LAT_DOMAIN_FLOOD_BEATS 62)
     (s.dev.forming = some (formOp 0x183) ∧ s.dev.formUp (formOp 0x183) = true ∧ s.dev.treeNests = true) ∧
      ∀ m : Nat × Nat, max 2 (min 63 m.1) ≤ s.dev.get Reg.LAT_DOMAIN_AGREE_BEATS ∧
        max 1 (min (max 2 (min 63 m.1) - 1) m.2) ≤ s.dev.get Reg.LAT_DOMAIN_FLOOD_BEATS) ∧
    (let s := (form0 0x183 3).withDev ((form0 0x183 3).dev.set Reg.LAT_DOMAIN_AGREE_BEATS 1)
     (s.dev.forming = some (formOp 0x183) ∧ s.dev.formUp (formOp 0x183) = true ∧ s.dev.treeNests = true) ∧
      ∀ m : Nat × Nat, s.dev.get Reg.LAT_DOMAIN_AGREE_BEATS < max 2 (min 63 m.1)) ∧
    (let s := (form0 0x103 1).withDev { (form0 0x103 1).dev with ageBeats := 10000000 }
     s.dev.ops.find? (fun o => basicOp o.opcode = 0x103) = some (formOp 0x103) ∧ s.dev.formUp (formOp 0x103) = false) ∧
    (let f := carry [packFlds [(63, 56, 1), (55, 46, 2)]]
     flGood f = true ∧ flKind f = 6 ∧ (∃ m l, flMessages f = m :: l ∧ (∀ x ∈ l, msType x = 0) ∧ msType m = 1 ∧
        msOrigin m = (form0 0x103 1).dev.get (Reg.PORT_W0_PARTNER 0)) ∧
      (form0 0x103 1).dev.get (Reg.PORT_W0_STATE 0) = 1) ∧
    (let f := carry [packFlds [(63, 56, 2)]]
     flGood f = true ∧ (∃ m l, flMessages f = m :: l ∧ (∀ x ∈ l, msType x = 0) ∧ msType m = 2) ∧
      (form0 0x103 2).dev.get (Reg.PORT_W0_STATE 0) = 2) := by
  have a : ((form0 0x183 3).withDev (((form0 0x183 3).dev.set Reg.LAT_DOMAIN_AGREE_BEATS 63).set Reg.LAT_DOMAIN_FLOOD_BEATS 62)).dev.get
      Reg.LAT_DOMAIN_AGREE_BEATS = 63 := by decide +kernel
  have b : ((form0 0x183 3).withDev (((form0 0x183 3).dev.set Reg.LAT_DOMAIN_AGREE_BEATS 63).set Reg.LAT_DOMAIN_FLOOD_BEATS 62)).dev.get
      Reg.LAT_DOMAIN_FLOOD_BEATS = 62 := by decide +kernel
  have c : ((form0 0x183 3).withDev ((form0 0x183 3).dev.set Reg.LAT_DOMAIN_AGREE_BEATS 1)).dev.get
      Reg.LAT_DOMAIN_AGREE_BEATS = 1 := by decide +kernel
  refine ⟨?_, ⟨?_, fun m => ?_⟩, ⟨?_, fun m => ?_⟩, ?_, ⟨good_sealed _ _ _ ?_, ?_, ⟨_, _, rfl, ?_⟩, ?_⟩,
    good_sealed _ _ _ ?_, ⟨_, _, rfl, ?_⟩, ?_⟩
  · decide +kernel
  · decide +kernel
  · simp only [a, b]; omega
  · decide +kernel
  · simp only [c]; omega
  all_goals decide +kernel

/-- A job in a state, with its save area mapped to physical segments 0 and 1. -/
def saving (js : Nat) (o : List LongOp) : State := liveAt (fun d =>
  ((((({ d with ops := o, job := { d.job with quiesced := leafRanks } } : Dev).setJs js).set Reg.JOB_STATE_JOB_ID 9).setReg
    (Reg.SEGTAB 0) (packFlds [(63, 63, 1)])).setReg (Reg.SEGTAB 1) (packFlds [(63, 63, 1), (61, 44, 1), (9, 0, 1)])))

/-- The saving job with an uncorrectable word. -/
def hurt (js a : Nat) (o : List LongOp) : State := (saving js o).withDev { (saving js o).dev with errs := [(a, 3)] }

/-- The live device about to join, in a job state and of a kind. -/
def joining (js kind : Nat) (was : Bool) : State := liveAt (fun d =>
  { d with job := { d.job with joinAt := some 0, joinReady := true, joinKind := kind }, frz := { d.frz with wasRunning := was } }.setJs js)

theorem witness_JobsRun :
    ((running 0x301 [] jsLoading).dev.runningOp 0x301 = some (rdy 0x301 []) ∧ (running 0x301 [] jsLoading).dev.js = jsLoading ∧
      (running 0x301 [] jsLoading).dev.frozen = false) ∧
    (∀ k ∈ [(jsLoaded, 0, false), (jsResuming, 1, false), (jsRunning, 2, true)],
      (joining k.1 k.2.1 k.2.2).dev.job.joinAt = some 0 ∧ (joining k.1 k.2.1 k.2.2).dev.frozen = false ∧
      (joining k.1 k.2.1 k.2.2).dev.job.joinReady = true ∧ (joining k.1 k.2.1 k.2.2).dev.js = k.1 ∧
      (joining k.1 k.2.1 k.2.2).dev.frz.wasRunning = k.2.2) ∧
    (let s := liveAt (fun d => { d with job := { d.job with joinAt := some 5 } })
     s.dev.job.joinAt = some 5 ∧ s.dev.beat < 5) ∧
    (running 0x301 [] jsLoading).dev.errIn (statusAddr 0) 8 = [] ∧
    ((saving jsPreempting []).dev.js = jsPreempting ∧ (saving jsPreempting []).dev.frozen = false ∧
      (saving jsPreempting []).dev.allQuiet = true ∧
      (saving jsPreempting []).dev.errs.find? (fun e => decide (0xF000000000 ≤ e.1) && e.2 = 3) = none ∧
      ∃ l, (saving jsPreempting []).dev.jobRuns ((saving jsPreempting []).dev.get Reg.JOB_SAVE_SAVE_ADDR) 4096 = some l) ∧
    ((hurt jsPreempting 0xF000000000 []).dev.js = jsPreempting ∧ (hurt jsPreempting 0xF000000000 []).dev.allQuiet = true ∧
      (hurt jsPreempting 0xF000000000 []).dev.errs.find? (fun e => decide (0xF000000000 ≤ e.1) && e.2 = 3) = some (0xF000000000, 3)) ∧
    (let s := saving jsResuming [rdy 0x304 []]
     s.dev.runningOp 0x304 = some (rdy 0x304 []) ∧ s.dev.js = jsResuming ∧ s.dev.job.joinReady = false ∧
      ∃ l, s.dev.jobRuns (s.dev.get Reg.JOB_SAVE_SAVE_ADDR) saveSize = some l ∧
        ∀ r ∈ l, (l.foldl (fun d r => (d.rdPhys r.1.phys r.2).1) s.dev).badPhys r.1.phys r.2 = none) ∧
    (let s := hurt jsResuming 16 [rdy 0x304 []]
     s.dev.runningOp 0x304 = some (rdy 0x304 []) ∧ s.dev.js = jsResuming ∧
      ∃ l, s.dev.jobRuns (s.dev.get Reg.JOB_SAVE_SAVE_ADDR) saveSize = some l ∧
        ∃ r ∈ l, (l.foldl (fun d r => (d.rdPhys r.1.phys r.2).1) s.dev).badPhys r.1.phys r.2 ≠ none) ∧
    ((running 0x305 [] jsUnloading).dev.runningOp 0x305 = some (rdy 0x305 []) ∧
      (running 0x305 [] jsUnloading).dev.js = jsUnloading) := by
  refine ⟨?_, ?_, ?_, ?_, ⟨?_, ?_, ?_, ?_, some_of ?_⟩, ?_, ⟨?_, ?_, ?_, _, rfl, ?_⟩, ⟨?_, ?_, _, rfl, ?_⟩, ?_⟩ <;> decide +kernel

/-- A self-test of one bench, at a stage. -/
def test1 (stage : Nat) : State := (running 0x503 [] 0).withDev { (running 0x503 [] 0).dev with bist := [{ code := 0, mask := 0x33, stage := stage }] }

theorem witness_SelfTestRegions :
    ((test1 1).dev.testing = some (rdy 0x503 []) ∧ (rdy 0x503 []).note = [] ∧
      (test1 1).dev.bist.findIdx? (fun r => r.code = 0) = some 0 ∧ (test1 1).dev.bist[0]? = some { code := 0, mask := 0x33, stage := 1 } ∧
      (∀ q ∈ (test1 1).dev.bist.take 0, 2 ≤ q.stage) ∧ (test1 1).dev.regionFits 0 = true ∧ (test1 1).dev.frozen = false ∧
      (∀ p ∈ regionBytes 0, (test1 1).dev.badPhys p.1 p.2 = none)) ∧
    ((test1 2).dev.testing = some (rdy 0x503 []) ∧ (test1 2).dev.bist.findIdx? (fun r => r.code = 0) = some 0 ∧
      (test1 2).dev.bist[0]? = some { code := 0, mask := 0x33, stage := 2 } ∧
      (∀ p ∈ regionBytes 0, ∀ a ∈ saveSlot { code := 0, mask := 0x33, stage := 2 }, (test1 2).dev.badPhys a p.2 = none) ∧
      regionKind 0 = some .bench ∧ (test1 2).dev.life = 3 ∧
      (test1 2).dev.js = jsNone ∧ (test1 2).dev.frozen = false ∧ (test1 2).dev.smiper.heldCmds = []) ∧
    (∀ r ∈ (test1 1).dev.bist, r.code = 0 → r.stage ≠ 2) := by
  refine ⟨?_, ?_, ?_⟩ <;> decide +kernel

theorem witness_FreezesTakeEffect :
    (live.dev.boot.phase ≠ .off ∧ live.dev.pins.freezeArmed = true ∧
      (∀ n, n < 3 → (live.dev.set Reg.FRZ_CTRL_PIN_ACTION n).get Reg.FRZ_CTRL_PIN_ACTION = n) ∧ live.dev.power ≤ 1 ∧
      live.dev.frz.pending = none ∧ live.dev.freezeFloods = []) ∧
    (frozen.dev.frozen = true ∧ (frozen.dev.set Reg.FRZ_CTRL_PIN_ACTION 2).get Reg.FRZ_CTRL_PIN_ACTION = 2) ∧
    (liveAt (fun d => { d with pins := { d.pins with freezeArmed := false } })).dev.pins.freezeArmed = false ∧
    (let s := liveAt (fun d => { d with frz := { d.frz with pending := some (0, 2, true) } })
     s.dev.freezeDue = some (0, 2, true) ∧ s.dev.frozen = false ∧ s.dev.boot.phase = .run ∧ s.dev.power ≤ 1 ∧ s.dev.unlocked = []) ∧
    (let s := frozen.withDev { frozen.dev with frz := { frozen.dev.frz with thawAt := some 0, wasRunning := true } }
     s.dev.frz.thawAt = some 0 ∧ s.dev.get Reg.FRZ_STATUS_FROZEN = 1 ∧ s.dev.aonBeat < 2 ^ 64 ∧ s.dev.testing = none ∧
      s.dev.frz.wasRunning = true) ∧
    (let s := frozen.withDev { frozen.dev with frz := { frozen.dev.frz with thawAt := some 9 } }
     s.dev.frz.thawAt = some 9 ∧ s.dev.aonBeat < 9) ∧
    live.dev.freezeDue = none := by decide +kernel

/-- A log entry. -/
abbrev entry0 : LogEntry := { time := 0, beat := 0, cycle := 0, source := 1, event := 0x50, data := [0] }

theorem witness_LogEntriesAreWritten :
    nextEntry (liveAt (fun d => { d with logHeld := [entry0] })).dev.logHeld = some entry0 ∧ live.dev.logHeld = [] := by
  decide +kernel

theorem witness_PowerIsManaged :
    (live.dev.stewardOn = true ∧ (List.replicate 10 (5, 800)).length = 10 ∧ (List.replicate sensors (400 : Int)).length = sensors) ∧
    (live.dev.boot.phase ≠ .off ∧ live.dev.pins.thermtripN = true ∧ 45 < sensors ∧ 46 < sensors ∧
      (if 45 < 46 then (960 : Int) else 840) ≤ 960 ∧ (if 46 < 46 then (960 : Int) else 840) ≤ 840 ∧
      (839 : Int) < (if 46 < 46 then 960 else 840)) ∧
    (let s := liveAt (fun d => { d with gated := [0] })
     0 ∈ s.dev.gated ∧ domainUnit 0 ∉ s.dev.resting ∧ domainUnit 0 ∉ s.dev.unlocked ∧ s.dev.frozen = false) ∧
    (0 < gateable ∧ 0 ∉ live.dev.gated ∧ live.dev.get Reg.PWR_CTRL_GATE_IDLE ≠ 0 ∧ live.dev.domainBusy 0 = false) := by
  decide +kernel

theorem witness_SidePortsAnswer :
    live.dev.boot.phase ≠ .off ∧ (vault.dev.boot.phase = .run ∧ vault.dev.power = 3) ∧ live.dev.power ≠ 3 ∧
    (liveAt (fun d => d.set Reg.FAULT_STATUS_SAFE 1)).dev.alertLow = true ∧ live.dev.alertLow = false ∧
    0x30 ∉ [0x01, 0x02, 0x03, 0x04, 0x10, 0x11, 0x20, 0x21, 0x22] := by decide +kernel

/-- A device whose boot found no image, with slot 1 erased. -/
def noImage : State := liveAt (fun d => { d with boot := { d.boot with phase := .noFirmware, erased := some 1 } })

theorem witness_Recovery :
    (noImage.dev.recoveryOk = true ∧ noImage.dev.slotRuns 1 = false ∧ noImage.dev.boot.erased = some 1) ∧
    (let s := liveAt (fun d => (d.set Reg.LC_STATUS_STATE 4))
     s.dev.recoveryOk = true ∧ s.dev.slotRuns (s.dev.get Reg.LC_STATUS_BOOT_SLOT) = true ∧ s.dev.boot.phase ≠ .off) ∧
    live.dev.recoveryOk = false := by decide +kernel

/-- The live device in a boot phase, with an empty image in each slot. -/
def phased (p : Phase0) (up : Bool) : State := liveAt (fun d => { d with
  boot := { d.boot with phase := p, powerUp := up }
  flash := (List.range 8).map (fun i => (0x100008 + i, (0 : Byte))) ++ (List.range 8).map (fun i => (0x1100008 + i, (0 : Byte))) })

theorem no_boot (d : Dev) (f : Fuses) (h0 : (d.verifyImage f.rollback (d.slotImage 0)).isNone = true)
    (h1 : (d.verifyImage f.rollback (d.slotImage 1)).isNone = true) : d.bootSlot f = none := by
  rw [Option.isNone_iff_eq_none] at h0 h1
  have copy : ∀ i a, d.dirCopy i = some a → a.2 < 2 := by
    intro i a h
    unfold Dev.dirCopy at h
    generalize d.flashRead (4096 * i) 4096 = l at h
    obtain ⟨_, e⟩ := Option.ite_none_right_eq_some.1 h
    rw [← Option.some.inj e]
    exact Nat.mod_lt _ Nat.two_pos
  have two : d.directory.2.1 < 2 := by
    unfold Dev.directory
    cases h0 : d.dirCopy 0 with
    | none => cases h1 : d.dirCopy 1 with
      | none => exact Nat.zero_lt_two
      | some b => exact copy _ _ h1
    | some a => cases h1 : d.dirCopy 1 with
      | none => exact copy _ _ h0
      | some b => simp only; split <;> first | exact copy _ _ h1 | exact copy _ _ h0
  unfold Dev.bootSlot
  have two : d.directory.2.1 = 0 ∨ d.directory.2.1 = 1 := by omega
  rcases two with h | h <;> simp [h, h0, h1]

theorem witness_PowerUpAndBoot :
    (phased .off true).dev.boot.phase = .off ∧
    ((phased .aon true).dev.boot.powerUp = true ∧ (phased .aon true).dev.pins.thermtripN = true ∧
      (phased .aon false).dev.boot.powerUp = false) ∧
    ((phased .released true).dev.boot.phase = .released ∧ 7 ∉ (phased .released true).dev.boot.trainTimeout ∧
      (phased .released true).dev.js = jsNone) ∧
    ((phased .released true).dev.fuseStatus (phased .released true).fuses.complete).bootSlot
      (phased .released true).fuses.complete = none ∧
    live.dev.boot.phase ≠ .off := by
  refine ⟨?_, ?_, ?_, no_boot _ _ ?_ ?_, ?_⟩ <;> decide +kernel

/-- Port 0 is up, at 10.0.0.1 and fd00::1. -/
def wired : State := liveAt (fun d => (((d.set Reg.HP_STATUS_LINK 1).set Reg.HP_IPV4_IPV4_ADDR 0x0A000001).setReg (Reg.HP_IPV6 0)
  0xFD00000000000000).setReg (Reg.HP_IPV6 1) 1)

/-- An Ethernet frame to port 0. -/
def toPort (type : Nat) (l : List Byte) : List Byte := sealFrame (toBe 6 0 ++ toBe 6 1 ++ toBe 2 type ++ l)

/-- An ARP request for 10.0.0.1, an echo request and an ICMP message of another type. -/
def arpAsk : List Byte := toPort 0x0806 ([0, 1, 8, 0, 6, 4, 0, 1] ++ toBe 6 1 ++ [10, 0, 0, 2] ++ toBe 6 0 ++ [10, 0, 0, 1])
def ping (type : Byte) : List Byte :=
  toPort 0x0800 (ip4Head [10, 0, 0, 2] [10, 0, 0, 1] 1 8 ++ [type, 0] ++ toBe 2 (inetSum [type, 0, 0, 0, 0, 1, 0, 1]) ++ [0, 1, 0, 1])

/-- A neighbour solicitation for fd00::1. -/
def solicit : List Byte :=
  let icmp (sum : Nat) : List Byte := [0x87, 0] ++ toBe 2 sum ++ [0, 0, 0, 0] ++ wired.dev.ip6
  let a : List Byte := toBe 8 0xFD00000000000000 ++ toBe 8 2
  toPort 0x86DD (ip6Head a wired.dev.ip6 58 24 255 ++ icmp (inetSum (pseudo true a wired.dev.ip6 58 24 ++ icmp 0)))

/-- A Smiper datagram from 10.0.0.2: its packet's bytes. -/
def datagram (p : List Byte) : List Byte :=
  toPort 0x0800 (ip4Head [10, 0, 0, 2] [10, 0, 0, 1] 17 (8 + p.length) ++ toBe 2 5000 ++ toBe 2 0xB7E8 ++ toBe 2 (8 + p.length) ++ [0, 0] ++ p)

/-- The bytes of IDENTIFY, out of sequence. -/
def identifyBytes : List Byte :=
  let l := wordsBytes [packFlds [(63, 32, 0x50494D53), (31, 24, 1), (17, 17, 1), (15, 0, 0x101)], 0, 0, 0]
  l ++ toLe 4 (crc32c 0xFFFFFFFF l)

/-- What a frame is to the wired port. -/
abbrev isA (l : List Byte) : FrameIs := wired.dev.frameIs 0 l

/-- Where a datagram of `datagram` comes from. -/
abbrev from2 : Source := { port := 0, v6 := false, mac := 1, vid := none, addr := 0x0A000002, udp := 5000 }

theorem short_of {x : Option (List Byte)} {n : Nat} (h : x.any (fun f => decide (f.length ≤ n)) = true) :
    ∃ f, x = some f ∧ f.length ≤ n := by
  cases x with
  | none => cases h
  | some f => exact ⟨f, rfl, of_decide_eq_true h⟩

theorem witness_HostFrames :
    (live.dev.hostHears 0 = false ∧ wired.dev.hostHears 0 = true ∧ 0x400000 < wired.dev.buffered + 0x400001 ∧
      wired.dev.buffered + 100 ≤ 0x400000) ∧
    isA [] = .dropped ∧
    (isA (datagram [1]) = .smiper from2 [1] ∧ packetOf from2 [1] = none) ∧
    (isA (datagram identifyBytes) = .smiper from2 identifyBytes ∧
      (packetOf from2 identifyBytes).map (fun x => (x.1, x.2.2)) = some (0x101, []) ∧ ∃ c, cmdOf 0x101 = some c) ∧
    isA (ping 0) = .quiet ∧
    (wired.dev.buffered + arpAsk.length ≤ 0x400000 ∧ wired.dev.buffered + solicit.length ≤ 0x400000 ∧
      wired.dev.buffered + (ping 8).length ≤ 0x400000) ∧
    (isA arpAsk = .arp [10, 0, 0, 2] [10, 0, 0, 1] ∧
      ∃ f, (wired.dev.inc Reg.HP_COUNT0_FRAMES_IN).answerFrame 0 arpAsk (.arp [10, 0, 0, 2] [10, 0, 0, 1]) = some f ∧
        f.length ≤ wired.dev.get Reg.HP_CTRL_MAX_FRAME) ∧
    (∃ a b, isA solicit = .solicitation a b ∧
      ∃ f, (wired.dev.inc Reg.HP_COUNT0_FRAMES_IN).answerFrame 0 solicit (.solicitation a b) = some f ∧
        f.length ≤ wired.dev.get Reg.HP_CTRL_MAX_FRAME) ∧
    (∃ b, isA (ping 8) = .echo false [10, 0, 0, 2] b ∧
      ∃ f, (wired.dev.inc Reg.HP_COUNT0_FRAMES_IN).answerFrame 0 (ping 8) (.echo false [10, 0, 0, 2] b) = some f ∧
        f.length ≤ wired.dev.get Reg.HP_CTRL_MAX_FRAME) ∧
    (live.dev.boot.phase = .run ∧ live.dev.power ≤ 2 ∧ (live.dev.takeStaged hpLo hpHi hpLater).hostPortExists 0 = true ∧
      ((live.dev.takeStaged hpLo hpHi hpLater).get Reg.HP_STATUS_LINK).testBit 0 = false) ∧
    (wired.dev.get Reg.HP_STATUS_LINK).testBit 0 = true := by
  refine ⟨?_, ?_, ?_, ⟨?_, ?_, _, rfl⟩, ?_, ?_, ⟨?_, short_of ?_⟩, ⟨wired.dev.ip6.take 15 ++ [2], wired.dev.ip6, ?_, short_of ?_⟩,
    ⟨[8, 0] ++ toBe 2 (inetSum [8, 0, 0, 0, 0, 1, 0, 1]) ++ [0, 1, 0, 1], ?_, short_of ?_⟩, ?_, ?_⟩ <;> decide +kernel

/-- A PTP message of source 5. -/
abbrev ptp0 : PtpMsg :=
  { port := 0, v6 := false, domain := 0, source := 5, twoStep := false, seqId := 1, time := 0, stamp := 10, correction := 0, quality := [1] }

/-- The live device with a time transmitter, in a PTP state. -/
def timed (st : Nat) : State := wired.withDev (({ wired.dev with time := { wired.dev.time with
  transmitter := some 5, quality := [2], sync := some ptp0, delayReq := some (1, 3), lastSync := some (0, 10) } }).set
    Reg.HP_STATUS_PTP_STATE st)

theorem witness_TimeIsSteered :
    ((timed 1).dev.ptpOn ptp0 = true ∧ (timed 2).dev.ptpOn ptp0 = true ∧ (timed 1).dev.time.transmitter = some ptp0.source ∧
      (timed 1).dev.get Reg.HP_STATUS_PTP_STATE = 1 ∧ (timed 2).dev.get Reg.HP_STATUS_PTP_STATE = 2) ∧
    (timed 1).dev.time.sync = some ptp0 ∧
    ((timed 1).dev.time.delayReq = some (ptp0.seqId, 3) ∧ (timed 1).dev.time.lastSync = some (0, 10)) ∧
    (wired.dev.ptpOn ptp0 = true ∧ wired.dev.time.transmitter = none) ∧
    ((5 : Nat) ≠ ({ ptp0 with source := 6 } : PtpMsg).source ∧ better ptp0.quality (timed 1).dev.time.quality = true) ∧
    (1000000 < (1000001 : Int).natAbs ∧ (1000000 : Int).natAbs ≤ 1000000 ∧ (-50 : Int).natAbs ≤ 50) := by decide +kernel

/-- A running job, with a change of its device. -/
def going (f : Dev → Dev) : State := liveAt (fun d => f (d.setJs jsRunning))

/-- Bytes of bench 0's scratchpad, by offset. -/
def inSp (l : List (Nat × List W64)) (d : Dev) : Dev := l.foldl (fun d p => d.spWr 0 p.1 (wordsBytes p.2)) d

/-- A LOCAL shape of two dimensions: format, base, extents, row stride. -/
def shape2 (fmt base e0 e1 stride : Nat) : List W64 :=
  [packFlds [(63, 56, 0x53), (55, 52, fmt), (50, 48, 2), (44, 44, 1)], 0, w64 base, 0, packFlds [(63, 40, e0)],
   packFlds [(63, 40, e1), (39, 0, stride)]] ++ List.replicate 10 0

/-- A TRANSPOSE of a FP32 element, from 0x1000 to 0x2000; `fe` are its tag fields. -/
def transposeIt (axis fe : Nat) : Item :=
  { words := [packFlds [(63, 56, 0x40), (55, 53, axis), (49, 46, fe)], packFlds [(63, 41, 0), (40, 18, 0x80)], 0, 0, 0, 0, 0, 0] }

/-- Bench 0 with a record in the last's queue, and its leave. -/
def lastHas (it : Item) (held : Nat) : State := going (fun d =>
  ((inSp [(0, shape2 fmtFP32 0x1000 1 1 64), (0x80, shape2 fmtFP32 0x2000 1 1 64)] d).onEng 0 1 (fun q => { q with queue := [it] })).set
    (Reg.BENCH_LEAVE_HELD 0) held |>.set (Reg.LEAVE_TABLE_UNITS 5) 10)

/-- What `slotsReady` says, as a Bool. -/
def ready (d : Dev) (l : List Nat) (full : Bool) : Bool := l.all (fun k => d.tagErr k = 0) && d.tagsAre l full

theorem ready_of {d : Dev} {l : List Nat} {full : Bool} (x : ready d l full = true) : d.slotsReady l full := by
  rw [ready, Bool.and_eq_true, List.all_eq_true] at x
  exact ⟨fun k hk => of_decide_eq_true (x.1 k hk), x.2⟩

/-- What `EngEnds` says, as a Bool. -/
def endsB (d : Dev) (e : Nat) (w : List W64) (p : Plan) : Bool :=
  ready d (p.fullSlots 0) true && (ready d (p.emptySlots 0) false && ((d.engMet 0 e w p).2.isNone &&
    ((d.engRead 0 e w p).2.isNone && (p.run (d.engRead 0 e w p).1).2.isNone)))

theorem ends_of {d : Dev} {e : Nat} {w : List W64} {p : Plan} (x : endsB d e w p = true) : d.EngEnds 0 e w p := by
  simp only [endsB, Bool.and_eq_true, Option.isNone_iff_eq_none] at x
  exact ⟨ready_of x.1, ready_of x.2.1, x.2.2.1, x.2.2.2.1, x.2.2.2.2⟩

/-- What `EngRuns` says of a record alone in its queue, as a Bool; without its leave, that it is refused its leave. -/
def runsB (d : Dev) (e : Nat) (it : Item) (leave : Bool) : Bool :=
  match enginePlan e (d.engTaken 0 e it []) 0 (engLatch e d 0 it).2 with
  | .ok p => (d.badRanges 0 (engLatch e d 0 it).1).isNone && ((enginePlan e (d.engNamed 0 e it) 0 (engLatch e d 0 it).2).isOk &&
      (leaveOk (d.engTaken 0 e it []) 0 (leaveUnits (d.engTaken 0 e it []) (engLeave it.words)) == leave &&
        (!leave || endsB (d.engStarted 0 e it []) e it.words p)))
  | .error _ => false

theorem runs_of {d : Dev} {e : Nat} {it : Item} (x : runsB d e it true = true) : ∃ p, d.EngRuns 0 e it [] p := by
  unfold runsB at x
  split at x
  next p h =>
    simp only [Bool.and_eq_true, Option.isNone_iff_eq_none, beq_iff_eq, Bool.not_true, Bool.false_or] at x
    exact ⟨p, x.1, x.2.1, h, x.2.2.1, ends_of x.2.2.2⟩
  next => cases x

theorem witness_EngineRecordsRun :
    (let s := lastHas (transposeIt 1 0) 1000
     (s.dev.js = jsRunning ∧ s.dev.paused = false ∧ s.dev.get Reg.STEP_STATE_PHASE ≠ 2 ∧ ((s.dev.bn 0).eng 1).cur = none ∧
       ((s.dev.bn 0).eng 1).queue = transposeIt 1 0 :: [] ∧ s.dev.badRanges 0 (engLatch 1 s.dev 0 (transposeIt 1 0)).1 = none) ∧
     EngineRow 0 (transposeIt 1 0).words (.transpose 0) 1 ∧ ∃ p, s.dev.EngRuns 0 1 (transposeIt 1 0) [] p) ∧
    runsB (lastHas (transposeIt 1 0) 0).dev 1 (transposeIt 1 0) false = true ∧
    (let s := lastHas (transposeIt 0 0) 0
     (enginePlan 1 (s.dev.engNamed 0 1 (transposeIt 0 0)) 0 (engLatch 1 s.dev 0 (transposeIt 0 0)).2).toBool = false) := by
  refine ⟨⟨?_, .transpose ?_ ?_, runs_of ?_⟩, ?_, ?_⟩ <;> decide +kernel

/-- Words of job memory, whose segment 0 is physical segment 0. -/
def inJob (l : List (Nat × List W64)) (d : Dev) : Dev :=
  (l.foldl (fun d p => d.wr p.1 (wordsBytes p.2)) d).setReg (Reg.SEGTAB 0) (packFlds [(63, 63, 1)])

/-- Bench 0 reads a record from its list at 0x1000. -/
def listHas (w : List W64) (f : Dev → Dev) : State := going (fun d =>
  f ((inJob [(0x1000, w)] d).onBn 0 (fun x => { x with list := 0x1000, seq := .running })))

/-- A record of a type, with word 0's fields below it. -/
abbrev recOf (t : Nat) (l : List (Nat × Nat × Nat)) : List W64 := packFlds ((63, 56, t) :: l) :: List.replicate 7 0

/-- A SELECT with floor 0's map, of lengths 1, 1 and 1. -/
def select0 : List W64 := [packFlds [(63, 56, 0x70), (39, 32, 1)], packFlds [(63, 48, 1), (47, 32, 1), (31, 16, 1)], 0, 0, 0, 0, 0, 0]

/-- The attic of floor 0 with its control block at 0x4000, entries at 0x5000 and its map at 0x6000. -/
def atticAt (mapWord entry1 : W64) (d : Dev) : Dev :=
  ((inJob [(0x4000, [0x8000, 0, 0, 0, 0x5000, 0x6000, 0, 0]), (0x5000, [0, entry1]), (0x6000, [mapWord])] d).set
    (Reg.ATTIC_CTRL_EN 0) 1).set (Reg.ATTIC_CTRL_CTRL_ADDR 0) 0x4000 |>.set (Reg.ATTIC_CTRL_RING_LOG2 0) 12

theorem witness_RecordsAreFetched :
    (∀ w ∈ [recOf 0 [], recOf 0x99 [], recOf 0x30 [], recOf 0x40 []], (listHas w id).dev.runs = true ∧
      ((listHas w id).dev.bn 0).seq = .running ∧ afterSkip ((listHas w id).dev.bn 0).pos ((listHas w id).dev.bn 0).skip = (0, []) ∧
      (listHas w id).dev.fetch (((listHas w id).dev.bn 0).list + 64 * 0) 8 = .words w) ∧
    (queueOf (recOf 0x99 []) = none ∧ queueOf (recOf 0x40 []) = some 2 ∧ benchQueueLen (listHas (recOf 0x40 []) id).dev 0 2 < 8) ∧
    (let s := listHas select0 (fun d => inJob [(0x1040, recOf 0x10 [] ++ recOf 0x10 [] ++ recOf 0x10 [])] (atticAt 0 0 d))
     s.dev.fetch 0x1000 8 = .words select0 ∧ (s.dev.onBn 0 (fun x => { x with pos := 1 })).selOk select0 false 0x1000 1 = true) ∧
    (let s := listHas (recOf 0x40 []) (fun d => d.onEng 0 1 (fun q => { q with queue := List.replicate 8 (transposeIt 1 0) }))
     s.dev.fetch 0x1000 8 = .words (recOf 0x40 []) ∧ 8 ≤ benchQueueLen s.dev 0 2) ∧
    (let s := going (fun d => d.onBn 0 (fun x => { x with seq := .ragged (recOf 0x30 []) }))
     s.dev.finishes = true ∧ (s.dev.bn 0).seq = .ragged (recOf 0x30 []) ∧ (s.dev.bn 0).raggedSt = none ∧
      (ragCheck s.dev 0 (recOf 0x30 [])).isSome = true ∧
      (let w : List W64 := [packFlds [(63, 56, 0x30), (55, 47, 1), (45, 43, 1)], packFlds [(63, 41, 0x1000), (40, 18, 0x2000)], 0, 0, 0, 0, 0, 0]
       let s := going (fun d => (inSp [(0x1000, recOf 0x10 [(40, 40, 1)])] d).onBn 0 (fun x => { x with seq := .ragged w }))
       (s.dev.bn 0).seq = .ragged w ∧ ragCheck s.dev 0 w = none ∧ fld (wd w 0) 18 17 = 0 ∧ s.dev.badRanges 0 (ragReads s.dev 0 w) = none)) ∧
    (let s := going (fun d => d.onBn 0 (fun x => { x with seq := .ragged [], raggedSt := some ⟨[], [], 0, false⟩ }))
     (s.dev.bn 0).seq = .ragged [] ∧ ∃ r, (s.dev.bn 0).raggedSt = some r ∧ r.todo = []) := by
  refine ⟨?_, ?_, ?_, ?_, ?_, ?_, _, rfl, ?_⟩ <;> decide +kernel

/-- Bench 0 waits at a SELECT whose fence is released, with floor 0's attic. -/
def selecting : State := going (fun d => (atticAt 1 0 d).onBn 0 (fun x => { x with seq := .selFence select0 }) |>.onFence 0 (fun x =>
  { x with released := true }))

theorem witness_SelectsChoosePaths :
    (selecting.dev.runs = true ∧ (selecting.dev.bn 0).seq = .selFence select0 ∧ (selecting.dev.fence (selFence select0)).released = true ∧
      selecting.dev.recomputeAny (selGroup select0) (onesOf 8 (selFloors select0)) = .value true ∧ selCkptEn select0 = false) ∧
    (let s := going (fun d => ((inJob [(0x1000, select0 ++ recOf 0x60 [] ++ recOf 0x60 [] ++ recOf 0x60 [])] (atticAt 1 0 d)).onFence 0
        (fun x => { x with released := true })).onFloor 0 (fun f => { f with stash := .running, stashList := 0x1000 }))
     s.dev.runs = true ∧ s.dev.get (Reg.ATTIC_CTRL_EN 0) = 1 ∧ (s.dev.floor 0).stash = .running ∧ (s.dev.floor 0).stashCur = none ∧
      afterSkip (s.dev.floor 0).stashPos (s.dev.floor 0).stashSkip = (0, []) ∧ s.dev.fetch 0x1000 8 = .words select0 ∧
      s.dev.selOk select0 true 0x1000 1 = true ∧ s.dev.recomputeAny (selGroup select0) (onesOf 8 (selFloors select0)) = .value true) := by
  decide +kernel

/-- A lane-row record of INT8 by INT8 without drain, one row, one chunk, one lane, one element, in a mode of sparsity. -/
def laneIt (sparse : Nat) (more : List (Nat × Nat × Nat)) : Item :=
  { words := [packFlds ([(63, 56, 0x10), (52, 49, fmtINT8), (48, 45, fmtINT8), (42, 41, sparse), (40, 40, 1), (31, 24, 1),
      (15, 0, 1)] ++ more), packFlds [(63, 52, 1), (51, 43, 1), (22, 0, 0x1000)], 0, packFlds [(56, 34, 0x20000)],
      packFlds [(23, 20, 7), (19, 16, 7), (15, 0, 9)], 0, 0, 0] }

/-- A run of that record, at row 0 of chunk 0. -/
def laneAt (it : Item) (closed loaded : Bool) (rows : Nat) : LaneRun :=
  { item := it, rows := rows, closed := closed, sPos := 0, dPos := 0, chunk := 0, row := 0, file := 0, loaded := loaded, winMask := 0, wait := none }

/-- The lane row of bench 0 with a record in progress. -/
def laneHas (r : LaneRun) (f : Dev → Dev) : State :=
  going (fun d => f (d.onBn 0 (fun x => { x with lane := { x.lane with cur := some r } })))

/-- A COMPACT record of one row in one chunk of 8 windows (INT8), its source's shape at 0. -/
def compactIt (rows : Nat) : Item :=
  { words := [packFlds [(63, 56, 0x20), (49, 46, 8), (31, 24, rows), (15, 0, 1)], 0, 0, 0, 0, 0, 0, 0] }

/-- The awl of bench 0 has a COMPACT record queued, the lane row a COMPACTED one in progress. -/
def pairing (c : Item) : State := laneHas (laneAt (laneIt 2 []) true false 1) (fun d =>
  (inSp [(0, shape2 fmtINT8 0x1000 1024 1 1024)] d).onBn 0 (fun x => { x with awl := { x.awl with queue := [c] } }))

theorem witness_LaneRowRuns :
    (let s := going (fun d => d.onBn 0 (fun x => { x with lane := { x.lane with queue := [laneIt 3 []] } }))
     let h := laneTakeHead s.dev 0 (laneIt 3 [])
     s.dev.finishes = true ∧ s.dev.js = jsRunning ∧ (s.dev.bn 0).lane.cur = none ∧ (s.dev.bn 0).lane.queue = laneIt 3 [] :: [] ∧
      (s.dev.bn 0).lane.drains = [] ∧ (s.dev.bn 0).lane.pre = none ∧
      (match h.2 with | .ok it => (lrCheck h.1 0 true (codeHead h.1 0 it) it.words).isSome | .error _ => false) = true) ∧
    (let r := laneAt (laneIt 0 []) true true 1
     let s := laneHas r id
     let w := r.item.words
     let m := laneMeet s.dev 0
     let a := laneAhead m.1 0 r
     let reads := rowReads a 0 r
     (s.dev.bn 0).lane.cur = some r ∧ r.chunk + 1 = lrChunks w ∧ lrSparse w ≠ 2 ∧ (s.dev.bn 0).lane.drains = [] ∧ m.2 = none ∧
      (m.1.bn 0).lane = (s.dev.bn 0).lane ∧ (a.bn 0).lane.cur = some r ∧ r.row + 1 = r.rows ∧ (a.bn 0).lane.drains = [] ∧
      ready a (r.slots a 0 r.row) true = true ∧ a.badRanges 0 reads.1 = none ∧ a.badRanges 0 reads.2 = none ∧
      lrStreamFe w ≠ 2 ∧ lrBatch w = false ∧
      (let d₁ := a.correctReads 0 (reads.1 ++ reads.2)
       let d₂ := rowChunk d₁ 0 (codeHead d₁ 0 r.item) w r.file (r.pos r.row) r.row r.chunk []
       let more := drainsOf w (d₂.bn 0).lane.starts r.row r.row (64 + r.row)
       let d₃ := d₂.onLane 0 (fun l => { l with
         packets := (s.dev.bn 0).lane.packets, drains := more.foldl (fun l x => drainInsert x l) l.drains })
       ((drainRun 2 d₃ 0).bn 0).lane.cur.isSome = true)) ∧
    (let r := laneAt (laneIt 0 [(32, 32, 1), (23, 22, 2), (21, 20, 1)]) false false 1
     let s := laneHas r (fun d => d.setTags (r.slots d 0 r.rows) true)
     (s.dev.bn 0).lane.cur = some r ∧ s.dev.slotsReady (r.slots s.dev 0 r.rows) true ∧ r.rows ≠ 0 ∧ lrTimeout r.item.words ≠ 0) ∧
    (let s := pairing (compactIt 1)
     ((s.dev.finishes = true ∧ (s.dev.bn 0).lane.cur = some (laneAt (laneIt 2 []) true false 1) ∧ (s.dev.bn 0).lane.chunkMasks = [] ∧
        (s.dev.bn 0).awl.cur = none ∧ (s.dev.bn 0).awl.queue = [compactIt 1] ∧ recType (compactIt 1).words = 0x20) ∧
       compactAgrees s.dev 0 (laneIt 2 []).words (compactIt 1) = true) ∧ ∃ p, s.dev.EngRuns 0 0 (compactIt 1) [] p) ∧
    oldestCompact ((pairing (compactIt 2)).dev.bn 0) = some (compactIt 2) ∧
    compactAgrees (pairing (compactIt 2)).dev 0 (laneIt 2 []).words (compactIt 2) = false := by
  refine ⟨?_, ?_, ⟨?_, ready_of ?_, ?_, ?_⟩, ⟨?_, runs_of ?_⟩, ?_, ?_⟩ <;> decide +kernel

/-- A wait for bench 0's slots that has lasted, or not yet. -/
def waiting (l : List Nat) (full : Bool) : Wait := { slots := l, full := full, since := 0 }

/-- The last of bench 0 waits for the slot of a row of 128 FP32 elements, full or not, for a number of beats. -/
def lastWaits (full : Bool) (beats : Nat) : State := going (fun d =>
  { ((inSp [(0, shape2 fmtFP32 0x1000 128 1 512), (0x80, shape2 fmtFP32 0x20000 1 128 64)] d).onEng 0 1 (fun q => { q with
      cur := some ⟨transposeIt 1 4, 1, some (waiting [8] true)⟩ })).setTags [8] full with countedBeats := beats })

theorem planEnds_of {d : Dev} {e : Nat} {it : Item}
    (x : (match enginePlan e d 0 it with | .ok p => endsB d e it.words p | .error _ => false) = true) :
    ∃ p, enginePlan e d 0 it = .ok p ∧ d.EngEnds 0 e it.words p := by
  split at x
  next p h => exact ⟨p, h, ends_of x⟩
  next => cases x

/-- The last's record waits for tags that are not as it wants them. -/
def lastHeld (s : State) : Bool :=
  match enginePlan 1 s.dev 0 (transposeIt 1 4) with
  | .ok p => (p.fullSlots 0).all (fun k => s.dev.tagErr k = 0) && !s.dev.tagsAre (p.fullSlots 0) true
  | .error _ => false

/-- A channel of bench 0 whose descriptor, or a burst of it, waits. -/
def chanWaits (beats : Nat) (fly : List Burst) : State := going (fun d =>
  { d.onChan 0 0 (fun c => { c with cur := some { words := List.replicate 8 0, place := none, wait := some (waiting [8] true), fly := fly } })
    with countedBeats := beats })

/-- A burst to bench 0's slot 8 that waits for its tag. -/
def burstWaits : Burst := { pos := 0, len := 64, dst := spBase 0 + 4096, wait := some (waiting [8] false) }

theorem witness_MismatchesAndTagWaits :
    (let s := laneHas (laneAt (laneIt 0 []) true true 1) id
     s.dev.finishes = true ∧ (s.dev.bn 0).lane.cur = some (laneAt (laneIt 0 []) true true 1) ∧ s.dev.frozen = false) ∧
    reformUnitOk (.awl 0) = true ∧
    (((lastWaits false 5000000).dev.bn 0).eng 1).cur = some ⟨transposeIt 1 4, 1, some (waiting [8] true)⟩ ∧
    ((lastWaits false 5000000).dev.waitExpired (waiting [8] true) = true ∧ (lastWaits false 0).dev.waitExpired (waiting [8] true) = false) ∧
    ((lastWaits false 0).dev.rivals (.engine 0 3) = [] ∧ (lastWaits true 0).dev.rivals (.engine 0 3) = [] ∧
      lastHeld (lastWaits false 0) = true) ∧
    (∃ p, enginePlan 1 (lastWaits true 0).dev 0 (transposeIt 1 4) = .ok p ∧
      (lastWaits true 0).dev.EngEnds 0 1 (transposeIt 1 4).words p) ∧
    (let r := { laneAt (laneIt 0 []) true true 1 with wait := some (waiting [8] true) }
     let s := laneHas r (fun d => { d with countedBeats := 5000000 })
     s.dev.rivals (.engine 0 0) = [] ∧ (s.dev.bn 0).lane.cur = some r ∧ s.dev.waitExpired (waiting [8] true) = true) ∧
    (let q : DrainRow := { words := (laneIt 0 []).words, acc := 0, off := 0, index := 0, tensor := 0, wait := some (waiting [8] false) }
     let s := going (fun d => { d.onBn 0 (fun x => { x with lane := { x.lane with drains := [q] } }) with countedBeats := 5000000 })
     s.dev.rivals (.engine 0 1) = [] ∧ (s.dev.bn 0).lane.drains = q :: [] ∧ s.dev.waitExpired (waiting [8] false) = true) ∧
    (let s := going (fun d => { d.onBn 0 (fun x => { x with seq := .ragged [], raggedWait := some (waiting [8] true) }) with
        countedBeats := 5000000 })
     s.dev.rivals (.engine 0 5) = [] ∧ (s.dev.bn 0).seq = .ragged [] ∧ (s.dev.bn 0).raggedWait = some (waiting [8] true) ∧
      s.dev.waitExpired (waiting [8] true) = true) ∧
    ((chanWaits 5000000 []).dev.netRuns = true ∧ (chanWaits 5000000 []).dev.waitExpired (waiting [8] true) = true ∧
      (chanWaits 0 []).dev.waitExpired (waiting [8] true) = false ∧ (waiting [8] true).slots = 8 :: [] ∧
      ∃ r, ((chanWaits 5000000 []).dev.chan 0 0).cur = some r ∧ r.wait = some (waiting [8] true) ∧ r.fly = []) ∧
    ((chanWaits 0 []).dev.rivals (.channel 0 0) = [] ∧ ((chanWaits 0 []).dev.ownRetry 0 0).net.pkts = []) ∧
    (let s := chanWaits 5000000 [burstWaits]
     ∃ r, (s.dev.chan 0 0).cur = some r ∧
      r.fly.find? (fun b => (b.wait.map s.dev.waitExpired).getD false) = some burstWaits ∧ burstWaits.wait = some (waiting [8] false)) := by
  refine ⟨?_, ?_, ?_, ?_, ?_, planEnds_of ?_, ?_, ?_, ?_, ⟨?_, ?_, ?_, ?_, _, rfl, ?_⟩, ?_, _, rfl, ?_⟩ <;> decide +kernel

theorem witness_ScrubbersRead :
    (let s := liveAt (fun d => ((d.set (Reg.CELLAR_CTRL_SCRUB_EN 0) 1).set (Reg.SP_CTRL_SCRUB_EN 0) 1))
     s.dev.awake 4 = true ∧ s.dev.get (Reg.CELLAR_CTRL_SCRUB_EN 0) = 1 ∧ s.dev.awake (0 / 36) = true ∧
      s.dev.get (Reg.SP_CTRL_SCRUB_EN 0) = 1 ∧ (s.dev.errIn (spBase 0 + 0) 128).filter (fun e => e.2 = 3) = [] ∧
      SMap.get (fun _ => 0) s.dev.errs (spBase 0 + (0 + 8 * 15)) ≠ 3) ∧
    (let s := liveAt (fun d => (d.set (Reg.SP_CTRL_SCRUB_EN 0) 1).onBn 0 (fun x => { x with scrubPtr := [(0, 1023)] }))
     s.dev.awake (0 / 36) = true ∧ s.dev.get (Reg.SP_CTRL_SCRUB_EN 0) = 1 ∧ SMap.get (fun _ => 0) (s.dev.bn 0).scrubPtr 0 = 1023 ∧
      (s.dev.errIn (spBase 0 + (0 * 131072 + 1023 * 128)) 128).filter (fun e => e.2 = 3) = []) ∧
    (let s := liveAt (fun d => { d.onFloor 0 (fun f => { f with writeBacks := [64] }) with errs := [(64, 1)] })
     s.dev.awake 4 = true ∧ 64 ∈ (s.dev.floor 0).writeBacks ∧ SMap.get (fun _ => 0) s.dev.errs 64 ≠ 3) ∧
    (let s := liveAt (fun d => { d.onBn 0 (fun x => { x with writeBacks := [8] }) with errs := [(0xF000000008, 1)] })
     8 ∈ (s.dev.bn 0).writeBacks ∧ SMap.get (fun _ => 0) s.dev.errs (spBase 0 + 8) ≠ 3) := by decide +kernel

/-- Floor 0's stash engine reads a record from its list at 0x1000; its attic's map word and first entry. -/
def stashHas (w : List W64) (mapWord entry1 : W64) (frames : List Nat) : State := going (fun d =>
  (inJob [(0x1000, w)] (atticAt mapWord entry1 d)).onFloor 0 (fun f => { f with stash := .running, stashList := 0x1000, frames := frames }))

/-- A STASH of 4096 bytes, a RECALL and a FREE, of group 0 and entry 0. -/
def stash0 (fresh : Nat) : List W64 :=
  [packFlds [(63, 56, 0x60), (55, 55, fresh), (10, 10, fresh)], packFlds [(47, 0, 0x10000)], packFlds [(39, 0, 4096)], 0, 0, 0, 0, 0]

/-- The attic reads, and `f` holds of it. -/
def foundB (x : AtticAt) (f : Attic → Bool) : Bool := match x with | .found a => f a | _ => false

theorem found_of {x : AtticAt} {f : Attic → Bool} (h : foundB x f = true) : ∃ a, x = .found a ∧ f a = true := by
  cases x with
  | found a => exact ⟨a, rfl, h⟩
  | _ => cases h

/-- A STASH's copy passes its checks, its group is marked or not, and its words can be written. -/
def stashes (d : Dev) (w : List W64) (marked : Bool) (a : Attic) : Bool :=
  let d := d.readAttic a { map := true }
  let first := d.jobWrites 144 (stId w) (if stFirst w then [(a.mapAddr, putMap a.map (stGroup w) false)] else [])
  let pushed := if stNewFrame w then first.1.onFloor 0 (fun f => { f with frames := f.frames ++ [a.writePos] }) else first.1
  let limit := pushed.jobWrites 144 (stId w) [(a.ctrl + 24, w64 (a.consumePos + 2 ^ 64 - a.writePos % 2 ^ 64))]
  (dmCheck 144 7 (stashDesc w false (stAddr w) 0 (a.ring + a.writePos % 2 ^ a.ringLog2) a.ringLog2 (stBytes w) (a.ctrl + 24))
    (Shape.ofWords []) (Shape.ofWords [])).isNone && bit a.map (stGroup w % 64) == marked && first.2 &&
    decide ((first.1.floor 0).frames.length < 64) && limit.2

/-- A stash in progress, its channel stopped for a cause. -/
def stashed (w : List W64) (cause : Nat) : State :=
  going (fun d => (((atticAt 0 0 d).onFloor 0 (fun f => { f with stash := .running, stashCur := some (w, true) }))).set
    (Reg.CH_STATE_STOP_CAUSE 144 7) cause)

theorem witness_StashRecordsRun :
    (∀ x ∈ [(stash0 0, (0 : W64), (0 : W64), ([] : List Nat)), (stash0 0, 1, 0, []), (stash0 1, 1, 0, []), (recOf 0x61 [], 0, 2 ^ 23, []),
        (recOf 0x62 [], 0, 0, [0])],
      ((stashHas x.1 x.2.1 x.2.2.1 x.2.2.2).dev.floor 0).stashCur = none ∧
      (stashHead (stashHas x.1 x.2.1 x.2.2.1 x.2.2.2).dev 0).2 = some x.1 ∧ stWait x.1 = false) ∧
    (stBytes (stash0 1) ≠ 0 ∧ stFe (stash0 1) ≤ 2 ∧ stNewFrame (stash0 1) = true ∧ stFirst (stash0 1) = true ∧ stFirst (stash0 0) = false ∧
      stBytes (stash0 0) ≠ 0 ∧ stFe (stash0 0) ≤ 2) ∧
    (let d := (stashHead (stashHas (stash0 0) 0 0 []).dev 0).1
     ∃ a, d.attic 0 0 0 { map := true } = .found a ∧ stashes d (stash0 0) false a = true) ∧
    (let d := (stashHead (stashHas (stash0 0) 1 0 []).dev 0).1
     ∃ a, d.attic 0 0 0 { map := true } = .found a ∧ stashes d (stash0 0) true a = true) ∧
    (let d := (stashHead (stashHas (stash0 1) 1 0 []).dev 0).1
     ∃ a, d.attic 0 0 0 { map := true } = .found a ∧ stashes d (stash0 1) true a = true) ∧
    (∃ a, (stashHead (stashHas (recOf 0x61 []) 0 (2 ^ 23) []).dev 0).1.attic 0 0 0 { entry := true } = .found a ∧ bit (wd a.entry 1) 23 = true) ∧
    (let d := (stashHead (stashHas (recOf 0x62 []) 0 0 [0]).dev 0).1
     (d.floor 0).frames = [0] ∧
      ∃ a, d.attic 0 0 0 {} = .found a ∧ ((d.readAttic a {}).jobWrites 144 0 [(a.ctrl + 16, w64 a.writePos)]).2 = true) ∧
    (∀ x ∈ [(stash0 0, 0), (stash0 0, 8), (recOf 0x61 [], 0)], ((stashed x.1 x.2).dev.floor 0).stashCur = some (x.1, true) ∧
      (stashed x.1 x.2).dev.runs = true ∧ stashIdle7 (stashed x.1 x.2).dev 0 = true ∧
      (stashed x.1 x.2).dev.get (Reg.CH_STATE_STOP_CAUSE 144 7) = x.2) ∧
    (let d := (stashed (stash0 0) 0).dev
     ∃ a, d.attic 0 0 0 {} = .found a ∧ ((d.readAttic a {}).jobWrites 144 0 [(a.entryAddr, w64 a.writePos),
       (a.entryAddr + 8, packFlds [(63, 24, 4096), (23, 23, 1)]), (a.ctrl + 8, w64 (a.writePos + roundUp 4096 4096))]).2 = true) ∧
    (let d := (stashed (stash0 0) 8).dev
     ∃ a, d.attic 0 0 0 { map := true } = .found a ∧ ((d.readAttic a { map := true }).jobWrites 144 0 [(a.entryAddr, w64 a.writePos),
       (a.entryAddr + 8, packFlds [(63, 24, 4096), (23, 23, 0)]), (a.mapAddr, putMap a.map 0 true)]).2 = true) := by
  refine ⟨?_, ?_, found_of ?_, found_of ?_, found_of ?_, found_of ?_, ⟨?_, found_of ?_⟩, ?_, found_of ?_, found_of ?_⟩ <;> decide +kernel

/-- An UPDATE entry of no elements, in granules of 32, of a kind. -/
def update0 (kind : Nat) : List W64 :=
  [packFlds [(63, 56, 0x80), (55, 54, kind), (39, 28, 32)], 0, packFlds [(35, 29, 4)], 0, 0, 0, 0, 0]

/-- Floor 0's update engine in a running step, with an entry at its head, its group's rule and FROZEN. -/
def updHas (kind rule fz : Nat) : State := going (fun d =>
  (((inJob [(0x1000, update0 kind)] d).onFloor 0 (fun f => { f with upd := .running, updList := 0x1000 })).set Reg.STEP_STATE_PHASE 1).set
    (Reg.GROUP_W0_RULE 0) rule |>.set (Reg.GROUP_W0_FROZEN 0) fz)

theorem witness_UpdateEntriesRun :
    (∀ x ∈ [(0, 0, 1), (0, 0, 0), (1, 0, 0)], (updHas x.1 x.2.1 x.2.2).dev.runs = true ∧
      (updHead (updHas x.1 x.2.1 x.2.2).dev 0).2 = some (update0 x.1) ∧ ueKind (update0 x.1) = x.1 ∧ ueWait (update0 x.1) = false) ∧
    ((updHead (updHas 0 0 1).dev 0).1.group 0).frozen = true ∧
    (let d := (updHead (updHas 0 0 0).dev 0).1
     (d.group 0).frozen = false ∧ d.ueOk (d.group 0) (update0 0) = true) ∧
    (let d := (updHead (updHas 1 0 0).dev 0).1
     (d.group 0).frozen = false ∧ d.ueOk (d.group 0) (update0 1) = false) := by
  refine ⟨?_, ?_, ?_, ?_⟩ <;> decide +kernel

/-- A running job in VOTING, the agreement known; the late moves made and their limit, NONFINITE and the step's action on it. -/
def closing (c : Option Contrib) (late : Nat) (limit : Nat := 3) (nf : Nat := 0) : State := going (fun d => (((({ d with step := { d.step with
  agreed := c.map (fun c => (c, 0)), lateMoves := late } } : Dev).set Reg.STEP_STATE_PHASE 2).set Reg.LAT_DOMAIN_AGREE_BEATS 0).set
    Reg.COMMIT_CTRL_VOTE_LATE_LIMIT limit).set Reg.COMMIT_STATUS_NONFINITE nf |>.set (Reg.STEP_W0_NONFINITE_ACTION d.stepSlot) nf)

/-- With COMMIT_STATUS.FP_MINORITY cleared, as a close finds the device. -/
abbrev atClose (s : State) : Dev := s.dev.set Reg.COMMIT_STATUS_FP_MINORITY 0

/-- The close beat of a running job has come. -/
abbrev closes (s : State) : Prop :=
  s.dev.js = jsRunning ∧ s.dev.frozen = false ∧ s.dev.get Reg.STEP_STATE_PHASE = 2 ∧ s.dev.step.close ≤ s.dev.beat ∧ s.dev.dueBefore 5 = false

theorem witness_StepsStartAndClose :
    (let s := going (fun d => ({ d with job := { d.job with steps := 2 } } : Dev).set Reg.COMMIT_FENCES_START_FENCE 5 |>.onFence 5 (fun x =>
        { x with released := true }))
     s.dev.js = jsRunning ∧ s.dev.frozen = false ∧ s.dev.startFence ≠ 0 ∧ s.dev.get Reg.STEP_STATE_PHASE = 0 ∧
      s.dev.step.replayFrom = none ∧ (s.dev.fence s.dev.startFence).released = true) ∧
    (let s := going (fun d => { d with step := { d.step with replayAt := some 0 } })
     s.dev.step.replayAt = some 0 ∧ 0 ≤ s.dev.beat ∧ s.dev.js = jsRunning ∧ s.dev.frozen = false ∧ s.dev.dueBefore 6 = false) ∧
    (let s := closing none 0
     closes s ∧ (s.dev.floor 0).vote = none ∧ s.dev.writesOut (160 + 0) s.dev.net.nextId = false ∧ (atClose s).voteComplete = false ∧
      (atClose s).step.lateMoves < (atClose s).get Reg.COMMIT_CTRL_VOTE_LATE_LIMIT) ∧
    (let s := closing none 3
     closes s ∧ (atClose s).voteComplete = false ∧ (atClose s).get Reg.COMMIT_CTRL_VOTE_LATE_LIMIT ≤ (atClose s).step.lateMoves) ∧
    (let s := closing (some ⟨true, 0, 0⟩) 0
     closes s ∧ (atClose s).voteComplete = true ∧ (atClose s).step.agreed = some (⟨true, 0, 0⟩, 0) ∧ flagsDiffer 0 = false ∧
      (atClose s).get Reg.COMMIT_STATUS_NONFINITE ≠ 1) ∧
    (let s := closing (some ⟨true, 0, 0⟩) 0 3 1
     closes s ∧ (atClose s).voteComplete = true ∧ (atClose s).step.agreed = some (⟨true, 0, 0⟩, 0) ∧
      (atClose s).get Reg.COMMIT_STATUS_NONFINITE = 1 ∧ (atClose s).get (Reg.STEP_W0_NONFINITE_ACTION (atClose s).stepSlot) = 1) ∧
    (let s := closing (some ⟨false, 2, 0⟩) 0
     closes s ∧ (atClose s).voteComplete = true ∧ (atClose s).step.agreed = some (⟨false, 2, 0⟩, 0)) := by
  refine ⟨?_, ?_, ?_, ?_, ?_, ?_, ?_⟩ <;> decide +kernel

theorem witness_CommitsFlipTheParity :
    live.dev.job.steps = 0 ∧ (closing none 0).dev.get Reg.STEP_STATE_PHASE = 2 := by decide +kernel

/-- A descriptor of 64 bytes from 0x1000 to 0x2000 of a space, of a form, with more fields of word 0. -/
def desc (form sp : Nat) (more : List (Nat × Nat × Nat)) (lim : W64) : List W64 :=
  [packFlds ([(63, 56, 0x50), (55, 54, form), (49, 47, sp), (46, 44, sp)] ++ more), if form = 2 then 0 else 0x1000, if form = 2 then 0x80 else 0x2000] ++
  (if form = 0 then [packFlds [(63, 40, 64), (39, 0, 64)], packFlds [(63, 40, 64), (39, 0, 64)], packFlds [(63, 40, 1), (39, 16, 1)], 0, 0]
   else if form = 1 then [packFlds [(39, 0, 64)], lim, 0, 0, 0] else [0, 0, 0, 0, 0])

/-- Channel 0 of bench 0 has descriptors in its queue; two shapes stand in the scratchpad. -/
def chanHas (q : List (List W64)) : State := going (fun d => (inSp [(0, shape2 fmtFP32 0x1000 4 4 64), (0x80, shape2 fmtFP32 0x2000 4 4 64)] d).onChan 0 0
  (fun c => { c with queue := q.map (fun w => (w, none)) }))

/-- The words a SHAPE descriptor of bench 0 reads. -/
def shapesOf (w : List W64) : List W64 × List W64 :=
  if dmForm w = 2 then ((chanHas [w]).dev.spWords 0 (dmSrc w) 16, (chanHas [w]).dev.spWords 0 (dmDst w) 16) else ([], [])

/-- The checks on a descriptor of that channel. -/
def descCode (w : List W64) : Option Nat := dmCheck 0 0 w (Shape.ofWords (shapesOf w).1) (Shape.ofWords (shapesOf w).2)

/-- Channel 0 of a location has a descriptor in progress. -/
def chanRuns (loc ch : Nat) (r : ChanRun) (f : Dev → Dev) : State :=
  going (fun d => f (d.onChan loc ch (fun c => { c with cur := some r })))

theorem witness_DescriptorsStartAndStop :
    (∀ form ∈ [0, 1, 2], let w := desc form 1 [] 0
      (chanHas [w]).dev.chanLive 0 0 = true ∧ (chanHas [w]).dev.nextDesc 0 0 = .found w none false ∧ fld (wd w 0) 63 56 = 0x50 ∧
      dmForm w = form ∧ descCode w = none ∧ descCode (desc form 2 [] 0) = some eParameter ∧
      dmForm (desc form 2 [] 0) = form ∧ (chanHas [desc form 2 [] 0]).dev.nextDesc 0 0 = .found (desc form 2 [] 0) none false) ∧
    ((chanHas [desc 2 1 [] 0]).dev.shapeWords 0 (dmSrc (desc 2 1 [] 0)) = .words (shapesOf (desc 2 1 [] 0)).1 ∧
      (chanHas [desc 2 1 [] 0]).dev.shapeWords 0 (dmDst (desc 2 1 [] 0)) = .words (shapesOf (desc 2 1 [] 0)).2) ∧
    ((chanHas []).dev.nextDesc 0 0 = .none ∧
      (let s := going (fun d => (inJob [] d).onChan 0 0 (fun c => { c with list := 0x1000, reader := .running }))
       s.dev.chanLive 0 0 = true ∧ s.dev.nextDesc 0 0 = .ended)) ∧
    (let r : ChanRun := { words := desc 1 1 [] 0x4000, place := none, limit := some 0, limitSince := some 0 }
     let s := chanRuns 0 0 r (fun d => { inJob [(0x4000, [8])] d with countedBeats := 5000000 })
     (s.dev.chan 0 0).cur = some r ∧ s.dev.chanLive 0 0 = true ∧ r.stop = none ∧ r.limitSince = some 0 ∧ dmLimit r.words ≠ 0 ∧
      (s.dev.readLimit r.words).toOption = some 8 ∧ r.limit ≠ some 8 ∧ { r with limit := some 8 }.limit = some 8 ∧ s.dev.frozen = false ∧
      s.dev.get (Reg.DMA_CTRL_LIMIT_TIMEOUT 0) < s.dev.countedBeats - 0) ∧
    (let r : ChanRun := { words := desc 0 1 [] 0, place := none, stop := some 5 }
     let s := chanRuns 0 0 r id
     (s.dev.chan 0 0).cur = some r ∧ r.stop = some 5 ∧ r.ended = true ∧ s.dev.chanBusy 0 0 = false ∧ s.dev.frozen = false ∧
      s.dev.get (Reg.CH_STATE_STATE 0 0) ≠ 3 ∧ r.tallied = none) := by
  refine ⟨?_, ?_, ?_, ?_, ?_⟩ <;> decide +kernel

/-- Those descriptors and their shapes, and one at the head of a list, are read without an error. -/
theorem witness_DescriptorsReadClean :
    (let d := (chanHas [desc 2 1 [] 0]).dev
     (d.popDesc 0 0 false).readShape 0 (dmSrc (desc 2 1 [] 0)) = d.popDesc 0 0 false ∧
      (d.popDesc 0 0 false).readShape 0 (dmDst (desc 2 1 [] 0)) = d.popDesc 0 0 false) ∧
    (let s := going (fun d => (inJob [(0x1000, desc 0 1 [] 0)] d).onChan 0 0 (fun c => { c with list := 0x1000, reader := .running }))
     s.dev.chanLive 0 0 = true ∧ s.dev.nextDesc 0 0 = .found (desc 0 1 [] 0) (some 0x1000) true ∧
      s.dev.readJob ((s.dev.chan 0 0).list + 64 * (s.dev.chan 0 0).pos) 64 = s.dev) :=
  ⟨⟨Dev.readShape_clean _ (by decide +kernel) _ _, Dev.readShape_clean _ (by decide +kernel) _ _⟩,
    by decide +kernel, by decide +kernel, Dev.readJob_clean _ (by decide +kernel) _ _⟩

/-- A channel may issue its next burst of bench 0. -/
def mayIssue (r : ChanRun) : Bool :=
  let s := chanRuns 0 0 r id
  decide ((s.dev.chan 0 0).cur = some r) && s.dev.chanLive 0 0 && s.dev.latticeGate 0 0 && r.stop.isNone && decide (r.fly.length < 64)

/-- A descriptor in progress. -/
abbrev runs_ (w : List W64) : ChanRun := { words := w, place := none }

/-- A burst of 64 bytes at the start of the stream, to bench 0 or to bench 1. -/
abbrev burst0 (b : Nat) : Burst := { pos := 0, len := 64, dst := spBase b + 0x2000 }

theorem witness_BurstsAreIssued :
    (let r := runs_ (desc 0 1 [(28, 28, 1), (26, 11, 3)] 0)
     mayIssue r = true ∧ dmWait r.words = true ∧ r.begun = false ∧ ((chanRuns 0 0 r id).dev.fence (dmFence r.words)).released = false) ∧
    (let r := { runs_ (desc 0 1 [] 0) with fly := List.replicate 64 (burst0 0) }
     let s := chanRuns 0 0 r id
     (s.dev.chan 0 0).cur = some r ∧ s.dev.chanLive 0 0 = true ∧ s.dev.latticeGate 0 0 = true ∧ dmWait r.words = false ∧ 64 ≤ r.fly.length) ∧
    (let r := { runs_ (desc 0 1 [] 0) with next := 64, head := 64 }
     let r₁ := (nextBurst { r with begun := true }).1
     mayIssue r = true ∧ dmWait r.words = false ∧ (nextBurst { r with begun := true }).2 = none ∧ r₁.fly = [] ∧ some r₁.head = r₁.total) ∧
    (∀ act ∈ [0, 1], let r := { runs_ (desc 1 1 [(10, 9, act)] 0x4000) with limit := some 0 }
     mayIssue r = true ∧ dmWait r.words = false ∧ (nextBurst { r with begun := true }).2 = some (0, 64) ∧ dmLimit r.words ≠ 0 ∧
      r.limit = some 0 ∧ dmLimAct r.words = act) ∧
    (let q := runs_ (desc 0 1 [] 0)
     let s := chanRuns 0 0 q id
     let r := (nextBurst { q with begun := true }).1
     let d := (s.dev.onRun 0 0 (fun _ => r)).onRun 0 0 (fun r => { r with limit := none })
     let dst := d.resolve 0 q.dstSp (dstAt r 0).1 true (dmDstFe q.words ≠ 0)
     let cut := readPieces r none 64 r.reads (srcNeed r 0 64).1 (srcNeed r 0 64).2
     mayIssue q = true ∧ dmWait q.words = false ∧ (nextBurst { q with begun := true }).2 = some (0, 64) ∧ dmLimit q.words = 0 ∧
      dmSrcSp q.words ≠ spLog ∧ dst.isOk = true ∧ d.routeBad 0 (endpointOf (valueOr 0 dst)) = false ∧
      (d.placeReads 0 r (cut.1.drop r.reads.length)).isOk = true) ∧
    (let r := { runs_ (desc 0 1 [] 0) with fly := [burst0 0], reads := [⟨0, spBase 0 + 0x1000, 64, true, some (List.replicate 64 7)⟩] }
     let e := (chanRuns 0 0 r id).dev.countOob 0 (r.oob 0 64)
     let m := e.dmaMeet 0 true (burst0 0).dst (e.burstBytes r (burst0 0)).length
     dmOp r.words ≠ 1 ∧ endpointOf (burst0 0).dst = 0 ∧ endpointOf (burst0 1).dst ≠ 0 ∧ dmDstFe r.words ≠ 1 ∧ m.2 = false ∧
      m.1.badWrite (burst0 0).dst (e.burstBytes r (burst0 0)).length = none) := by
  refine ⟨?_, ?_, ?_, ?_, ?_, ?_⟩ <;> decide +kernel

/-- A packet of 512 bytes to bench 0's scratchpad at 0x200, from bench 1's channel 0. -/
abbrev pkt (kind fe : Nat) : Pkt :=
  { id := 1, kind := kind, src := 1, dst := 0, addr := 0xF000000200, len := 512, data := [], loc := 1, ch := 0, pos := 0, fe := fe }

/-- That packet in flight, with the descriptor of its channel, on a device changed. -/
def arrives (p : Pkt) (f : Dev → Dev) : State :=
  chanRuns 1 0 (runs_ (desc 0 0 [] 0)) (fun d => f { d with net := { d.net with pkts := [p] } })

/-- The packet is at its destination by a good route. -/
def landsB (p : Pkt) (f : Dev → Dev) : Bool :=
  let s := arrives p f
  s.dev.netRuns && decide (s.dev.arriving 1 p.kind = some p) && !s.dev.routeBad p.src p.dst

/-- No meeting stops it and no word is uncorrectable; its slot's tag word holds no error. -/
def servedB (p : Pkt) (write : Bool) (f : Dev → Dev) : Bool :=
  let s := arrives p f
  let n := if write then p.data.length else p.len
  let m := s.dev.dmaMeet p.dst write p.addr n
  landsB p f && decide (s.dev.tagErr (slotOf p.addr) = 0) && !m.2 &&
    (if write then m.1.badWrite p.addr n else m.1.badPhys p.addr n).isNone

/-- Slot 1 of bench 0 is full. -/
def fullSlot (d : Dev) : Dev := d.setTags [1] true

/-- Bench 0 merges no reads. -/
def alone (d : Dev) : Dev := d.set (Reg.SP_CTRL_MERGE_EN 0) 0

/-- The links of router 1 have failed. -/
def cutOff (d : Dev) : Dev := { d with net := { d.net with badLinks := [(1, 1), (1, 2), (1, 3), (1, 4)] } }

/-- A descriptor of 64 bytes in tallied blocks, its burst under way. -/
def tally0 : ChanRun := { runs_ (desc 0 0 [(40, 40, 1)] 0) with next := 64, fly := [⟨0, 64, 0xF000000200, [], true, none⟩] }

theorem witness_PacketsAreServed :
    (servedB (pkt 0 0) true id = true ∧ (pkt 0 0).loc ≠ noLoc) ∧
    (servedB (pkt 0 1) true id = true ∧ (arrives (pkt 0 1) id).dev.tag (slotOf (pkt 0 1).addr) = false) ∧
    (servedB (pkt 0 1) true fullSlot = true ∧ (arrives (pkt 0 1) fullSlot).dev.tag (slotOf (pkt 0 1).addr) = true) ∧
    (∀ x ∈ [(pkt 1 0, id), (pkt 1 1, fullSlot)], landsB x.1 x.2 = true ∧
      (arrives x.1 x.2).dev.mergeable 0 x.1.fe x.1.addr x.1.len = true ∧ x.1.window = none ∧
      (x.1.fe = 0 ∨ (arrives x.1 x.2).dev.tag (slotOf x.1.addr) = true)) ∧
    (∀ x ∈ [(pkt 1 0, alone), (pkt 1 1, fun d => fullSlot (alone d)), (pkt 1 2, fullSlot)], servedB x.1 false x.2 = true ∧
      (arrives x.1 x.2).dev.mergeable 0 x.1.fe x.1.addr x.1.len = false ∧
      (x.1.fe = 0 ∨ ready (arrives x.1 x.2).dev [slotOf x.1.addr] true = true)) ∧
    (landsB (pkt 1 1) alone = true ∧ (arrives (pkt 1 1) alone).dev.mergeable 0 1 0xF000000200 512 = false ∧
      (arrives (pkt 1 1) alone).dev.tagBad [slotOf (pkt 1 1).addr] = none ∧ (arrives (pkt 1 1) alone).dev.tag (slotOf (pkt 1 1).addr) = false) ∧
    (∀ k ∈ [2, 3, 6], landsB (pkt k 0) id = true ∧ (∃ r, ((arrives (pkt k 0) id).dev.chan 1 0).cur = some r ∧ r.tallied = none) ∧
      (pkt k 0).cause ≠ 4 ∧ (pkt k 0).cause ≠ 5) ∧
    (let s := chanRuns 1 0 tally0 (fun d => { d with net := { d.net with pkts := [{ pkt 3 0 with len := 64 }] } })
     s.dev.netRuns = true ∧ s.dev.arriving 1 3 = some { pkt 3 0 with len := 64 } ∧ (s.dev.chan 1 0).cur = some tally0 ∧
      tally0.blocksBy 0 64 ≠ []) ∧
    (∀ k ∈ [0, 1], (arrives (pkt k 0) cutOff).dev.netRuns = true ∧ (arrives (pkt k 0) cutOff).dev.routeBad 1 0 = true ∧
      (arrives (pkt k 0) cutOff).dev.arriving 1 k = some (pkt k 0)) := by
  have has : ∀ k, ((arrives (pkt k 0) id).dev.chan 1 0).cur = some (runs_ (desc 0 0 [] 0)) := fun k => by rfl
  refine ⟨?_, ?_, ?_, ?_, ?_, ?_, ?_, ?_, ?_⟩
  case refine_7 =>
    intro k hk
    refine ⟨?_, ⟨_, has k, ?_⟩, ?_, ?_⟩
    · revert k hk; decide +kernel
    · decide +kernel
    · simp
    · simp
  all_goals decide +kernel

/-- Bench 0 under STRICT. -/
def strict0 (d : Dev) : Dev := d.set (Reg.SP_CTRL_STRICT 0) 1

/-- Under STRICT, the last's record has what it waits for, meets no port, and its work is done. -/
def strictLast : State := let s := lastHas (transposeIt 1 0) 1000
  s.withDev (strict0 s.dev)

theorem witness_MeetingsUnderStrict :
    (let x : PortUse := ⟨.engine 1, 4, 1, 0⟩
     let y : PortUse := ⟨.dma, 3, 3, 0⟩
     x.port ≠ y.port ∧ x.banks &&& y.banks ≠ 0 ∧ x.part &&& y.banks = 0 ∧ y.part &&& x.banks = 0 ∧
      (strict0 live.dev).get (Reg.SP_CTRL_STRICT 0) = 1) ∧
    (let s := strictLast
     (s.dev.js = jsRunning ∧ s.dev.paused = false ∧ s.dev.get Reg.STEP_STATE_PHASE ≠ 2 ∧ ((s.dev.bn 0).eng 1).cur = none ∧
       ((s.dev.bn 0).eng 1).queue = transposeIt 1 0 :: [] ∧ s.dev.get (Reg.SP_CTRL_STRICT 0) = 1) ∧
     EngineRow 0 (transposeIt 1 0).words (.transpose 0) 1 ∧ ∃ p, s.dev.EngRuns 0 1 (transposeIt 1 0) [] p) ∧
    (let p := { pkt 0 0 with data := [0] }
     let s := arrives p strict0
     s.dev.netRuns = true ∧ s.dev.arriving 1 0 = some p ∧ s.dev.routeBad 1 0 = false ∧ p.loc ≠ noLoc ∧ p.fe ≠ 1 ∧
      (s.dev.dmaMeet 0 true p.addr 1).1.badWrite p.addr 1 = none ∧ s.dev.get (Reg.SP_CTRL_STRICT 0) = 1) := by
  refine ⟨?_, ⟨?_, .transpose ?_ ?_, runs_of ?_⟩, ?_⟩ <;> decide +kernel

/-- The table entry of a reduction 7 in router 3: ports 0 and 1 of the mask, in that order, out of port 0. -/
def red7 (d : Dev) : Dev := d.setReg (Reg.REDUCE 3 0) (packFlds [(63, 56, 7), (55, 48, 3), (29, 27, 1), (26, 24, 0), (20, 20, 1)])

/-- A contribution of that reduction at a port of router 3. -/
abbrev redPkt (port : Nat) : Pkt :=
  { id := 1, kind := 4, src := 1, dst := 0, addr := 0xF000000200, len := 4, data := [0, 0, 0, 0], loc := 1, ch := 0, pos := 0, redId := 7, router := 3, port := port }

/-- A set of that reduction that has one contribution at port 0, of a length. -/
abbrev set7 (len : Nat) : RedSet := ⟨3, 7, 0xF000000200, len, [(0, [0, 0, 0, 0])], 0⟩

/-- Router 3 holds such a set, or none, and a contribution arrives; the beat is late. -/
def reduces (port : Nat) (l : List RedSet) : State :=
  live.withDev (red7 { live.dev with net := { live.dev.net with pkts := [redPkt port], sets := l }, liveBeats := 5000000 })

/-- A set's find among the sets of router 3. -/
abbrev sameAs (p : Pkt) (x : RedSet) : Bool := x.router = p.router && x.redId = p.redId && x.addr = p.addr

theorem witness_MergesAndReductions :
    (let p : Pkt := { pkt 1 1 with window := some 1 }
     let s := live.withDev { live.dev.setTags [1] true with net := { live.dev.net with pkts := [p] } }
     let d : Dev := { s.dev with net := { s.dev.net with
       pkts := s.dev.net.pkts.map (fun p => if p.window = some 1 then { p with closed := true } else p) } }
     s.dev.netRuns = true ∧ s.dev.openWindow (spBase 0 + 1 % 16384 * 512) = some 1 ∧
      d.net.pkts.filter (fun p => p.kind = 1 && p.window = some 1) = [{ p with closed := true }] ∧
      ready s.dev [slotOf p.addr] true = true ∧ (d.dmaMeet 0 false p.addr 512).2 = false ∧
      (d.dmaMeet 0 false p.addr 512).1.badPhys p.addr 512 = none) ∧
    (arrives (pkt 5 0) id).dev.arriving 1 5 = some (pkt 5 0) ∧
    (live.withDev { live.dev with net := { live.dev.net with pkts := [redPkt 0] } }).dev.redEntry 3 7 = none ∧
    (∃ w, (reduces 0 []).dev.redEntry 3 7 = some w ∧ (redOrder w).all (fun q => q = 0) = false ∧ (reduces 0 []).dev.arriving 1 4 = some (redPkt 0)) ∧
    (reduces 0 []).dev.net.sets.find? (sameAs (redPkt 0)) = none ∧
    (∀ x ∈ [(0, 4), (1, 8), (1, 4)], (reduces x.1 [set7 x.2]).dev.net.sets.find? (sameAs (redPkt x.1)) = some (set7 x.2) ∧
      (reduces x.1 [set7 x.2]).dev.arriving 1 4 = some (redPkt x.1)) ∧
    ((set7 4).got.any (fun g => g.1 = 0) = true ∧ (set7 8).len ≠ (redPkt 1).len ∧ (set7 4).got.any (fun g => g.1 = 1) = false) ∧
    (let s := reduces 1 [set7 4]
     s.dev.netRuns = true ∧ s.dev.net.sets.find? (fun x => x.router = 3 && decide (x.since + s.dev.get Reg.SYNC_CTRL_REDUCE_TIMEOUT ≤
      s.dev.liveBeats)) = some (set7 4)) ∧
    (hasPort 3 2 = true ∧ live.dev.net.badLinks.contains (3, 2) = false ∧
      (live.withDev { live.dev with net := { live.dev.net with badLinks := [(3, 2)] } }).dev.net.badLinks.contains (3, 2) = true) := by
  refine ⟨?_, ?_, ?_, ⟨_, rfl, ?_⟩, ?_, ?_, ?_, ?_, ?_⟩ <;> decide +kernel

/-- Port 0 is up, its partner device 1, its next SEQ 0. -/
def linked (f : Dev → Dev) : State := going (fun d => f ((d.set (Reg.PORT_W0_STATE 0) 3).set (Reg.PORT_W0_PARTNER 0) 1))

/-- Window 0 of 1,024 bytes at 0x8000, which device 1 may write, read and add to. -/
def window0 (d : Dev) : Dev :=
  ((inJob [] d).setReg (Reg.WIN_W0 0) (packFlds [(63, 60, 15), (59, 54, 10), (47, 0, 0x8000)])).setReg (Reg.WIN_W1 0) (packFlds [(63, 54, 1), (53, 44, 1)])

/-- A flit of a KIND from device 1 to device 0, of one block of zeros at window 0. -/
def flit1 (kind : Nat) : Flit := sealed (packFlds [(63, 60, kind), (49, 40, 1), (23, 20, 1)]) 0 (List.replicate 256 0)

/-- The device once port 0 has taken the flit's numbers. -/
abbrev took (s : State) (f : Flit) : Dev := s.dev.tookFlit 0 f

/-- A flit that the port takes. -/
theorem takes_of {s : State} {w0 w1 : W64} {l : List Byte} (h : s.dev.portHears 0 = true) (n : l.length = 256)
    (t : seqAhead (s.dev.port 0).recvNext (fld w0 19 10) = 0) : s.dev.TakesFlit 0 (sealed w0 w1 l) :=
  ⟨h, good_sealed w0 w1 l n, .inl t⟩

/-- A flit's OFFSET does not depend on its CRC, so neither does the cause for which it is refused. -/
theorem offset_sealed (w0 w1 : W64) (l : List Byte) : flOffset (sealed w0 w1 l) = fld w1 31 0 :=
  fld_putFld_below _ (by decide) (by decide) _ _ _ (by decide)

theorem cause_sealed (d : Dev) (p : Nat) (w0 w1 : W64) (l : List Byte) :
    d.flitCause p (sealed w0 w1 l) = d.flitCause p { word0 := w0, word1 := w1, payload := l } := by
  simp only [Dev.flitCause, flRange, offset_sealed]
  rfl

/-- A step runs. -/
def stepping (d : Dev) : Dev := d.set Reg.STEP_STATE_PHASE 1

/-- What becomes of 32 bytes at window 0's base: whether their place is mapped, barred, or holds an error. -/
def places (d : Dev) : Option (Bool × Bool) :=
  (d.jobRuns (d.get (Reg.WIN_W0_BASE 0)) 32).map (fun l => (d.runsBarred l, (d.runsBad l true).isNone && (d.runsBad l false).isNone))

/-- What a REDUCE_ADD flit reads of window 0. -/
def reads0 (d : Dev) : Option (Bool × Bool) :=
  (d.jobRuns (d.get (Reg.WIN_W0_BASE 0)) 32).map (fun l => (d.runsBarred l, (d.runsBad l false).isNone))

theorem witness_FlitsTakeEffect :
    (∀ k ∈ [0, 1, 2, 3, 4, 5], (linked window0).dev.TakesFlit 0 (flit1 k) ∧ flKind (flit1 k) = k) ∧
    (∀ k ∈ [1, 2, 3, 4, 5], (took (linked window0) (flit1 k)).flitCause 0 (flit1 k) = none) ∧
    (∀ k ∈ [1, 2, 3, 4], (took (linked id) (flit1 k)).flitCause 0 (flit1 k) = some 1) ∧
    (took (linked (fun d => d.set (Reg.PORT_W0_PARTNER 0) 2)) (flit1 5)).flitCause 0 (flit1 5) = some 8 ∧
    ((∀ k ∈ [1, 2, 4], flOffset (flit1 k) = 0 ∧ flWindow (flit1 k) = 0 ∧ flBytes (flit1 k) = 32) ∧
      places ((took (linked window0) (flit1 1)).inc (Reg.WIN_W2_ACCEPTED 0)) = some (false, true)) ∧
    places ((took (linked (fun d => stepping ((window0 d).setReg (Reg.SEGTAB 0) (packFlds [(63, 62, 3)])))) (flit1 1)).inc
      (Reg.WIN_W2_ACCEPTED 0)) = some (true, true) ∧
    (linked window0).dev.isPause 0 (flit1 0) = false ∧
    (let s := linked (fun d => d.onPort 0 (fun x => { x with gaps := [(0, 0)] }))
     s.dev.TakesFlit 0 (flit1 0) ∧ s.dev.isPause 0 (flit1 0) = true) ∧
    reads0 (linked window0).dev = some (false, true) := by
  refine ⟨?_, ?_, ?_, ?_, ⟨?_, ?_⟩, ?_, ?_, ⟨?_, ?_⟩, ?_⟩
  · intro k hk
    refine ⟨takes_of ?_ ?_ ?_, ?_⟩ <;> revert k <;> decide +kernel
  · intro k hk
    rw [flit1, cause_sealed]
    revert k; decide +kernel
  · intro k hk
    rw [flit1, cause_sealed]
    revert k; decide +kernel
  · rw [flit1, cause_sealed]
    decide +kernel
  · intro k hk
    rw [flit1, offset_sealed]
    revert k; decide +kernel
  case refine_9 => exact takes_of (by decide +kernel) (by decide +kernel) (by decide +kernel)
  all_goals decide +kernel

/-- Device 0 with the child device 1 on port 0; or device 2 whose parent is on port 0, in VOTING. -/
def asRoot (d : Dev) : Dev := d.set Reg.LAT_DOMAIN_SUBTREE_LAST 1 |>.set Reg.LAT_DOMAIN_PARENT_PORT 15
def asChild (d : Dev) : Dev :=
  ((d.set Reg.LAT_DOMAIN_DOMAIN_INDEX 2).set Reg.LAT_DOMAIN_PARENT_PORT 0).set Reg.STEP_STATE_PHASE 2

/-- A flit held for port 0, with its resends. -/
def holds (n : Nat) (resend : List (Nat × Nat)) (d : Dev) : Dev :=
  d.onPort 0 (fun x => { x with held := [{ seq := 5, flit := { word0 := 0, word1 := 0, payload := [] }, resends := n }], resend := resend })

/-- A message of a TYPE from device 1 to device 2, with its low field. -/
abbrev msgOf (type low : Nat) : List W64 := [msgHead type 1 2 low, packFlds [(63, 48, 9)], 0, 0]

theorem carries {s : State} {m : List W64} (h : s.dev.portHears 0 = true)
    (n : (wordsBytes (m ++ List.replicate (32 - m.length) 0)).length = 256)
    (t : seqAhead (s.dev.port 0).recvNext (fld (packFlds [(63, 60, 6)]) 19 10) = 0) : s.dev.TakesFlit 0 (carry m) := takes_of h n t

/-- What a flit with one message shows of it, for the device of a state that takes the flit. -/
def saysB (s : State) (type low : Nat) : Bool :=
  let f := carry (msgOf type low)
  s.dev.portHears 0 && decide (flKind f = 6) && decide ((flMessages f).head? = some (msgOf type low)) &&
  ((flMessages f).drop 1).all (fun m => msType m = 0) && decide (msType (msgOf type low) = type)

theorem witness_MessagesTakeEffect :
    (∀ t ∈ [1, 3, 4, 5, 6, 7, 8, 9, 10, 11], ∀ s ∈ [linked (holds 0 []), linked asRoot, linked asChild],
      s.dev.TakesFlit 0 (carry (msgOf t 5)) ∧ saysB s t 5 = true ∧
      (flMessages (carry (msgOf t 5))).any (fun m => msType m = t) = true) ∧
    (let d := took (linked (holds 0 [])) (carry (msgOf 3 5))
     (d.port 0).held.any (fun h => h.seq = fld (wd (msgOf 3 5) 0) 9 0) = true ∧ (d.port 0).resend.any (fun r => r.1 = fld (wd (msgOf 3 5) 0) 9 0) = false) ∧
    (let d := took (linked asRoot) (carry (msgOf 5 5))
     d.kids.any (fun k => k.2 = 0 && k.1 = msOrigin (msgOf 5 5)) = true ∧ fld (wd (msgOf 5 5) 1) 63 48 ≠ d.startFence ∧ d.voteComplete = false ∧
      msTarget (msgOf 10 5) ≠ d.index) ∧
    (let d := took (linked asChild) (carry (msgOf 8 5))
     d.parentPort = some 0 ∧ d.voteComplete = false ∧ d.get Reg.STEP_STATE_PHASE = 2 ∧ msTarget (msgOf 10 5) = d.index) := by
  refine ⟨?_, ?_, ?_, ?_⟩
  · intro t ht s hs
    refine ⟨carries ?_ ?_ ?_, ?_⟩ <;> revert t s <;> decide +kernel
  all_goals decide +kernel

/-- Port 0 in a state, with all its lanes. -/
def portIs (st lanes : Nat) (f : Dev → Dev) : State :=
  linked (fun d => f ((d.set (Reg.PORT_W0_STATE 0) st).set (Reg.PORT_W0_LANES 0) lanes))

/-- A phase record of a KIND with 8 slots, its descriptor at 0x1040. -/
def phase0 (kind : Nat) : List W64 := [packFlds [(63, 56, 0x90), (14, 6, 8), (5, 3, kind)], if kind = 4 then 0 else 0x1040, 0, 0, 0, 0, 0, 0]

theorem witness_LanesAndPorts :
    (let s := portIs 3 15 id
     s.dev.portHears 0 = true ∧ seqAhead (s.dev.port 0).recvNext 511 < 512 ∧ seqAhead (s.dev.port 0).recvNext 0 < 512 ∧ (s.dev.port 0).gaps = [] ∧
      (s.dev.port 0).early = []) ∧
    (∀ st ∈ [3, 4], ∀ lane ∈ [0, 3], (portIs st 15 id).dev.portHears 0 = true ∧ ((portIs st 15 id).dev.get (Reg.PORT_W0_LANES 0)).testBit lane = true ∧
      (portIs st 15 id).dev.get (Reg.PORT_W0_STATE 0) = st) ∧
    (∀ n ∈ [0, 3], ∀ top ∈ [3, 1], let s := portIs 3 (2 ^ (top + 1) - 1) (fun d => (holds n [(5, 0)] d).set Reg.SYNC_BEAT_BEAT (3 - n))
      s.dev.portHears 0 = true ∧ (s.dev.port 0).resend.find? (fun r => r.1 = 5) = some (5, 0) ∧
      (0 + 2 < s.dev.beat ∨ (s.dev.port 0).held.any (fun h => h.seq = 5 && decide (3 ≤ h.resends)) = true) ∧
      (s.dev.get (Reg.PORT_W0_LANES 0)).testBit top = true ∧ ∀ i < 4, top < i → (s.dev.get (Reg.PORT_W0_LANES 0)).testBit i = false) ∧
    (∀ st ∈ [3, 4, 5], (portIs st 7 id).dev.get (Reg.PORT_W0_STATE 0) ∈ [3, 4, 5] ∧ (portIs st 7 id).dev.frozen = false) ∧
    (∀ lanes ∈ [15, 7], ∀ used ∈ [none, some 3], let s := portIs 5 lanes (fun d => d.onPort 0 (fun x => { x with
        phase := some { words := phase0 4, used := used } }))
      s.dev.get (Reg.PORT_W0_STATE 0) = 5 ∧ s.dev.get (Reg.PORT_W0_LANES 0) = lanes ∧
      (s.dev.port 0).phase = some { words := phase0 4, used := used } ∧ (portIs 5 lanes id).dev.get (Reg.PORT_W0_STATE 0) = 5 ∧
      (portIs 5 lanes id).dev.get (Reg.PORT_W0_LANES 0) = lanes ∧ ((portIs 5 lanes id).dev.port 0).phase = none ∧ s.dev.frozen = false) ∧
    (let s := linked (fun d => (asChild d).onPort 0 (fun x => { x with skewBeats := 16 }))
     s.dev.parentPort = some 0 ∧ 16 ≤ (s.dev.port 0).skewBeats ∧ s.dev.frozen = false) := by
  refine ⟨?_, ?_, ?_, ?_, ?_, ?_⟩ <;> decide +kernel

/-- Port 0's phase list at 0x1000 holds a record; a descriptor stands at 0x1040. -/
def phased0 (w v : List W64) : State := linked (fun d => (inJob [(0x1000, w), (0x1040, v)] d).onPort 0 (fun x => { x with
  list := 0x1000, reader := .running }))

/-- A descriptor to device 1, and one of the receive channel. -/
def sends : List W64 := [packFlds [(63, 56, 0x50), (46, 44, spRemote)], 0, packFlds [(63, 54, 1)], 0, 0, 0, 0, 0]
def receives : List W64 := [packFlds [(63, 56, 0x50), (55, 54, 1), (33, 29, 1)], 0, 0, 0, 0, 0, 0, 0]

/-- Port 0 is free and reads a record. -/
def readsPhase (w : List W64) : Bool :=
  let s := phased0 w sends
  s.dev.runs && decide ((s.dev.port 0).list = 0x1000) && decide ((s.dev.port 0).reader = .running) && (s.dev.port 0).phase.isNone &&
  decide (s.dev.fetch 0x1000 8 = .words w) && decide (s.dev.fetch 0x1040 8 = .words sends) && !s.dev.degraded 0

/-- A flood of a kind is known, its event in beat 0, and its effect beat has come. -/
def flooded (k : Nat) : State := going (fun d => { d with lat := { d.lat with floods := [⟨k, 0, 0, 0, false⟩] } }.set Reg.SYNC_BEAT_BEAT 1000)

theorem witness_PhasesAndFloods :
    (∀ w ∈ [recOf 0 [], recOf 0x90 [], phase0 4, phase0 1, recOf 0x50 [], recOf 0x20 []], readsPhase w = true) ∧
    (phaseDescOk ((phased0 (phase0 2) receives).dev.get (Reg.PORT_W0_PARTNER 0)) (phKind (phase0 2)) receives = false ∧
      phaseOk (phase0 2) = true ∧ phKind (phase0 2) ≠ 4 ∧ (phased0 (phase0 2) receives).dev.fetch 0x1040 8 = .words receives ∧
      (phased0 (phase0 2) receives).dev.fetch 0x1000 8 = .words (phase0 2)) ∧
    (phaseOk (recOf 0x90 []) = false ∧ phaseOk (phase0 4) = true ∧ phKind (phase0 4) = 4 ∧ phaseOk (phase0 1) = true ∧ phKind (phase0 1) ≠ 4 ∧
      phDesc (phase0 1) = 0x1040 ∧
      ((phased0 (phase0 1) sends).dev.readJob 0x1000 64).fetch 0x1040 8 = .words sends ∧
      phaseDescOk (((phased0 (phase0 1) sends).dev.readJob 0x1000 64).get (Reg.PORT_W0_PARTNER 0)) (phKind (phase0 1)) sends = true) ∧
    (∀ k ∈ [0, 1, 2], (flooded k).dev.frozen = false ∧ (flooded k).dev.dueFloods k = ⟨k, 0, 0, 0, false⟩ :: [] ∧
      (flooded k).dev.dueBefore ([3, 2, 4].getD k 0) = false) := by
  refine ⟨?_, ?_, ?_, ?_⟩ <;> decide +kernel

theorem witness_BeatsPass :
    (liveAt (fun d => { d with boot := { d.boot with phase := .off } })).dev.boot.phase = .off ∧
    (frozen.dev.boot.phase ≠ .off ∧ frozen.dev.frozen = true ∧ vault.dev.boot.phase ≠ .off ∧ 2 < vault.dev.power) ∧
    (live.dev.boot.phase ≠ .off ∧ live.dev.frozen = false ∧ live.dev.power ≤ 2) ∧
    (0 < ({ live.dev with slipLeft := 1 } : Dev).slipLeft ∧ live.dev.slipLeft = 0) := by decide +kernel

/-- Fence 9 has an entry, in beat 0 of a running job; f changes it and the device. -/
def fenced (e : W64) (f : FenceSt → FenceSt) (g : Dev → Dev) : State :=
  going (fun d => g ((d.setReg (Reg.FENCE 9) e).onFence 9 f))

/-- Rank 1's leaf has an event at the root. -/
def upHas (e : UpEvent) (d : Dev) : Dev := { d with upq := [e] }

theorem witness_FencesAndSlips :
    (∀ r ∈ [true, false], let s := fenced 1 (fun x => { x with released := r }) (upHas (.arrive 1 9 0))
      s.dev.paused = false ∧ s.dev.js ≠ jsPreempted ∧ s.dev.writesOut 1 0 = false ∧
      s.dev.upq.find? (fun e => e.from_ = 1) = some (.arrive 1 9 0) ∧
      (({ s.dev with upq := s.dev.upq.erase (.arrive 1 9 0) } : Dev).fence 9).released = r) ∧
    (∀ arr ∈ [[1], []], let s := fenced (packFlds [(23, 12, 1)]) (fun x => { x with arrived := arr }) id
      feDomain (s.dev.fenceEntry 9) = false ∧ s.dev.specialFence 9 = false ∧ s.dev.fenceLive 9 = true ∧ s.dev.dueOf 9 ≤ s.dev.beat ∧
      9 ≠ s.dev.get Reg.COMMIT_FENCES_NORM_FENCE ∧ 9 ≠ s.dev.get Reg.COMMIT_FENCES_VOTE_FENCE ∧ s.dev.job.preemptFence ≠ some 9 ∧
      ((feParticipants (s.dev.fenceEntry 9) ≤ (s.dev.fence 9).arrived.length) ↔ arr = [1])) ∧
    (∀ t ∈ [true, false], let s := fenced 1 (fun x => { x with firstDue := some 0, timedOut := t }) (fun d => d.set Reg.SYNC_BEAT_BEAT (2 ^ 40))
      (s.dev.fence 9).firstDue = some 0 ∧ s.dev.fenceLive 9 = true ∧ (s.dev.fence 9).timedOut = t ∧
      0 + s.dev.get Reg.SYNC_CTRL_FENCE_LATE_LIMIT ≤ s.dev.beat) ∧
    (let s := going (upHas (.slipReq 1 3 4 0))
     s.dev.paused = false ∧ s.dev.js = jsRunning ∧ s.dev.writesOut 1 0 = false ∧
      s.dev.upq.find? (fun e => e.from_ = 1) = some (.slipReq 1 3 4 0)) ∧
    (let s := fenced 1 id (fun d => { d with job := { d.job with agreedSlips := [(9, 3)] } })
     s.dev.paused = false ∧ s.dev.job.agreedSlips.contains (9, 3) = true ∧ s.dev.dueBefore 3 = false ∧ s.dev.specialFence 9 = false ∧
      feStep (s.dev.fenceEntry 9) = false) := by
  refine ⟨?_, ?_, ?_, ?_, ?_⟩ <;> decide +kernel

/-- A poll of fence f with its result, for beat 0. -/
abbrev polled (f : Nat) (c : Contrib) : Nat × Poll := (f, { due := 0, own := some c, sent := true, result := some c })

/-- A domain fence's entry. -/
abbrev domain9 : W64 := packFlds [(11, 11, 1)]

/-- The oldest poll of fence f has the result c, for a beat that has come. -/
def results (s : State) (f : Nat) (c : Contrib) : Bool :=
  decide (s.dev.lat.polls.find? (fun h => h.1 = f && h.2.own.isSome) = some (polled f c)) && decide ((polled f c).2.due ≤ s.dev.beat) &&
    !s.dev.frozen

/-- A running job at the release beat of a poll, with nothing to do before it. -/
abbrev agrees (s : State) (f : Nat) : Prop :=
  s.dev.js = jsRunning ∧ s.dev.frz.wasRunning = false ∧ s.dev.paused = false ∧ s.dev.job.agreedSlips = [] ∧ s.dev.dueBefore 3 = false ∧
    s.dev.floodDue 0 = false ∧ (s.dev.lessPoll f).dueBefore 6 = false ∧ s.dev.floodDue 2 = false

theorem witness_DomainFencesAgree :
    (let s := liveAt (fun d => { d.setJs jsLoaded with job := { d.job with joinPoll := some 0 } })
     s.dev.frozen = false ∧ s.dev.job.joinPoll = some 0 ∧ 0 = s.dev.joinFence ∧ 0 ≤ s.dev.beat) ∧
    (let s := going (fun d => { d with step := { d.step with startPoll := some 0 } }.set Reg.COMMIT_FENCES_START_FENCE 5)
     s.dev.frozen = false ∧ s.dev.job.joinPoll = none ∧ s.dev.fencesMove = true ∧ 5 = s.dev.startFence ∧ s.dev.step.replayFrom = none ∧
      s.dev.step.startPoll = some 0 ∧ 0 ≤ s.dev.beat ∧ s.dev.get Reg.STEP_STATE_PHASE = 0) ∧
    (let s := fenced domain9 id id
     s.dev.frozen = false ∧ s.dev.job.joinPoll = none ∧ 9 ≠ s.dev.startFence ∧ feDomain (s.dev.fenceEntry 9) = true ∧ s.dev.fenceLive 9 = true ∧
      s.dev.pollBeat 9 ≤ s.dev.beat ∧ s.dev.lat.polls.any (fun h => h.1 = 9 && h.2.own.isSome) = false) ∧
    (∀ ok ∈ [true, false], let s := liveAt (fun d => { d.setJs jsLoaded with lat := { d.lat with polls := [polled 0 ⟨ok, 0, 0⟩] } })
      results s 0 ⟨ok, 0, 0⟩ = true ∧ s.dev.js = jsLoaded ∧ 0 = s.dev.joinFence ∧ s.dev.job.joinAt = none) ∧
    (∀ from_ ∈ [none, some 3], let s := going (fun d => { d with
        lat := { d.lat with polls := [polled 5 ⟨true, 0, 2⟩] }, step := { d.step with replayFrom := from_ } }.set
          Reg.COMMIT_FENCES_START_FENCE 5)
     results s 5 ⟨true, 0, 2⟩ = true ∧ agrees s 5 ∧ 5 = s.dev.startFence ∧ s.dev.step.replayFrom = from_) ∧
    (∀ c ∈ [(⟨true, 0, 0⟩ : Contrib), ⟨false, 0, 0⟩, ⟨true, 3, 0⟩],
      let s := fenced domain9 id (fun d => { d with lat := { d.lat with polls := [polled 9 c] } })
      results s 9 c = true ∧ agrees s 9 ∧ 9 ≠ s.dev.startFence ∧ s.dev.fenceOpen 9 = true) := by
  refine ⟨?_, ?_, ?_, ?_, ?_, ?_⟩ <;> decide +kernel

/-- Bench 0's last waits for leave. -/
def asks (f : Dev → Dev) : State := (lastHas (transposeIt 1 0) 0).withDev (f ((lastHas (transposeIt 1 0) 0).dev.onEng 0 1 (fun q => { q with
  cur := some ⟨transposeIt 1 0, 0, none⟩ })))

theorem witness_QuiesceAndLeave :
    (∀ done ∈ [[], (List.range 166).map (· + 1)], let s := (jobIn jsPreempting).withDev { (jobIn jsPreempting).dev with
        job := { (jobIn jsPreempting).dev.job with quiesced := done } }
      s.dev.js = jsPreempting ∧ s.dev.frozen = false ∧ s.dev.leafQuiet 167 = true ∧ s.dev.job.quiesced.contains 167 = false ∧
      (({ s.dev with job := { s.dev.job with quiesced := s.dev.job.quiesced ++ [167] } } : Dev).allQuiet = true ↔ done ≠ [])) ∧
    ((asks id).dev.frozen = false ∧ (asks id).dev.leaveQ = [] ∧ (asks id).dev.leaveNeed 0 = some (10, 0) ∧
      10 ≤ (asks id).dev.poolCapacity - (asks id).dev.standing ∧ (asks id).dev.leaveHeldBack = false ∧
      10 ≤ (asks id).dev.get Reg.PWR_STATUS_FREE) ∧
    (let s := asks (fun d => d.set Reg.PWR_CTRL_POWER_LIMIT 0)
     s.dev.leaveQ = [] ∧ s.dev.leaveNeed 0 = some (10, 0) ∧ s.dev.poolCapacity - s.dev.standing < 10) ∧
    (let s := asks (fun d => d.set Reg.PWR_STATUS_FREE 0)
     s.dev.leaveNeed 0 = some (10, 0) ∧ s.dev.leaveQ.any (fun q => q.who = 0) = false ∧ s.dev.get Reg.PWR_STATUS_FREE < 10) ∧
    (let s := asks (fun d => { d with leaveQ := [⟨0, 10⟩] })
     s.dev.leaveQ = ⟨0, 10⟩ :: [] ∧ s.dev.frozen = false ∧ s.dev.leaveHeldBack = false ∧ 10 ≤ s.dev.get Reg.PWR_STATUS_FREE) := by
  refine ⟨?_, ?_, ?_, ?_, ?_⟩ <;> decide +kernel

theorem witness_FrozenStandsStill : frozen.dev.frozen = true ∧ Instr.clocked .stepStart = true := by decide +kernel

theorem witness_MinimumMaximumComparisons :
    (dec32 0x7FC00000).isNan = true ∧ (dec32 0x3F800000).isNan = false ∧ (dec32 0x80000000).isNan = false := by decide +kernel

theorem witness_IntegerLanesSaturate : fmtIsInt fmtINT8 = true ∧ fmtIsInt fmtINT8 = true := by decide +kernel

/-! ### Ill-formed commands, refused by each check of WellFormed -/

theorem test_wf_bench : (Instr.recordFetch 144).wellFormed = false ∧ (Instr.recordFetch 143).wellFormed = true := by decide
theorem test_wf_channel : (Instr.dmaTwoD 151 8).wellFormed = false ∧ (Instr.dmaTwoD 153 0).wellFormed = false ∧
    (Instr.dmaTwoD 152 31).wellFormed = true := by decide
theorem test_wf_rank : (Instr.quiesced 168).wellFormed = false ∧ (Instr.quiesced 167).wellFormed = true := by decide
theorem test_wf_packet : (Instr.identify { src := { port := 2 } } []).wellFormed = false ∧
    (Instr.identify { version := 16 } []).wellFormed = false ∧ (Instr.identify {} (List.replicate 1139 0)).wellFormed = false ∧
    (Instr.identify {} []).wellFormed = true := by decide +kernel
theorem test_wf_opcode : (Instr.unknownOpcode {} 0x10000 []).wellFormed = false := by decide
theorem test_wf_flit : (Instr.flitWrite 0 { word0 := 0, word1 := 0, payload := [] }).wellFormed = false ∧
    (Instr.flitWrite 12 { word0 := 0, word1 := 0, payload := List.replicate 256 0 }).wellFormed = false ∧
    (Instr.flitWrite 11 { word0 := 0, word1 := 0, payload := List.replicate 256 0 }).wellFormed = true := by decide +kernel
theorem test_wf_access : (Instr.slotTimeout (.engine 0 6)).wellFormed = false ∧ (Instr.slotTimeout (.channel 0 8)).wellFormed = false := by decide
theorem test_wf_reform : (Instr.outputReform (.former 153) true).wellFormed = false ∧ (Instr.outputReform (.update 8) true).wellFormed = false ∧
    (Instr.outputReform (.channel 0 8) true).wellFormed = false := by decide
theorem test_wf_lane : (Instr.laneResidueMismatch 0 256 true).wellFormed = false ∧ (Instr.laneLoss 0 4).wellFormed = false := by decide
theorem test_wf_slot : (Instr.longOpStart 256).wellFormed = false ∧ (Instr.recoveryErase 256).wellFormed = false ∧
    (Instr.mergeWindowClose 0 16384).wellFormed = false := by decide
theorem test_wf_floor : (Instr.floorVote 8).wellFormed = false ∧ (Instr.cellarScrubRead 0 32 .clean).wellFormed = false ∧
    (Instr.cellarEccWriteback 0 1).wellFormed = false ∧ (Instr.select 152).wellFormed = false := by decide
theorem test_wf_scrub : (Instr.scratchpadScrubRead 0 64 []).wellFormed = false ∧ (Instr.scratchpadScrubRead 0 0 [(0, 2)]).wellFormed = false ∧
    (Instr.scratchpadEccWriteback 0 4).wellFormed = false := by decide
theorem test_wf_link : (Instr.linkCrcReplay 0 0 1).wellFormed = false ∧ (Instr.linkCrcReplay 0 1 0).wellFormed = false := by decide
theorem test_wf_fence : (Instr.fenceRelease 0x10000).wellFormed = false ∧ (Instr.slip 0 0x10000).wellFormed = false ∧
    (Instr.slipReq 0 0 0x10000).wellFormed = false := by decide
theorem test_wf_seq : (Instr.resendTimeout 0 1024).wellFormed = false ∧ (Instr.flitCrcMismatch 0 [1024] true).wellFormed = false := by decide
theorem test_wf_host : (Instr.hostLinkUp 2).wellFormed = false ∧ (Instr.hostFrameReceive 2 []).wellFormed = false := by decide
theorem test_wf_ptp : (Instr.ptpSync { ptp0 with port := 2 }).wellFormed = false ∧ (Instr.ptpSync { ptp0 with domain := 256 }).wellFormed = false ∧
    (Instr.ptpSync { ptp0 with seqId := 0x10000 }).wellFormed = false ∧ (Instr.ptpSync ptp0).wellFormed = true := by decide
theorem test_wf_package : (Instr.aonPowerOn 8).wellFormed = false ∧ (Instr.smbUnlistedCommand 256).wellFormed = false ∧
    (Instr.recoveryWrite 0 (List.replicate 256 0)).wellFormed = false ∧ (Instr.bistRegionStart 0x10000).wellFormed = false := by decide +kernel
theorem test_wf_power : (Instr.railMeasure []).wellFormed = false ∧ (Instr.tempSensorRead []).wellFormed = false ∧
    (Instr.thermalTrip 142 0).wellFormed = false ∧ (Instr.clockGateOpen 164).wellFormed = false ∧ (Instr.pllLocked 12).wellFormed = false ∧
    (Instr.leaveRequest 1024).wellFormed = false := by decide

/-! ### Small tests, their expected results from the spec's worked examples -/

/-- 02, "one block to MXFP8-E4M3": 5.3, −0.01 and 0 in a block whose largest magnitude is 5.3. -/
theorem test_mx_block : (mxBlock fmtE4M3 .rne (([0x40A9999A, 0xBC23D70A] ++ List.replicate 30 0).map (fun x => (dec32 x, 0)))).1 = 0x79 ∧
    ((mxBlock fmtE4M3 .rne (([0x40A9999A, 0xBC23D70A] ++ List.replicate 30 0).map (fun x => (dec32 x, 0)))).2.1).take 3 = [0x7B, 0xB2, 0] := by
  decide +kernel

/-- The same example with a largest value of 7.9. -/
theorem test_mx_saturates : ((mxBlock fmtE4M3 .rne (([0x40FCCCCD] ++ List.replicate 31 0).map (fun x => (dec32 x, 0)))).2.1).take 1 = [0x7E] := by
  decide +kernel

/-- 02, "one element rounded stochastically": the two draws of the example. -/
theorem test_stochastic : (fpFmt fmtBF16).map (fun t => ((t.encode .sr false 0x2F1C0A93 (dec32 0x3F806000)).1,
    (t.encode .sr false 0x9A3E5D07 (dec32 0x3F806000)).1)) = some (0x3F81, 0x3F80) := by decide +kernel

/-- 08, "a write seen across the device": 22 routers from bench 0 to cellar 7. -/
theorem test_route : (route 0 151).length = 22 := by decide +kernel

/-- 10 R292: address 0x12_3456_7000 lies in cellar 7. -/
theorem test_cellar : cellarOf 0x1234567000 = 7 := by decide +kernel

/-- 15, "a step, a lost reply and a poll": sequence 504 after 502 is refused, EXPECTED 503. -/
theorem test_sequence : (match exec (.copy { seq := 504, session := 7, tag := 0x0105 } [0, 0, 0])
    (liveAt (fun d => d.set Reg.SM_STATE_LAST_SEQ 502)) with
    | .next t => t.dev.outbox.map (fun o => match o with | .reply _ _ r _ _ _ _ e _ => (r, e.toNat) | _ => (0, 0))
    | _ => []) = [(0x19, 503)] := by decide +kernel

end Sys2Proof.Tests
end

section
/-! SUPPORT. Masked words and single register writes, said once: what a write leaves in a register whose fields are all RW
or all W1C, which writes no check refuses, and what the host port's staged fields become after the reply. -/

namespace Sys2Proof.Machine

/-! ### Words under a mask -/

theorem and_not_zero (w : W64) : w &&& ~~~0 = w := by
  rw [show (~~~0 : W64) = BitVec.allOnes 64 from rfl, BitVec.and_allOnes]

theorem overlay_zero (w v : W64) : overlay w v 0 = w := by
  rw [overlay, and_not_zero, show v &&& 0 = 0#64 from BitVec.and_zero, BitVec.or_zero]

/-- Two writes of one value are one write under both masks. -/
theorem overlay_overlay (w v m n : W64) : overlay (overlay w v m) v n = overlay w v (m ||| n) := by
  refine BitVec.eq_of_getLsbD_eq fun i hi => ?_
  simp only [overlay, BitVec.getLsbD_or, BitVec.getLsbD_and, BitVec.getLsbD_not, hi]
  cases w.getLsbD i <;> cases v.getLsbD i <;> cases m.getLsbD i <;> cases n.getLsbD i <;> rfl

theorem overlay_and_mask (w v m : W64) : overlay w (v &&& m) m = overlay w v m := by
  simp [overlay, BitVec.and_assoc]

/-- Clearing twice clears under both masks. -/
theorem clear_clear (w v m n : W64) : (w &&& ~~~(v &&& m)) &&& ~~~(v &&& n) = w &&& ~~~(v &&& (m ||| n)) := by
  refine BitVec.eq_of_getLsbD_eq fun i hi => ?_
  simp only [BitVec.getLsbD_or, BitVec.getLsbD_and, BitVec.getLsbD_not, hi]
  cases w.getLsbD i <;> cases v.getLsbD i <;> cases m.getLsbD i <;> cases n.getLsbD i <;> rfl

theorem getLsbD_fldMask {hi lo i : Nat} (hl : lo ≤ i) (hh : i ≤ hi) (h64 : i < 64) : (fldMask hi lo).getLsbD i = true := by
  have : i - lo < hi + 1 - lo := by omega
  simp [fldMask, BitVec.getLsbD_ofNat, h64, hl, Nat.testBit_mul_two_pow, Nat.testBit_two_pow_sub_one, this]

/-- A field reads the same in words that agree in its bits. -/
theorem fld_eq_of_getLsbD {w u : W64} {hi lo : Nat} (h : ∀ i, lo ≤ i → i ≤ hi → i < 64 → w.getLsbD i = u.getLsbD i) :
    fld w hi lo = fld u hi lo := by
  refine Nat.eq_of_testBit_eq fun j => ?_
  simp only [fld, Nat.testBit_mod_two_pow, Nat.testBit_div_two_pow, BitVec.testBit_toNat]
  by_cases hj : j < hi + 1 - lo
  · by_cases h64 : j + lo < 64
    · rw [h (j + lo) (by omega) (by omega) h64]
    · simp [BitVec.getLsbD_of_ge _ _ (Nat.le_of_not_lt h64)]
  · simp [hj]

/-- A field under the mask reads as it was written. -/
theorem fld_overlay_in (w v : W64) {m : W64} {hi lo : Nat} (h : m &&& fldMask hi lo = fldMask hi lo) :
    fld (overlay w v m) hi lo = fld v hi lo := by
  refine fld_eq_of_getLsbD fun i hl hh h64 => ?_
  have e : m.getLsbD i = true := by
    have := congrArg (BitVec.getLsbD · i) h
    simpa only [BitVec.getLsbD_and, getLsbD_fldMask hl hh h64, Bool.and_true] using this
  simp only [overlay, BitVec.getLsbD_or, BitVec.getLsbD_and, BitVec.getLsbD_not, e, Bool.not_true, Bool.and_false,
    Bool.and_true, Bool.false_or]

/-! ### What a write leaves in a register (00 R13) -/

/-- A register whose fields are all RW takes the written bits. -/
theorem RegDesc.after_rw {r : RegDesc} (h : ∀ f ∈ r.fields, f.acc = .rw) (base v m : W64) :
    r.after base v m = overlay base v (r.writable m) := by
  refine List.foldl_rel (r := fun w n => w = overlay base v n) (overlay_zero base v).symm fun f hf w n e => ?_
  simp only [h f hf, e, overlay_overlay, reduceCtorEq, ↓reduceIte]

/-- A register that software may only clear loses the bits where a 1 is written. -/
theorem RegDesc.after_w1c {r : RegDesc} (h : ∀ f ∈ r.fields, f.acc = .ro ∨ f.acc = .w1c) (base v m : W64) :
    r.after base v m = base &&& ~~~(v &&& r.writable m) := by
  refine List.foldl_rel (r := fun w n => w = base &&& ~~~(v &&& n)) ?_ fun f hf w n e => ?_
  · rw [show v &&& 0 = 0 from BitVec.and_zero, and_not_zero]
  · rcases h f hf with hf | hf
    · simp only [hf, e, ↓reduceIte]
    · simp only [hf, e, clear_clear, reduceCtorEq, ↓reduceIte]

/-! ### Register writes by class (00 R17 to R19) -/

variable (d : Dev)

/-- The bits of class S fields that a mask covers. -/
def RegDesc.stagedMask (r : RegDesc) (m : W64) : W64 :=
  r.fields.foldl (fun w f => if f.cls = .s then w ||| f.covered m else w) 0

/-- A write of a listed register: its other bits at once, those of class S staged. -/
theorem Dev.writeReg_some {a : Nat} {r : RegDesc} (hr : findReg a = some r) (v m : W64) :
    d.writeReg a v m =
      (if r.stagedMask m = 0 then d.setReg a (r.after (d.reg a) v (m &&& ~~~r.stagedMask m))
       else { d.setReg a (r.after (d.reg a) v (m &&& ~~~r.stagedMask m)) with
         staged := d.staged ++ [(a, v &&& r.stagedMask m, r.stagedMask m)] }).afterWrite r m := by
  unfold Dev.writeReg
  rw [hr]
  rfl

/-- A write with no class S field takes effect at once. -/
theorem Dev.writeReg_direct {a : Nat} {r : RegDesc} (hr : findReg a = some r) (v m : W64) (hs : r.stagedMask m = 0) :
    d.writeReg a v m = (d.setReg a (r.after (d.reg a) v m)).afterWrite r m := by
  rw [Dev.writeReg_some d hr, if_pos hs, hs, and_not_zero]

/-- The device with a write waiting for its moment (00 R17). -/
def Dev.stage (a : Nat) (v m : W64) : Dev := { d.setReg a (d.reg a) with staged := d.staged ++ [(a, v &&& m, m)] }

/-- A write of RW fields of class S alone is staged, and the register stays. -/
theorem Dev.writeReg_stage {a : Nat} {r : RegDesc} (hr : findReg a = some r) (v m : W64) (hrw : ∀ f ∈ r.fields, f.acc = .rw)
    (hs : r.stagedMask m = m) (hm : m ≠ 0) (hw : r.writable 0 = 0) :
    d.writeReg a v m = (d.stage a v m).afterWrite r m := by
  rw [Dev.writeReg_some d hr, hs, if_neg hm, show m &&& ~~~m = 0 from BitVec.and_not_self m, RegDesc.after_rw hrw, hw,
    overlay_zero, Dev.stage]

/-- A listed register of the hub that register commands may name and whose block is never busy. -/
structure HubReg (a : Nat) (r : RegDesc) : Prop where
  found : findReg a = some r
  word : fld (w64 a) 39 0 = a
  unreserved : reserved (w64 a) [(39, 0)] = false
  hub : a < 0xFF01000000
  addrOk : regAddrOk a = true
  allowed : ¬ ((0xFF00005000 ≤ a ∧ a ≤ 0xFF00005FFF) ∨ (0xFF00010000 ≤ a ∧ a < 0xFF00010000 + 8 * 576))
  idle : r.busy = .never

/-- A mask covers every field that it touches, and touches none that software may not write (00 R16). -/
structure RegDesc.Takes (r : RegDesc) (m : W64) : Prop where
  whole : r.fields.any (fun f => f.touched m && f.covered m ≠ fldMask f.hi f.lo) = false
  writes : r.fields.any (fun f => f.touched m && f.acc = .ro) = false

/-- No check refuses a value in range in whole fields that software may write. -/
theorem Dev.writeBad_none {a : Nat} {r : RegDesc} {v m : W64} (p : HubReg a r) (t : r.Takes m)
    (hv : ∀ base, d.valueBad r a (r.after base v m) (r.writable m) = none) : d.writeBad a v m false = none := by
  have free : d.busyReg r a = false := by simp [Dev.busyReg, p.idle]
  unfold Dev.writeBad
  simp only [p.addrOk, p.allowed, p.found, t.whole, t.writes, hv, free, Bool.and_false]
  rfl

@[simp] theorem Dev.restaged_get (l : List (Nat × W64 × W64)) (f : Fld) : ({ d with staged := l } : Dev).get f = d.get f := rfl
@[simp] theorem Dev.stage_staged (a : Nat) (v m : W64) : (d.stage a v m).staged = d.staged ++ [(a, v &&& m, m)] := rfl
@[simp] theorem Dev.stage_mem (a : Nat) (v m : W64) : (d.stage a v m).mem = d.mem := rfl
@[simp] theorem Dev.stage_reg (a : Nat) (v m : W64) (b : Nat) : (d.stage a v m).reg b = d.reg b := by
  by_cases h : b = a
  · subst h; exact d.reg_setReg_self _ _
  · exact d.reg_setReg_ne _ h
@[simp] theorem Dev.stage_get (a : Nat) (v m : W64) (f : Fld) : (d.stage a v m).get f = d.get f := by simp [Dev.get]

/-! ### The staged fields of the host port (14 R398) -/

/-- A list stays where each of its members is kept as it is. -/
theorem filterMap_eq_self {α : Type} {g : α → Option α} {l : List α} (h : ∀ x ∈ l, g x = some x) : l.filterMap g = l := by
  induction l with
  | nil => rfl
  | cons x t ih =>
    rw [List.filterMap_cons_some (h x (List.mem_cons_self ..)), ih fun y hy => h y (List.mem_cons_of_mem _ hy)]

/-- The one staged write of a range takes effect for the bits of the range's mask; what is left of it waits on. -/
theorem Dev.takeStaged_last {lo hi a : Nat} {v m : W64} {old : List (Nat × W64 × W64)} (mask : Nat → W64)
    (hd : d.staged = old ++ [(a, v, m)]) (hold : ∀ x ∈ old, x.1 < lo ∨ hi ≤ x.1) (hlo : lo ≤ a) (hhi : a < hi) :
    d.takeStaged lo hi mask = { d.setReg a (overlay (d.reg a) v (m &&& mask a)) with
      staged := old ++ if m &&& ~~~mask a = 0 then [] else [(a, v, m &&& ~~~mask a)] } := by
  have out_of_range : ∀ x ∈ old, ¬ (lo ≤ x.1 ∧ x.1 < hi) := fun x hx => by have := hold x hx; omega
  have mine : d.staged.filter (fun s => decide (lo ≤ s.1) && decide (s.1 < hi)) = [(a, v, m)] := by
    have : old.filter (fun s => decide (lo ≤ s.1) && decide (s.1 < hi)) = [] :=
      List.filter_eq_nil_iff.2 fun x hx => by simpa using out_of_range x hx
    simp [hd, this, hlo, hhi]
  have left : d.staged.filterMap (fun s => if lo ≤ s.1 ∧ s.1 < hi then
      (let n := s.2.2 &&& ~~~(mask s.1); if n = 0 then none else some (s.1, s.2.1, n)) else some s) =
      old ++ if m &&& ~~~mask a = 0 then [] else [(a, v, m &&& ~~~mask a)] := by
    rw [hd, List.filterMap_append]
    congr 1
    · exact filterMap_eq_self fun x hx => if_neg (out_of_range x hx)
    · by_cases h0 : m &&& ~~~mask a = 0 <;>
        simp only [List.filterMap_cons, hlo, hhi, h0, and_self, ↓reduceIte, List.filterMap_nil]
  simp only [Dev.takeStaged, mine, List.foldl_cons, List.foldl_nil, Dev.setReg_staged, left]

theorem Dev.linkLost_reg {a : Nat} (p : Nat) (h0 : a ≠ Reg.HP_STATUS) (h1 : a ≠ Reg.HP_COUNT1) :
    (d.linkLost p).reg a = d.reg a := by
  unfold Dev.linkLost
  dsimp only
  split
  · rw [Dev.logEv_reg, Dev.reg_inc_ne _ h1, Dev.reg_set_ne _ _ h0]
  · rfl

@[simp] theorem Dev.linkLost_mem (p : Nat) : (d.linkLost p).mem = d.mem := by
  unfold Dev.linkLost; dsimp only; split <;> simp

@[simp] theorem Dev.linkLost_staged (p : Nat) : (d.linkLost p).staged = d.staged := by
  unfold Dev.linkLost; dsimp only; split <;> simp

/-- The link of a port that is lost is down, and the other one is as it was. -/
theorem Dev.linkLost_link {p q : Nat} (hp : p < 2) (hq : q < 2) :
    ((d.linkLost p).get Reg.HP_STATUS_LINK).testBit q = (decide (q ≠ p) && (d.get Reg.HP_STATUS_LINK).testBit q) := by
  have hl : d.get Reg.HP_STATUS_LINK < 4 := d.get_lt _
  have minus : ∀ l < 4, ∀ p < 2, ∀ q < 2, l.testBit p = true →
      ((l - 2 ^ p) % 4).testBit q = (decide (q ≠ p) && l.testBit q) := by decide
  unfold Dev.linkLost
  dsimp only
  split
  · next hb =>
    rw [Dev.logEv_get, Dev.get_inc_ne _ (by decide) (.inl (by decide)), Dev.get_set_self _ (by decide)]
    exact minus _ hl p hp q hq hb
  · next hb =>
    by_cases e : q = p
    · subst e; simpa using hb
    · simp [e]

section
variable {d} {old : List (Nat × W64 × W64)} {v m : W64} (hold : ∀ x ∈ old, x.1 < hpLo ∨ hpHi ≤ x.1)
include hold

/-- A write of MODE and MAX_FRAME waits on, and both links are lost. -/
theorem Dev.hostFields_hpCtrl (hd : d.staged = old ++ [(Reg.HP_CTRL, v, hpLater Reg.HP_CTRL)]) :
    d.hostFields = ((d.setReg Reg.HP_CTRL (d.reg Reg.HP_CTRL)).linkLost 0).linkLost 1 := by
  have some_later : hpLater Reg.HP_CTRL ≠ 0 := by decide
  have bring : d.staged.any (fun s => s.1 = Reg.HP_CTRL && (s.2.2 &&& hpLater Reg.HP_CTRL) ≠ 0) = true := by
    simpa [hd] using Or.inr some_later
  have none_now : hpLater Reg.HP_CTRL &&& ~~~hpLater Reg.HP_CTRL = 0 := by decide
  have all_later : hpLater Reg.HP_CTRL &&& ~~~~~~hpLater Reg.HP_CTRL = hpLater Reg.HP_CTRL := by decide
  unfold Dev.hostFields
  rw [if_pos bring, Dev.takeStaged_last d _ hd hold (by decide) (by decide), none_now, overlay_zero, all_later,
    if_neg some_later, ← hd]
  rfl

/-- A write of another field of the host port takes effect, and the links stay. -/
theorem Dev.hostFields_address {a : Nat} (hd : d.staged = old ++ [(a, v, m)]) (hlo : hpLo < a) (hhi : a < hpHi) :
    d.hostFields = { d.setReg a (overlay (d.reg a) v m) with staged := old } := by
  have ne : a ≠ Reg.HP_CTRL := Nat.ne_of_gt hlo
  have noBring : ¬ d.staged.any (fun s => s.1 = Reg.HP_CTRL && (s.2.2 &&& hpLater Reg.HP_CTRL) ≠ 0) = true := by
    rw [List.any_eq_true]
    rintro ⟨x, hx, hb⟩
    obtain ⟨e, -⟩ := Bool.and_eq_true_iff.1 hb
    have ex : x.1 = Reg.HP_CTRL := of_decide_eq_true e
    rw [hd, List.mem_append, List.mem_singleton] at hx
    rcases hx with hx | rfl
    · have range := hold x hx
      rw [ex] at range
      exact absurd range (by decide)
    · exact ne ex
  have none_later : hpLater a = 0 := if_neg ne
  unfold Dev.hostFields
  rw [if_neg noBring, Dev.takeStaged_last d _ hd hold (Nat.le_of_lt hlo) hhi, none_later, and_not_zero]
  have : m &&& ~~~~~~(0 : W64) = 0 := by simp
  rw [if_pos this, List.append_nil]

end

@[simp] theorem Dev.okReply_staged (op : Nat) (h : Hdr) (b : List W64) : (d.okReply op h b).staged = d.staged := rfl
@[simp] theorem Dev.okReply_mem (op : Nat) (h : Hdr) (b : List W64) : (d.okReply op h b).mem = d.mem := rfl
@[simp] theorem Dev.okReply_reg (op : Nat) (h : Hdr) (b : List W64) (a : Nat) : (d.okReply op h b).reg a = d.reg a := rfl
@[simp] theorem Dev.okReply_get (op : Nat) (h : Hdr) (b : List W64) (f : Fld) : (d.okReply op h b).get f = d.get f := rfl

end Sys2Proof.Machine
end

section
/-! PROOF. Register commands whose writes pass every check carry them out (00 R20, 15 R424, R425). -/

namespace Sys2Proof.Machine

theorem wd_drop (w : List W64) (k i : Nat) : wd (w.drop k) i = wd w (k + i) := by
  simp [wd, List.getD_eq_getElem?_getD, List.getElem?_drop]

/-- The triples of a parameter block, by their place. -/
theorem regTriples_eq (n : Nat) (w : List W64) :
    regTriples n w = (List.range n).map (fun i => (fld (wd w (3 * i)) 39 0, wd w (1 + 3 * i), wd w (2 + 3 * i))) := by
  induction n generalizing w with
  | zero => rfl
  | succ n ih =>
    rw [regTriples, ih, List.range_succ_eq_map, List.map_cons, List.map_map]
    congr 1
    refine List.map_congr_left fun i _ => ?_
    have e (k : Nat) : 3 + (k + 3 * i) = k + 3 * (i + 1) := by omega
    simp only [Function.comp_apply, wd_drop, e, Nat.succ_eq_add_one]
    rw [show 3 + 3 * i = 3 * (i + 1) by omega]

/-- Writes that pass their checks are carried out, and the host port's fields take effect after the reply. -/
theorem writeRegs_pass (d : Dev) (k : Nat) (l : List (Nat × W64 × W64)) (h : d.WritesPass l) :
    writeRegs d k l = .okThen ((d.writesDone l).wakeRegs (l.map Prod.fst)) [] (fun _ d => d.hostFields) := by
  rw [writeRegs, Dev.writeAll_pass d 0 l h]

theorem Dev.writesPass_singleton (d : Dev) (a : Nat) (v m : W64) (h : d.writeBad a v m false = none) :
    d.WritesPass [(a, v, m)] := by
  intro i x hx
  cases i with
  | zero => cases hx; exact h
  | succ i => cases hx

section
variable {s : State} {h : Hdr} {w : List W64}

/-- What every register command answers once its writes pass. -/
theorem State.cmd_writeRegs {c : Cmd} (a : Sent c s h w) (ho : basicOp c.op ≠ 0x102) (hp : c.pre (s.taken c.op h) = true)
    {k : Nat} {l : List (Nat × W64 × W64)} (hr : c.run s.fuses (s.taken c.op h) h w = writeRegs (s.taken c.op h) k l)
    (hl : (s.taken c.op h).WritesPass l) :
    s.cmd c h w = .next (s.withDev
      (((((s.taken c.op h).writesDone l).wakeRegs (l.map Prod.fst)).okReply c.op h []).hostFields)) :=
  State.cmd_okThen a ho hp (hr.trans (writeRegs_pass _ k l hl))

theorem State.cmd_regWrite (a : Sent cmdRegWrite s h w) (h0 : reserved (wd w 0) [(39, 0)] = false)
    (hw : (s.taken 0x105 h).writeBad (fld (wd w 0) 39 0) (wd w 1) (wd w 2) false = none) :
    s.cmd cmdRegWrite h w = .next (s.withDev (((((s.taken 0x105 h).writeReg (fld (wd w 0) 39 0) (wd w 1) (wd w 2)).wakeRegs
      [fld (wd w 0) 39 0]).okReply 0x105 h []).hostFields)) := by
  refine State.cmd_writeRegs a (by decide) rfl (k := 0) (l := [(fld (wd w 0) 39 0, wd w 1, wd w 2)]) ?_
    (Dev.writesPass_singleton _ _ _ _ hw)
  simp [cmdRegWrite, h0, regTriples]

theorem State.cmd_regWriteMulti {n : Nat} {l : List (Nat × W64 × W64)} (a : Sent cmdRegWriteMulti s h w)
    (h0 : reserved (wd w 0) [(6, 0)] = false) (hn : fld (wd w 0) 6 0 = n) (h1 : 1 ≤ n) (h64 : n ≤ 64)
    (hr : ∀ i, i < n → reserved (wd w (1 + 3 * i)) [(39, 0)] = false)
    (hl : l = (List.range n).map (fun i => (fld (wd w (1 + 3 * i)) 39 0, wd w (2 + 3 * i), wd w (3 + 3 * i))))
    (hp : (s.taken 0x185 h).WritesPass l) :
    s.cmd cmdRegWriteMulti h w =
      .next (s.withDev (((((s.taken 0x185 h).writesDone l).wakeRegs (l.map Prod.fst)).okReply 0x185 h []).hostFields)) := by
  refine State.cmd_writeRegs a (by decide) rfl (k := 1) ?_ hp
  have none_reserved : (List.range n).find? (fun i => reserved (wd w (1 + 3 * i)) [(39, 0)]) = none := by
    simpa using hr
  have triples : regTriples n (w.drop 1) = l := by
    simp only [regTriples_eq, wd_drop, hl, ← Nat.add_assoc]
  have hn0 : ¬ n = 0 := by omega
  have hn64 : ¬ 64 < n := by omega
  simp [cmdRegWriteMulti, h0, hn, hn0, hn64, none_reserved, triples, -List.drop_one]

end

/-- Settles O11: each command is its row's `writeRegs`, and `writeAll_pass` carries every write out. -/
theorem registerWritesTakeEffect : Obligations.RegisterWritesTakeEffect := by
  refine ⟨fun s h w a h0 hw i hi => ?_, fun s h w n l a h0 hn h1 h64 hr hl hp => ?_⟩
  · have he : exec i s = s.cmd cmdRegWrite h w := by
      rcases hi with rfl | rfl | rfl | rfl | rfl | rfl <;> rfl
    rw [he]
    exact State.cmd_regWrite a h0 hw
  · exact State.cmd_regWriteMulti a h0 hn h1 h64 hr hl hp

end Sys2Proof.Machine
end

section
/-! PROOF. The register writes that have rows of their own: W1C bits, match fields, and the host port's fields (00 R13, 14
R398, 16 R459, 17 R484, 21 R543). -/

namespace Sys2Proof.Machine

variable {s : State} {h : Hdr} {w : List W64}

/-- A register write of the hub that no check refuses. -/
theorem State.cmd_regWrite_hub (sent : Sent cmdRegWrite s h w) {a : Nat} {r : RegDesc} {v m : W64}
    (hw : w = [w64 a, v, m]) (p : HubReg a r) (t : r.Takes m)
    (hv : ∀ base, (s.taken 0x105 h).valueBad r a (r.after base v m) (r.writable m) = none) :
    s.cmd cmdRegWrite h w = .next (s.withDev ((((s.taken 0x105 h).writeReg a v m).okReply 0x105 h []).hostFields)) := by
  subst hw
  have ha : fld (wd [w64 a, v, m] 0) 39 0 = a := p.word
  have passes : (s.taken 0x105 h).writeBad (fld (wd [w64 a, v, m] 0) 39 0) v m false = none := by
    rw [ha]; exact Dev.writeBad_none _ p t hv
  rw [State.cmd_regWrite sent p.unreserved passes, ha, Dev.wakeRegs_hub _ _ p.hub]
  rfl

/-! ### The registers with writes of their own -/

/-- JOB_XLATE (16 R459). -/
def jobXlateDesc : RegDesc :=
  ⟨"JOB_XLATE", .hub, 0xE018, [], .reset, .never,
    [⟨"PENDING", 63, 63, .w1c, .l, 0⟩, ⟨"LOCATION", 62, 55, .ro, .none, 0⟩, ⟨"CHANNEL", 54, 50, .ro, .none, 0⟩,
     ⟨"ADDR", 47, 0, .ro, .none, 0⟩]⟩

/-- FAULT_STATUS (17 R484). -/
def faultStatusDesc : RegDesc :=
  ⟨"FAULT_STATUS", .hub, 0xF000, [], .reset, .never,
    [⟨"SAFE", 63, 63, .ro, .none, 0⟩, ⟨"FAILED", 62, 62, .ro, .none, 0⟩, ⟨"SAFE_CAUSE", 61, 57, .ro, .none, 0⟩,
     ⟨"FP_MINORITY_SEEN", 2, 2, .w1c, .l, 0⟩, ⟨"LATENT", 1, 1, .w1c, .l, 0⟩, ⟨"ABORT_SENT", 0, 0, .w1c, .l, 0⟩]⟩

/-- FRZ_CTRL (21 R543). -/
def frzCtrlDesc : RegDesc :=
  ⟨"FRZ_CTRL", .hub, 0x1200, [], .reset, .never,
    [⟨"PIN_ACTION", 63, 62, .rw, .l, 1⟩, ⟨"MATCH_ACTION", 61, 60, .rw, .l, 0⟩, ⟨"MATCH_EVENT", 59, 48, .rw, .l, 0⟩,
     ⟨"MATCH_MASK", 47, 36, .rw, .l, 0⟩, ⟨"MATCH_SOURCE", 35, 28, .rw, .l, 0⟩, ⟨"MATCH_ANY", 27, 27, .rw, .l, 0⟩,
     ⟨"MATCH_COUNT", 26, 11, .rw, .l, 1⟩]⟩

/-- HP_CTRL (14 R398). -/
def hpCtrlDesc : RegDesc :=
  ⟨"HP_CTRL", .hub, 0xC000, [], .reset, .never,
    [⟨"MODE", 63, 62, .rw, .s, 0⟩, ⟨"VLAN_EN", 61, 61, .rw, .s, 0⟩, ⟨"VID", 60, 49, .rw, .s, 0⟩,
     ⟨"MAX_FRAME", 48, 35, .rw, .s, 9216⟩, ⟨"SMIPER_PORT", 34, 19, .rw, .s, 0⟩, ⟨"PTP_TRANSPORT", 18, 18, .rw, .s, 0⟩,
     ⟨"PTP_PORT", 17, 17, .rw, .s, 0⟩, ⟨"PTP_DOMAIN", 16, 9, .rw, .s, 0⟩]⟩

/-- HP_IPV4 (14 R398). -/
def hpIpv4Desc : RegDesc := ⟨"HP_IPV4", .hub, 0xC010, [], .reset, .never, [⟨"IPV4_ADDR", 31, 0, .rw, .s, 0⟩]⟩

theorem hubReg_jobXlate : HubReg Reg.JOB_XLATE jobXlateDesc :=
  ⟨rfl, by decide, by decide, by decide, by decide, by decide, rfl⟩
theorem hubReg_faultStatus : HubReg Reg.FAULT_STATUS faultStatusDesc :=
  ⟨rfl, by decide, by decide, by decide, by decide, by decide, rfl⟩
theorem hubReg_frzCtrl : HubReg Reg.FRZ_CTRL frzCtrlDesc := ⟨rfl, by decide, by decide, by decide, by decide, by decide, rfl⟩
theorem hubReg_hpCtrl : HubReg Reg.HP_CTRL hpCtrlDesc := ⟨rfl, by decide, by decide, by decide, by decide, by decide, rfl⟩
theorem hubReg_hpIpv4 : HubReg Reg.HP_IPV4 hpIpv4Desc := ⟨rfl, by decide, by decide, by decide, by decide, by decide, rfl⟩

/-- The match fields of FRZ_CTRL take any value but MATCH_ACTION 3 and MATCH_COUNT 0 (21 R543). -/
theorem Dev.valueBad_frzMatch (d : Dev) (a : Nat) (base : W64) {v : W64} (h1 : fld v 61 60 < 3) (h2 : fld v 26 11 ≠ 0) :
    d.valueBad frzCtrlDesc a (overlay base v (fldMask 61 11)) (fldMask 61 11) = none := by
  have pin : fldMask 61 11 &&& fldMask 63 62 = 0 := by decide
  have action : fld (overlay base v (fldMask 61 11)) 61 60 = fld v 61 60 := fld_overlay_in _ _ (by decide)
  have count : fld (overlay base v (fldMask 61 11)) 26 11 = fld v 26 11 := fld_overlay_in _ _ (by decide)
  have h3 : ¬ fld v 61 60 = 3 := by omega
  simp [Dev.valueBad, frzCtrlDesc, pin, action, count, h2, h3]

/-- MODE 0 or 1 and a MAX_FRAME from 1,518 to 9,216 are in range (14 R398). -/
theorem Dev.valueBad_hpLater (d : Dev) (a : Nat) (base : W64) {v : W64} (h1 : fld v 63 62 ≤ 1) (h2 : 1518 ≤ fld v 48 35)
    (h3 : fld v 48 35 ≤ 9216) :
    d.valueBad hpCtrlDesc a (overlay base v (hpLater Reg.HP_CTRL)) (hpLater Reg.HP_CTRL) = none := by
  have vlan : hpLater Reg.HP_CTRL &&& fldMask 61 61 = 0 := by decide
  have vid : hpLater Reg.HP_CTRL &&& fldMask 60 49 = 0 := by decide
  have port : hpLater Reg.HP_CTRL &&& fldMask 34 19 = 0 := by decide
  have mode : fld (overlay base v (hpLater Reg.HP_CTRL)) 63 62 = fld v 63 62 := fld_overlay_in _ _ (by decide)
  have frame : fld (overlay base v (hpLater Reg.HP_CTRL)) 48 35 = fld v 48 35 := fld_overlay_in _ _ (by decide)
  simp [Dev.valueBad, hpCtrlDesc, vlan, vid, port, mode, frame, h1, h2, h3]

/-! ### What each of those writes leaves -/

section
variable (sent : Sent cmdRegWrite s h w)
include sent

/-- PENDING of JOB_XLATE is cleared and nothing else (16 R459). -/
theorem State.cmd_jobXlateClear (hw : w = [w64 Reg.JOB_XLATE, w64 (2 ^ 63), w64 (2 ^ 63)]) :
    s.cmd cmdRegWrite h w = .next (s.withDev ((((s.taken 0x105 h).setReg Reg.JOB_XLATE
      (s.dev.reg Reg.JOB_XLATE &&& ~~~(w64 (2 ^ 63)))).okReply 0x105 h []).hostFields)) := by
  have after (base : W64) : jobXlateDesc.after base (w64 (2 ^ 63)) (w64 (2 ^ 63)) = base &&& ~~~(w64 (2 ^ 63)) := by
    rw [RegDesc.after_w1c (by decide), show w64 (2 ^ 63) &&& jobXlateDesc.writable (w64 (2 ^ 63)) = w64 (2 ^ 63) by decide]
  rw [State.cmd_regWrite_hub sent hw hubReg_jobXlate ⟨by decide, by decide⟩ fun _ => rfl,
    Dev.writeReg_direct _ hubReg_jobXlate.found _ _ (by decide), after, Dev.taken_reg _ _ _ _ (by decide) (by decide)]
  rfl

/-- One W1C bit of FAULT_STATUS is cleared and nothing else (17 R484). -/
theorem State.cmd_faultStatusClear {b : Nat} (hb : b ≤ 2) (hw : w = [w64 Reg.FAULT_STATUS, w64 (2 ^ b), w64 (2 ^ b)]) :
    s.cmd cmdRegWrite h w = .next (s.withDev ((((s.taken 0x105 h).setReg Reg.FAULT_STATUS
      (s.dev.reg Reg.FAULT_STATUS &&& ~~~(w64 (2 ^ b)))).okReply 0x105 h []).hostFields)) := by
  obtain ⟨takes, direct, bits⟩ : faultStatusDesc.Takes (w64 (2 ^ b)) ∧ faultStatusDesc.stagedMask (w64 (2 ^ b)) = 0 ∧
      w64 (2 ^ b) &&& faultStatusDesc.writable (w64 (2 ^ b)) = w64 (2 ^ b) := by
    obtain rfl | rfl | rfl : b = 0 ∨ b = 1 ∨ b = 2 := by omega
    all_goals exact ⟨⟨by decide, by decide⟩, by decide, by decide⟩
  rw [State.cmd_regWrite_hub sent hw hubReg_faultStatus takes fun _ => rfl,
    Dev.writeReg_direct _ hubReg_faultStatus.found _ _ direct, RegDesc.after_w1c (by decide), bits,
    Dev.taken_reg _ _ _ _ (by decide) (by decide)]
  rfl

/-- The match fields of FRZ_CTRL are set, and MATCHES is 0 (21 R543). -/
theorem State.cmd_frzMatchWrite {v : W64} (h1 : fld v 61 60 < 3) (h2 : fld v 26 11 ≠ 0)
    (hw : w = [w64 Reg.FRZ_CTRL, v, fldMask 61 11]) :
    s.cmd cmdRegWrite h w = .next (s.withDev (((((s.taken 0x105 h).setReg Reg.FRZ_CTRL
      (overlay (s.dev.reg Reg.FRZ_CTRL) v (fldMask 61 11))).set Reg.FRZ_STATUS_MATCHES 0).okReply 0x105 h []).hostFields)) := by
  have after (base : W64) : frzCtrlDesc.after base v (fldMask 61 11) = overlay base v (fldMask 61 11) := by
    rw [RegDesc.after_rw (by decide), show frzCtrlDesc.writable (fldMask 61 11) = fldMask 61 11 by decide]
  have inRange (base : W64) : (s.taken 0x105 h).valueBad frzCtrlDesc Reg.FRZ_CTRL (frzCtrlDesc.after base v (fldMask 61 11))
      (frzCtrlDesc.writable (fldMask 61 11)) = none := by
    rw [after]; exact Dev.valueBad_frzMatch _ _ _ h1 h2
  rw [State.cmd_regWrite_hub sent hw hubReg_frzCtrl ⟨by decide, by decide⟩ inRange,
    Dev.writeReg_direct _ hubReg_frzCtrl.found _ _ (by decide), after, Dev.taken_reg _ _ _ _ (by decide) (by decide)]
  rfl

/-- MODE and MAX_FRAME wait, HP_CTRL stays, and both links go down for the new bring-up (14 R398). -/
theorem State.cmd_hpCtrlLinkWrite {v : W64} (h1 : fld v 63 62 ≤ 1) (h2 : 1518 ≤ fld v 48 35) (h3 : fld v 48 35 ≤ 9216)
    (hold : ∀ x ∈ s.dev.staged, x.1 < hpLo ∨ hpHi ≤ x.1) (hw : w = [w64 Reg.HP_CTRL, v, hpLater Reg.HP_CTRL]) :
    ∃ t, s.cmd cmdRegWrite h w = .next t ∧ t.dev.reg Reg.HP_CTRL = s.dev.reg Reg.HP_CTRL ∧
      (t.dev.get Reg.HP_STATUS_LINK).testBit 0 = false ∧ (t.dev.get Reg.HP_STATUS_LINK).testBit 1 = false ∧
      (Reg.HP_CTRL, v &&& hpLater Reg.HP_CTRL, hpLater Reg.HP_CTRL) ∈ t.dev.staged ∧ t.dev.mem = s.dev.mem := by
  have inRange (base : W64) : (s.taken 0x105 h).valueBad hpCtrlDesc Reg.HP_CTRL
      (hpCtrlDesc.after base v (hpLater Reg.HP_CTRL)) (hpCtrlDesc.writable (hpLater Reg.HP_CTRL)) = none := by
    rw [RegDesc.after_rw (by decide), show hpCtrlDesc.writable (hpLater Reg.HP_CTRL) = hpLater Reg.HP_CTRL by decide]
    exact Dev.valueBad_hpLater _ _ _ h1 h2 h3
  have waits : (s.taken 0x105 h).writeReg Reg.HP_CTRL v (hpLater Reg.HP_CTRL) =
      (s.taken 0x105 h).stage Reg.HP_CTRL v (hpLater Reg.HP_CTRL) :=
    Dev.writeReg_stage _ hubReg_hpCtrl.found _ _ (by decide) (by decide) (by decide) (by decide)
  refine ⟨_, State.cmd_regWrite_hub sent hw hubReg_hpCtrl ⟨by decide, by decide⟩ inRange, ?_⟩
  rw [waits, Dev.hostFields_hpCtrl hold (v := v &&& hpLater Reg.HP_CTRL) (by simp)]
  refine ⟨?_, ?_, ?_, ?_, ?_⟩
  · rw [Dev.linkLost_reg _ _ (by decide) (by decide), Dev.linkLost_reg _ _ (by decide) (by decide), Dev.reg_setReg_self,
      Dev.okReply_reg, Dev.stage_reg, Dev.taken_reg _ _ _ _ (by decide) (by decide)]
  · rw [Dev.linkLost_link _ (by decide) (by decide), Dev.linkLost_link _ (by decide) (by decide)]; rfl
  · rw [Dev.linkLost_link _ (by decide) (by decide)]; rfl
  · simp
  · simp

/-- IPV4_ADDR takes effect, and the links stay (14 R398). -/
theorem State.cmd_hostAddressWrite {v : W64} (hold : ∀ x ∈ s.dev.staged, x.1 < hpLo ∨ hpHi ≤ x.1)
    (hw : w = [w64 Reg.HP_IPV4, v, fldMask 31 0]) :
    ∃ t, s.cmd cmdRegWrite h w = .next t ∧ t.dev.get Reg.HP_IPV4_IPV4_ADDR = fld v 31 0 ∧
      t.dev.get Reg.HP_STATUS_LINK = s.dev.get Reg.HP_STATUS_LINK ∧ t.dev.staged = s.dev.staged ∧ t.dev.mem = s.dev.mem := by
  have waits : (s.taken 0x105 h).writeReg Reg.HP_IPV4 v (fldMask 31 0) = (s.taken 0x105 h).stage Reg.HP_IPV4 v (fldMask 31 0) :=
    Dev.writeReg_stage _ hubReg_hpIpv4.found _ _ (by decide) (by decide) (by decide) (by decide)
  refine ⟨_, State.cmd_regWrite_hub sent hw hubReg_hpIpv4 ⟨by decide, by decide⟩ fun _ => rfl, ?_⟩
  rw [waits, Dev.hostFields_address hold (v := v &&& fldMask 31 0) (m := fldMask 31 0) (a := Reg.HP_IPV4) (by simp)
    (by decide) (by decide)]
  refine ⟨?_, ?_, rfl, ?_⟩
  · rw [Dev.restaged_get, Dev.get, Dev.reg_setReg_self, overlay_and_mask, fld_overlay_in _ _ (by decide)]
  · rw [Dev.restaged_get, Dev.get_setReg_ne _ _ (by decide), Dev.okReply_get, Dev.stage_get,
      Dev.taken_get _ _ _ _ (by decide) (by decide)]
  · simp

end

/-- Settles O12: each row is the register write of its register. -/
theorem specialRegisterWrites : Obligations.SpecialRegisterWrites :=
  ⟨fun _ _ _ a hw => State.cmd_jobXlateClear a hw,
   fun _ _ _ _ a hb hw => State.cmd_faultStatusClear a hb hw,
   fun _ _ _ _ a h1 h2 hw => State.cmd_frzMatchWrite a h1 h2 hw,
   fun _ _ _ _ a h1 h2 h3 hold hw => State.cmd_hpCtrlLinkWrite a h1 h2 h3 hold hw,
   fun _ _ _ _ a hold hw => State.cmd_hostAddressWrite a hold hw⟩

end Sys2Proof.Machine
end

section
/-! SUPPORT. Reads and faults leave the lattice's registers as they were: neither a correction that is counted nor the Safe
state that a fault can end in writes one (10 R294, 13 R382, 17 R461). -/

namespace Sys2Proof.Machine

/-- A register that every step of a fold keeps, the fold keeps. -/
theorem Dev.reg_foldl {β : Type} {f : Dev → β → Dev} {x : Nat} (hf : ∀ d b, (f d b).reg x = d.reg x) (l : List β) (d : Dev) :
    (l.foldl f d).reg x = d.reg x := by
  induction l generalizing d with
  | nil => rfl
  | cons b l ih => rw [List.foldl_cons, ih, hf]

/-- A register reads the same after either branch. -/
theorem Dev.reg_ite {c : Prop} [Decidable c] {d e : Dev} {x : Nat} {v : W64} (hd : d.reg x = v) (he : e.reg x = v) :
    (if c then d else e).reg x = v := by
  split
  · exact hd
  · exact he

theorem Dev.setRepair_reg (d : Dev) (f : Repair → Repair) (x : Nat) : (d.setRepair f).reg x = d.reg x := by
  unfold Dev.setRepair
  obtain ⟨r, i⟩ := d.repair
  rfl

theorem Dev.postAll_reg (d : Dev) (e : Option Nat) (prio : Nat) (w : List W64) (x : Nat) :
    (d.postAll e prio w).reg x = d.reg x := by
  unfold Dev.postAll
  refine Dev.reg_foldl (fun d p => ?_) _ d
  exact Dev.reg_ite rfl rfl

theorem Dev.noteFlood_reg (d : Dev) (o : Option Nat) (origin kind : Nat) (key : W64) (event target x : Nat) :
    (d.noteFlood o origin kind key event target).reg x = d.reg x := by
  unfold Dev.noteFlood
  split
  · rfl
  · exact Dev.postAll_reg ..

/-- An address of the lattice's own block, 0xFF0000B000 to 0xFF0000BFFF. -/
def LatticeReg (x : Nat) : Prop := x / 0x1000 = 0xFF0000B

/-- An address of another page is none of the lattice's. -/
theorem LatticeReg.ne {x a : Nat} (hx : LatticeReg x) (ha : a / 0x1000 ≠ 0xFF0000B) : x ≠ a := fun e => ha (e ▸ hx)

theorem floorBase_not_lattice (k o : Nat) : (floorBase k + o) / 0x1000 ≠ 0xFF0000B := by unfold floorBase; omega

theorem benchBase_not_lattice (b o : Nat) : (benchBase b + o) / 0x1000 ≠ 0xFF0000B := by unfold benchBase; omega

theorem integCount_not_lattice {u : Nat} (hu : u < 152) : Reg.INTEG_COUNT u / 0x1000 ≠ 0xFF0000B := by
  unfold Reg.INTEG_COUNT locBase benchBase floorBase
  split <;> omega

section
variable (d : Dev) {x : Nat} (hx : LatticeReg x)
include hx

theorem Dev.set_latticeReg {f : Fld} (v : Nat) (hf : f.addr / 0x1000 ≠ 0xFF0000B) : (d.set f v).reg x = d.reg x :=
  Dev.reg_set_ne d v (hx.ne hf)

theorem Dev.inc_latticeReg {f : Fld} (hf : f.addr / 0x1000 ≠ 0xFF0000B) : (d.inc f).reg x = d.reg x :=
  Dev.reg_inc_ne d (hx.ne hf)

theorem Dev.wrWord_latticeReg (a : Nat) (w : W64) : (d.wrWord a w).reg x = d.reg x :=
  Dev.wrWord_reg d a w fun k => hx.ne (floorBase_not_lattice k _)

/-! ### The end of operations and of a job -/

theorem Dev.opEnd_latticeReg (slot state err : Nat) : (d.opEnd slot state err).reg x = d.reg x := by
  unfold Dev.opEnd
  exact Dev.reg_ite (Dev.wrWord_latticeReg d hx _ _) (Dev.wrWord_latticeReg d hx _ _)

theorem Dev.endOps_latticeReg (p : LongOp → Bool) (state err : Nat) : (d.endOps p state err).reg x = d.reg x := by
  unfold Dev.endOps
  exact Dev.reg_foldl (fun d o => by exact Dev.opEnd_latticeReg d hx o.slot state err) _ d

theorem Dev.setJs_latticeReg (n : Nat) : (d.setJs n).reg x = d.reg x := by
  unfold Dev.setJs
  exact Dev.reg_ite rfl (Dev.set_latticeReg d hx n (by decide))

theorem Dev.endJob_latticeReg (rs re ss se : Nat) : (d.endJob rs re ss se).reg x = d.reg x := by
  unfold Dev.endJob
  dsimp only
  rw [Dev.setJs_latticeReg _ hx, Dev.set_latticeReg _ hx _ (by decide)]
  calc
    _ = ((d.endOps _ rs re).endOps _ ss se).reg x := Dev.endOps_latticeReg _ hx _ _ _
    _ = (d.endOps _ rs re).reg x := Dev.endOps_latticeReg _ hx _ _ _
    _ = d.reg x := Dev.endOps_latticeReg d hx _ _ _

theorem Dev.floodAbort_latticeReg : d.floodAbort.reg x = d.reg x := by
  unfold Dev.floodAbort
  dsimp only
  rw [Dev.noteFlood_reg, Dev.set_latticeReg _ hx _ (by decide), Dev.inc_latticeReg _ hx (by decide)]
  rfl

/-! ### A fault and its disposition -/

theorem Dev.failPreempt_latticeReg (f : FaultRec) : (d.failPreempt f).reg x = d.reg x := by
  unfold Dev.failPreempt
  dsimp only
  rw [Dev.endOps_latticeReg _ hx]
  split
  · exact Dev.wrWord_latticeReg d hx _ _
  · rfl

theorem Dev.enterSafe_latticeReg (cause : Nat) : (d.enterSafe cause).reg x = d.reg x := by
  have begins (mask : Nat) (f : Repair → Repair) (l : List W64) :
      ((((d.set Reg.FAULT_STATUS_SAFE 1).set Reg.FAULT_STATUS_SAFE_CAUSE mask).setRepair f).logEv 1 0x002 l).reg x = d.reg x := by
    rw [Dev.logEv_reg, Dev.setRepair_reg, Dev.set_latticeReg _ hx _ (by decide), Dev.set_latticeReg _ hx _ (by decide)]
  unfold Dev.enterSafe
  refine Dev.reg_ite (begins _ _ _) (Dev.reg_ite ?_ ?_)
  · rw [Dev.endJob_latticeReg _ hx, Dev.floodAbort_latticeReg _ hx]; exact begins _ _ _
  · rw [Dev.floodAbort_latticeReg _ hx]; exact begins _ _ _

theorem Dev.recordFault_latticeReg (f : FaultRec) (disp : Nat) (persistent : Bool) :
    (d.recordFault f disp persistent).reg x = d.reg x := by
  have recorded (s e : Nat) (v w : W64) (l : List W64) :
      (((d.setReg Reg.FAULT_LAST0 v).setReg Reg.FAULT_LAST1 w).logEv s e l).reg x = d.reg x := by
    rw [Dev.logEv_reg, Dev.reg_setReg_ne _ _ (hx.ne (by decide)), Dev.reg_setReg_ne _ _ (hx.ne (by decide))]
  have counted {e : Dev} (he : e.reg x = d.reg x) :
      (if disp = dLocal then e.inc Reg.FAULT_COUNT_LOCAL else e).reg x = d.reg x :=
    Dev.reg_ite ((Dev.inc_latticeReg e hx (by decide)).trans he) he
  unfold Dev.recordFault
  dsimp only
  split
  · rename_i hu
    have site := integCount_not_lattice hu
    exact Dev.reg_ite ((Dev.inc_latticeReg _ hx site).trans (counted (recorded ..)))
      (Dev.reg_ite ((Dev.inc_latticeReg _ hx site).trans (counted (recorded ..))) (counted (recorded ..)))
  · exact counted (recorded ..)

theorem Dev.actOn_latticeReg (f : FaultRec) (disp : Nat) : (d.actOn f disp).reg x = d.reg x := by
  unfold Dev.actOn
  refine Dev.reg_ite (Dev.reg_ite (Dev.floodAbort_latticeReg d hx) (Dev.reg_ite rfl rfl))
    (Dev.reg_ite (Dev.reg_ite ?_ rfl) (Dev.reg_ite (Dev.set_latticeReg d hx _ (by decide)) (Dev.reg_ite ?_ rfl)))
  · rw [Dev.endJob_latticeReg _ hx, Dev.floodAbort_latticeReg _ hx, Dev.failPreempt_latticeReg _ hx]
  · rw [Dev.enterSafe_latticeReg _ hx, Dev.failPreempt_latticeReg _ hx]
    exact Dev.reg_ite (Dev.setRepair_reg ..) rfl

theorem Dev.fault_latticeReg (f : FaultRec) (disp : Nat) : (d.fault f disp).reg x = d.reg x := by
  have counted {e : Dev} (b : Bool) {c : Fld} (hc : c.addr / 0x1000 ≠ 0xFF0000B) (he : e.reg x = d.reg x) :
      (if b then e.inc c else e).reg x = d.reg x := Dev.reg_ite ((Dev.inc_latticeReg e hx hc).trans he) he
  unfold Dev.fault
  dsimp only
  rw [Dev.actOn_latticeReg _ hx]
  exact counted _ (by decide) (counted _ (by decide) (Dev.recordFault_latticeReg d hx _ _ _))

/-! ### Reads of memory -/

theorem Dev.markDie_latticeReg (k die : Nat) : (d.markDie k die).reg x = d.reg x := by
  unfold Dev.markDie
  refine Dev.reg_ite (Dev.reg_ite rfl (Dev.fault_latticeReg d hx _ _)) ?_
  rw [Dev.fault_latticeReg _ hx, Dev.setRepair_reg, Dev.reg_set_ne _ _ (hx.ne (floorBase_not_lattice k 0x810)),
    Dev.reg_set_ne _ _ (hx.ne (floorBase_not_lattice k 0x810))]

/-- A counter of a floor's code (10 R307). -/
theorem Dev.incEcc_latticeReg (k hi lo : Nat) : (d.inc ⟨Reg.CELLAR_ECC k, hi, lo⟩).reg x = d.reg x :=
  Dev.inc_latticeReg d hx (floorBase_not_lattice k _)

theorem Dev.dieCorrection_latticeReg (k die : Nat) : (d.dieCorrection k die).reg x = d.reg x := by
  unfold Dev.dieCorrection
  refine Dev.reg_ite ?_ ?_
  · rw [Dev.markDie_latticeReg _ hx, Dev.onFloor_reg, Dev.incEcc_latticeReg _ hx]
  · rw [Dev.onFloor_reg, Dev.incEcc_latticeReg _ hx]

theorem Dev.codewordMet_latticeReg (a e : Nat) : (d.codewordMet a e).reg x = d.reg x := by
  unfold Dev.codewordMet Dev.codewordRead
  refine Dev.reg_ite ?_ (Dev.reg_ite ?_ (Dev.incEcc_latticeReg d hx _ _ _))
  · rw [Dev.onFloor_reg]
    split <;> exact Dev.incEcc_latticeReg d hx _ _ _
  · rw [Dev.onFloor_reg, Dev.dieCorrection_latticeReg _ hx]

theorem Dev.correctReads_latticeReg (b : Nat) (l : List (Nat × Nat)) : (d.correctReads b l).reg x = d.reg x := by
  unfold Dev.correctReads
  refine Dev.reg_ite rfl ?_
  rw [Dev.reg_addTo_ne _ _ (hx.ne (benchBase_not_lattice b 0x430))]
  rfl

theorem Dev.rdPhys_latticeReg (a n : Nat) : (d.rdPhys a n).1.reg x = d.reg x := by
  unfold Dev.rdPhys
  split
  · exact Dev.reg_ite (Dev.incEcc_latticeReg d hx _ _ _) rfl
  · refine Dev.reg_ite ?_ (Dev.correctReads_latticeReg d hx _ _)
    exact Dev.reg_foldl (fun d e => by exact Dev.codewordMet_latticeReg d hx e.1 e.2) _ d

theorem Dev.readJob_latticeReg (a n : Nat) : (d.readJob a n).reg x = d.reg x := by
  unfold Dev.readJob Dev.readPhys
  split
  · exact Dev.reg_foldl (fun d r => by exact Dev.rdPhys_latticeReg d hx r.1 r.2) _ d
  · rfl

end

/-- A read of job memory leaves the device's place in its domain. -/
theorem Dev.readJob_index (d : Dev) (a n : Nat) : (d.readJob a n).index = d.index := by
  unfold Dev.index Dev.get
  rw [Dev.readJob_latticeReg d (by unfold LatticeReg; decide)]

end Sys2Proof.Machine
end

section
/-! PROOF. The records of a phase list and the floods at their effect beats (01 R37, 13 R361, R362, R370 to R373). -/

namespace Sys2Proof.Machine

/-! ### Changes of one port -/

@[simp] theorem Dev.port_onPort_self (d : Dev) (p : Nat) (f : PortSt → PortSt) : (d.onPort p f).port p = f (d.port p) :=
  SMap.get_set_self ..

theorem Dev.port_onFence (d : Dev) (f p : Nat) (g : FenceSt → FenceSt) : (d.onFence f g).port p = d.port p := rfl

/-- Two changes that agree on the port as it is are one. -/
theorem Dev.onPort_congr {d : Dev} {p : Nat} {f g : PortSt → PortSt} (h : f (d.port p) = g (d.port p)) :
    d.onPort p f = d.onPort p g := by
  unfold Dev.onPort; rw [h]

/-! ### A port takes the next record of its list (13 R361, R362) -/

/-- A free port of a running device, about to read the record `w` at job address `a`. -/
structure Dev.AtPhase (d : Dev) (p a : Nat) (w : List W64) : Prop where
  port : p < 12
  runs : d.runs = true
  list : (d.port p).list ≠ 0
  reader : (d.port p).reader = .running
  free : (d.port p).phase = none
  place : a = (d.port p).list + 64 * (d.port p).pos
  record : d.fetch a 8 = .words w

/-- A phase begins at a port; a degraded one asks for its stretch (13 R373). -/
def Dev.beginPhase (d : Dev) (p : Nat) (w : List W64) : Dev :=
  let d := d.onPort p (fun x => { x with pos := x.pos + 1, reader := .running, phase := some { words := w } })
  if d.degraded p then d.stretch w else d

theorem Dev.beginPhase_phase (d : Dev) (p : Nat) (w : List W64) : ((d.beginPhase p w).port p).phase = some { words := w } := by
  unfold Dev.beginPhase Dev.stretch
  dsimp only
  split <;> simp [Dev.port_onFence]

/-- The phase of a port stands for its segments (05 R165; log entry 82). -/
def Dev.routePhase (d : Dev) (p : Nat) (w v : List W64) : Dev :=
  d.onPort p (fun x => { x with phase := some { words := w, segs := some { desc := v, place := phDesc w } } })

/-- The segments join the phase that has just begun. -/
theorem Dev.routePhase_beginPhase (d : Dev) (p : Nat) (w v : List W64) :
    (d.beginPhase p w).onPort p (fun x => { x with
      phase := x.phase.map (fun ph => { ph with segs := some { desc := v, place := phDesc w } }) }) =
    (d.beginPhase p w).routePhase p w v :=
  Dev.onPort_congr (by rw [Dev.beginPhase_phase]; rfl)

/-- A phase whose descriptor `v` has been read: refused, standing for its segments, or sent. -/
def Dev.takePhase (d : Dev) (p a : Nat) (w v : List W64) : Dev :=
  if phaseDescOk (d.get (Reg.PORT_W0_PARTNER p)) (phKind w) v = false then d.refusePhase p (phId w) a
  else if (Config.routedPhase d.index w).isSome = true ∧ phKind w = 1 then
    ((d.readJob (phDesc w) 64).beginPhase p w).routePhase p w v
  else ((d.readJob (phDesc w) 64).beginPhase p w).onChan 152 (2 * p) (fun c => { c with queue := c.queue ++ [(v, some (phDesc w))] })

/-- What a port does with the record `w` that it has read at `a`. -/
def Dev.phaseRead (d : Dev) (p a : Nat) (w : List W64) : Dev :=
  if fld (wd w 0) 63 56 = 0 then d.onPort p (fun x => { x with reader := .idle })
  else if fld (wd w 0) 63 56 ≠ 0x90 ∨ phaseOk w = false then d.refusePhase p (phId w) a
  else if phKind w = 4 then d.beginPhase p w
  else match d.fetch (phDesc w) 8 with
    | .translation => d.phaseStop p (phDesc w)
    | .uncorrectable x => (d.onPort p (fun s => { s with reader := .faulted })).readFault 152 (phId w) x
    | .words v => d.takePhase p a w v

/-- The row, said once: the record is read, and what it is decides. -/
theorem Dev.AtPhase.phaseRecord_eq {d : Dev} {p a : Nat} {w : List W64} (h : d.AtPhase p a w) :
    d.phaseRecord p = (d.readJob a 64).phaseRead p a w := by
  obtain ⟨port, runs, list, reader, free, rfl, record⟩ := h
  simp only [Dev.phaseRecord, record, port, runs, list, reader, free, Dev.phaseRead, Dev.takePhase,
    ← Dev.routePhase_beginPhase, Bool.or_eq_true, Bool.and_eq_true, Bool.not_eq_true', decide_eq_true_eq,
    decide_true, Bool.true_and, Bool.true_or, Option.isNone_none, ne_eq, not_false_iff, reduceCtorEq, if_false] <;> rfl

section
variable {d : Dev} {p a : Nat} {w : List W64}

theorem Dev.phaseRead_end (ht : fld (wd w 0) 63 56 = 0) :
    d.phaseRead p a w = d.onPort p (fun x => { x with reader := .idle }) := if_pos ht

theorem Dev.phaseRead_refused (h0 : fld (wd w 0) 63 56 ≠ 0) (bad : fld (wd w 0) 63 56 ≠ 0x90 ∨ phaseOk w = false) :
    d.phaseRead p a w = d.refusePhase p (phId w) a := (if_neg h0).trans (if_pos bad)

variable (ht : fld (wd w 0) 63 56 = 0x90) (ok : phaseOk w = true)
include ht ok

theorem Dev.phaseRead_undescribed (hk : phKind w = 4) : d.phaseRead p a w = d.beginPhase p w := by
  rw [Dev.phaseRead, if_neg (by simp [ht]), if_neg (by simp [ht, ok]), if_pos hk]

theorem Dev.phaseRead_described {v : List W64} (hk : phKind w ≠ 4) (hv : d.fetch (phDesc w) 8 = .words v) :
    d.phaseRead p a w = d.takePhase p a w v := by
  rw [Dev.phaseRead, if_neg (by simp [ht]), if_neg (by simp [ht, ok]), if_neg hk, hv]

end

/-- A phase whose descriptor is in order begins with it. -/
theorem Dev.takePhase_begins {d : Dev} {p a : Nat} {w v : List W64}
    (hd : phaseDescOk (d.get (Reg.PORT_W0_PARTNER p)) (phKind w) v = true) : d.takePhase p a w v =
      if (Config.routedPhase d.index w).isSome = true ∧ phKind w = 1 then
        ((d.readJob (phDesc w) 64).beginPhase p w).routePhase p w v
      else ((d.readJob (phDesc w) 64).beginPhase p w).onChan 152 (2 * p)
        (fun c => { c with queue := c.queue ++ [(v, some (phDesc w))] }) :=
  if_neg (by simp [hd])

/-! ### Floods that are due (01 R37, 13 R370 to R372) -/

@[simp] theorem Dev.takeFloods_floods (d : Dev) (k : Nat) : (d.takeFloods k).lat.floods =
    d.lat.floods.map (fun f => if f.kind = k && decide (d.effectBeat f ≤ d.beat) then { f with done := true } else f) := by
  simp [Dev.takeFloods]

theorem Dev.takeFloods_get (d : Dev) (k : Nat) {f : Fld} (hf : Fld.apart Reg.LAT_COUNT_FLOODS f) :
    (d.takeFloods k).get f = d.get f := Dev.get_addTo_ne _ (by decide) _ hf

@[simp] theorem Dev.takeFloods_beat (d : Dev) (k : Nat) : (d.takeFloods k).beat = d.beat :=
  d.takeFloods_get k (.inl (by decide))

@[simp] theorem Dev.takeFloods_effectBeat (d : Dev) (k : Nat) (f : Flood) : (d.takeFloods k).effectBeat f = d.effectBeat f := by
  unfold Dev.effectBeat
  rw [d.takeFloods_get k (.inl (by decide))]

/-- Each flood takes effect once: none that was acted on is due again. -/
theorem Dev.dueFloods_takeFloods (d : Dev) (k : Nat) : (d.takeFloods k).dueFloods k = [] := by
  refine List.filter_eq_nil_iff.2 fun g hg => ?_
  rw [Dev.takeFloods_floods, List.mem_map] at hg
  obtain ⟨f, -, rfl⟩ := hg
  rw [Dev.takeFloods_effectBeat, Dev.takeFloods_beat]
  split
  · simp
  · rename_i hf
    simp only [Bool.and_eq_true, decide_eq_true_eq] at hf ⊢
    exact fun h => hf ⟨h.1.1, h.2⟩

section
variable {d : Dev} (hz : d.frozen = false)
include hz

theorem Dev.degradeEffect_due (hf : d.dueFloods 0 ≠ []) (hb : d.dueBefore 3 = false) :
    d.degradeEffect = (d.dueFloods 0).foldl
      (fun d f => (d.voidNear f.event).slipRequest (d.get Reg.LAT_DOMAIN_RETRAIN_SLIP) true) (d.takeFloods 0) := by
  simp [Dev.degradeEffect, hf, hz, hb]

theorem Dev.abortFlood_due {f : Flood} {t : List Flood} (hf : d.dueFloods 1 = f :: t) (hb : d.dueBefore 2 = false) :
    d.abortFlood = (d.takeFloods 1).abortEffect (t.foldl (fun e g => min e (d.effectBeat g)) (d.effectBeat f)) := by
  simp [Dev.abortFlood, hf, hz, hb]

theorem Dev.preemptFlood_due (hf : d.dueFloods 2 ≠ []) (hb : d.dueBefore 4 = false) :
    d.preemptFlood = (d.takeFloods 2).preemptEffect := by
  simp [Dev.preemptFlood, hf, hz, hb]

end

/-- A change of the device is the row's next state. -/
theorem State.upd_eq {s : State} {f : Dev → Dev} {e : Dev} (h : f s.dev = e) : s.upd f = .next (s.withDev e) := by
  rw [State.upd, h]

/-- Settles O52: each row is its device's change, said above. -/
theorem phasesAndFloods : Obligations.PhasesAndFloods := by
  refine ⟨?_, fun s hz => ⟨?_, ?_, ?_, ?_⟩⟩
  · intro s p w hp hr hl hrd hf a hw d₀
    have reads {e : Dev} (h : d₀.phaseRead p a w = e) : exec (.phaseRecord p) s = .next (s.withDev e) :=
      State.upd_eq (f := (Dev.phaseRecord · p)) ((Dev.AtPhase.phaseRecord_eq ⟨hp, hr, hl, hrd, hf, rfl, hw⟩).trans h)
    have index : d₀.index = s.dev.index := Dev.readJob_index ..
    refine ⟨fun ht => reads (Dev.phaseRead_end ht), fun ht bad => reads (Dev.phaseRead_refused (by simp [ht]) (.inr bad)),
      fun ht ok => ⟨fun hk => ?_, fun v hk hv hd => ?_, fun v hk hv hd => ?_⟩,
      fun ht => reads (Dev.phaseRead_refused (fun e => ht (by simp [e])) (.inl fun e => ht (by simp [e])))⟩
    · rw [if_pos hk]
      exact reads (Dev.phaseRead_undescribed ht ok hk)
    · rw [if_neg hk, ← index]
      exact reads ((Dev.phaseRead_described ht ok hk hv).trans (Dev.takePhase_begins hd))
    · exact reads ((Dev.phaseRead_described ht ok hk hv).trans (if_pos hd))
  · exact fun hf hb => State.upd_eq (Dev.degradeEffect_due hz hf hb)
  · exact fun f t hf hb => State.upd_eq (Dev.abortFlood_due hz hf hb)
  · exact fun hf hb => State.upd_eq (Dev.preemptFlood_due hz hf hb)
  · exact fun k _ => Dev.dueFloods_takeFloods s.dev k

end Sys2Proof.Machine
end

section
/-! PROOF. Minimum, maximum and comparisons of FP32 (02 R58). -/

namespace Sys2Proof.Machine

/-! ### The order of values (02 R58) -/

theorem Val.lt_of_isNan {x y : Val} (h : x.isNan = true ∨ y.isNan = true) : x.lt y = false := by
  cases x <;> cases y <;> simp [Val.isNan, Val.lt] at h ⊢

theorem Val.eqv_of_isNan {x y : Val} (h : x.isNan = true ∨ y.isNan = true) : x.eqv y = false := by
  rcases h with h | h <;> simp [Val.eqv, h]

theorem Val.lt_irrefl (x : Val) : x.lt x = false := by
  cases x <;> simp [Val.lt]

theorem Val.lt_asymm {x y : Val} (h : x.lt y = true) : y.lt x = false := by
  match x, y with
  | .nan, _ => cases h
  | .inf _, .nan => cases h
  | .fin .., .nan => cases h
  | .inf s, .inf t => cases s <;> cases t <;> trivial
  | .inf s, .fin .. => simpa [Val.lt] using h
  | .fin .., .inf t => simpa [Val.lt] using h
  | .fin s m e, .fin t n f =>
    simp only [Val.lt, decide_eq_true_eq, decide_eq_false_iff_not] at h ⊢
    rw [Int.min_comm f e]
    exact Int.not_lt.2 (Int.le_of_lt h)

/-- A choice between two values by their order, and by a sign where neither is below: the first is taken only where the
second is not below it, the second only where the first is not. -/
theorem Val.lt_choice (x y : Val) (a b : Nat) (neg : Bool) :
    let c := if x.lt y then a else if y.lt x then b else if neg then a else b
    c = a ∧ y.lt x = false ∨ c = b ∧ x.lt y = false := by
  cases hxy : x.lt y
  case true => exact .inl ⟨rfl, Val.lt_asymm hxy⟩
  case false =>
    cases hyx : y.lt x
    case true => exact .inr ⟨rfl, rfl⟩
    case false => cases neg <;> simp

/-! ### Minimum and maximum (02 R58) -/

section
variable {a b : Nat}

theorem fmin_of_isNan (h : (dec32 a).isNan = true ∨ (dec32 b).isNan = true) : fmin a b = nan32 :=
  if_pos (by simpa using h)

theorem fmax_of_isNan (h : (dec32 a).isNan = true ∨ (dec32 b).isNan = true) : fmax a b = nan32 :=
  if_pos (by simpa using h)

variable (ha : (dec32 a).isNan = false) (hb : (dec32 b).isNan = false)
include ha hb

/-- The minimum is an operand that the other one does not lie below. -/
theorem fmin_cases : fmin a b = a ∧ (dec32 b).lt (dec32 a) = false ∨ fmin a b = b ∧ (dec32 a).lt (dec32 b) = false := by
  simpa only [fmin, ha, hb, Bool.or_self, Bool.false_eq_true, ↓reduceIte] using Val.lt_choice ..

/-- The maximum is an operand that does not lie below the other one. -/
theorem fmax_cases : fmax a b = b ∧ (dec32 b).lt (dec32 a) = false ∨ fmax a b = a ∧ (dec32 a).lt (dec32 b) = false := by
  simpa only [fmax, ha, hb, Bool.or_self, Bool.false_eq_true, ↓reduceIte] using Val.lt_choice ..

/-- Neither operand lies below the minimum. -/
theorem fmin_least : (fmin a b = a ∨ fmin a b = b) ∧
    (dec32 a).lt (dec32 (fmin a b)) = false ∧ (dec32 b).lt (dec32 (fmin a b)) = false := by
  rcases fmin_cases ha hb with ⟨e, h⟩ | ⟨e, h⟩ <;> simp [e, h, Val.lt_irrefl]

/-- The maximum lies below neither operand. -/
theorem fmax_greatest : (fmax a b = a ∨ fmax a b = b) ∧
    (dec32 (fmax a b)).lt (dec32 a) = false ∧ (dec32 (fmax a b)).lt (dec32 b) = false := by
  rcases fmax_cases ha hb with ⟨e, h⟩ | ⟨e, h⟩ <;> simp [e, h, Val.lt_irrefl]

end

/-- The vector engine's comparisons answer 0 when an operand is NaN. -/
theorem vecOp_compare_isNan {op a b : Nat} (hop : op ∈ [0x20, 0x21, 0x22])
    (h : (dec32 a).isNan = true ∨ (dec32 b).isNan = true) (mode : Rnd) (x r e : Nat) : vecOp mode op x r a b e = (0, {}) := by
  simp only [List.mem_cons, List.not_mem_nil, or_false] at hop
  rcases hop with rfl | rfl | rfl <;> simp [vecOp, Val.lt_of_isNan h, Val.eqv_of_isNan h]

/-- Settles O58: each answer is one of the operands, and the order of values is irreflexive and asymmetric. -/
theorem minimumMaximumComparisons : Obligations.MinimumMaximumComparisons := by
  refine ⟨fun a b h => ⟨fmin_of_isNan h, fmax_of_isNan h, Val.eqv_of_isNan h,
    fun op hop mode x r e => vecOp_compare_isNan hop h mode x r e⟩, by decide, by decide, by decide, by decide,
    fun a b ha hb => ?_⟩
  obtain ⟨least, la, lb⟩ := fmin_least ha hb
  exact ⟨least, la, lb, fmax_greatest ha hb⟩

end Sys2Proof.Machine
end

section
/-! PROOF. Integer lanes add exact products and saturate to INT32, and saturations are counted (02 R46, R56, R69, R71). -/

namespace Sys2Proof.Machine

/-! ### Integer operands and their products (02 R46, R56) -/

/-- An integer format has no floating layout, so its codes stand for their integers. -/
theorem decodeElem_int {f : Nat} (h : fmtIsInt f = true) (c : Nat) : decodeElem f false c = Val.ofInt false (decInt f c) 0 := by
  simp only [fmtIsInt, Bool.and_eq_true, decide_eq_true_eq] at h
  obtain ⟨lo, hi⟩ := h
  have int : f = 9 ∨ f = 10 ∨ f = 11 ∨ f = 12 ∨ f = 13 ∨ f = 14 := by omega
  rcases int with rfl | rfl | rfl | rfl | rfl | rfl <;> rfl

/-- An integer is a sign and a magnitude, zero with a plus. -/
theorem Val.ofInt_zero_exp (i : Int) : Val.ofInt false i 0 = .fin (decide (i < 0)) i.natAbs 0 := by
  unfold Val.ofInt
  split
  · next h => subst h; rfl
  · rfl

theorem Val.scaled_ofInt (i : Int) : (Val.ofInt false i 0).scaled 0 = i := by
  rw [Val.ofInt_zero_exp]
  simp only [Val.scaled, Int.sub_self, Int.toNat_zero, Int.pow_zero, Int.mul_one, decide_eq_true_eq]
  split <;> omega

/-- Multiplying signs and magnitudes multiplies the integers they stand for. -/
theorem Val.scaled_mul_fin (s t : Bool) (m n : Nat) :
    ((Val.fin s m 0).mul (.fin t n 0)).scaled 0 = (Val.fin s m 0).scaled 0 * (Val.fin t n 0).scaled 0 := by
  simp only [Val.mul, Val.scaled, Int.add_zero, Int.sub_self, Int.toNat_zero, Int.pow_zero, Int.mul_one, Int.natCast_mul]
  cases s <;> cases t
  · rfl
  · exact (Int.mul_neg ..).symm
  · exact (Int.neg_mul ..).symm
  · exact (Int.neg_mul_neg ..).symm

/-- The product of two integers is exact. -/
theorem Val.scaled_mul_ofInt (i j : Int) : ((Val.ofInt false i 0).mul (Val.ofInt false j 0)).scaled 0 = i * j := by
  rw [Val.ofInt_zero_exp, Val.ofInt_zero_exp, Val.scaled_mul_fin, ← Val.ofInt_zero_exp, ← Val.ofInt_zero_exp,
    Val.scaled_ofInt, Val.scaled_ofInt]

/-! ### INT32 saturation (02 R56, R69) -/

theorem signed_unsigned32 {i : Int} (hlo : -2147483648 ≤ i) (hhi : i ≤ 2147483647) : signed 32 (unsigned 32 i) = i := by
  simp only [signed, unsigned]
  omega

theorem unsigned32_lt (i : Int) : unsigned 32 i < 2 ^ 32 := by
  unfold unsigned; omega

/-- INT32 takes the nearest value of its range, and counts a saturation where that is another one. -/
theorem encInt_int32 (t : Int) :
    signed 32 (encInt fmtINT32 t).1 = max (-2147483648) (min 2147483647 t) ∧ (encInt fmtINT32 t).1 < 2 ^ 32 ∧
    (encInt fmtINT32 t).2 = if t < -2147483648 ∨ 2147483647 < t then { sats := 1 } else {} := by
  have enc : encInt fmtINT32 t =
      (unsigned 32 (max (-2147483648) (min 2147483647 t)), if t < -2147483648 ∨ 2147483647 < t then { sats := 1 } else {}) := by
    simp only [encInt, intRange, fmtBits]
    split
    · next h => rw [if_pos (.inl h)]; congr 2; omega
    · next lo =>
      split
      · next h => rw [if_pos (.inr h)]; congr 2; omega
      · next hi => rw [if_neg (not_or.2 ⟨lo, hi⟩)]; congr 2; omega
  rw [enc]
  exact ⟨signed_unsigned32 (by omega) (by omega), unsigned32_lt _, rfl⟩

/-! ### An integer lane's cycle and its count (02 R56, R71) -/

/-- A cycle of an integer lane: the products' integers are added to the accumulator, and the sum saturates. -/
theorem accCycle_int {f g : Nat} (hf : fmtIsInt f = true) (hg : fmtIsInt g = true) (acc : Nat) (l : List (Nat × Nat)) :
    accCycle true acc (l.map (fun p => product (decodeElem f false p.1) (decodeElem g false p.2))) =
      encInt fmtINT32 (l.foldl (fun a p => a + decInt f p.1 * decInt g p.2) (signed 32 acc)) := by
  simp only [accCycle, product, ↓reduceIte, List.foldl_map, decodeElem_int hf, decodeElem_int hg, Val.scaled_mul_ofInt]

theorem Dev.count_none (d : Dev) (u : Nat) : d.count u {} = d := rfl

theorem Dev.arithOf_count_sat (d : Dev) (u : Nat) :
    (d.count u { sats := 1 }).arithOf u 2 = min 0xFFFFFFFF (d.arithOf u 2 + 1) := SMap.get_set_self ..

/-- Settles O59: the products are exact, and their sum is encoded once, with its count. -/
theorem integerLanesSaturate : Obligations.IntegerLanesSaturate := by
  intro d b f g acc l hf hg
  dsimp only
  rw [accCycle_int hf hg]
  obtain ⟨value, range, counts⟩ := encInt_int32 (l.foldl (fun a p => a + decInt f p.1 * decInt g p.2) (signed 32 acc))
  refine ⟨value, range, ?_⟩
  rw [counts]
  split
  · exact d.arithOf_count_sat b
  · rw [d.count_none]

end Sys2Proof.Machine
end

section
/-! PROOF. Payload flits take effect: what a port that takes a flit does with it, by its KIND (13 R355, R375 to R378, 02 R59). -/

namespace Sys2Proof.Machine

variable {d : Dev} {p : Nat} {f : Flit}

/-! ### Numbers of a flit that is taken (13 R355) -/

/-- ACK_SEQ frees what the port holds for its partner; what it awaits from it stays. -/
theorem Dev.takeAck_awaits (d : Dev) (p ack : Nat) : ((d.takeAck p ack).port p).recvNext = (d.port p).recvNext ∧
    ((d.takeAck p ack).port p).early = (d.port p).early ∧ ((d.takeAck p ack).port p).gaps = (d.port p).gaps := by
  unfold Dev.takeAck
  dsimp only
  split
  · simp only [Dev.port_onPort_self, and_self]
  · exact ⟨rfl, rfl, rfl⟩

@[simp] theorem Dev.takeAck_beat (d : Dev) (p ack : Nat) : (d.takeAck p ack).beat = d.beat := by
  unfold Dev.takeAck
  dsimp only
  split
  · exact Dev.onPort_get ..
  · rfl

/-- A number not taken before is new, and counts in the beat in which it was found missing, if it was. -/
theorem Dev.takeSeq_fresh {seq : Nat} (h : Machine.seqAhead (d.port p).recvNext seq = 0 ∨
    Machine.seqAhead (d.port p).recvNext seq < 512 ∧ (d.port p).early.contains seq = false) :
    (d.takeSeq p seq).2 = some ((((d.port p).gaps.find? (fun g => g.1 = seq)).map Prod.snd).getD d.beat) := by
  unfold Dev.takeSeq
  dsimp only
  split
  · rfl
  · next h0 =>
    obtain ⟨lt, new⟩ := h.resolve_left h0
    rw [if_pos ⟨lt, by rw [new]; decide⟩]

/-- A port that takes a flit gives it its effect in the beat it counts in, then makes the additions that are due. -/
theorem Dev.TakesFlit.recvFlit_eq (h : d.TakesFlit p f) (effect : Dev → Nat → Dev) :
    d.recvFlit p f effect = (effect (d.tookFlit p f) (d.flitBeat p f)).drainAdds := by
  obtain ⟨hears, good, fresh⟩ := h
  obtain ⟨next, early, gaps⟩ := d.takeAck_awaits p (flAck f)
  have new : ((d.takeAck p (flAck f)).takeSeq p (flSeq f)).2 = some (d.flitBeat p f) := by
    rw [Dev.takeSeq_fresh (by rwa [next, early]), gaps, Dev.takeAck_beat, Dev.flitBeat]
  have taken : (d.takeAck p (flAck f)).takeSeq p (flSeq f) = (d.tookFlit p f, some (d.flitBeat p f)) := Prod.ext rfl new
  simp only [Dev.recvFlit, hears, good, Bool.not_true, Bool.or_self, Bool.false_eq_true, ↓reduceIte, taken]

/-- A payload flit that a port takes lands by its KIND. -/
theorem Dev.TakesFlit.recvKind_eq (h : d.TakesFlit p f) {kind : Nat} (hk : flKind f = kind) :
    d.recvKind kind p f = ((d.tookFlit p f).landPayload p f (d.flitBeat p f)).drainAdds := by
  rw [Dev.recvKind, if_pos hk, h.recvFlit_eq]

theorem Dev.TakesFlit.recvIdle_eq (h : d.TakesFlit p f) (hk : flKind f = 0) (hp : d.isPause p f = false) :
    d.recvIdle p f = (d.tookFlit p f).drainAdds := by
  rw [Dev.recvIdle, if_pos hk, if_neg (by simp [hp]), h.recvFlit_eq]

/-- A pause flit takes no number: its ACK_SEQ alone is taken (13 R356). -/
theorem Dev.TakesFlit.recvIdle_pause (h : d.TakesFlit p f) (hk : flKind f = 0) (hp : d.isPause p f = true) :
    d.recvIdle p f = d.takeAck p (flAck f) := by
  rw [Dev.recvIdle, if_pos hk, if_pos hp, if_neg (by simp [h.hears, h.good])]

/-! ### The payload by KIND (13 R375 to R378) -/

theorem Dev.landPayload_refused {c : Nat} (hc : d.flitCause p f = some c) (beat : Nat) :
    d.landPayload p f beat = d.refuseFlit p f c := by
  simp only [Dev.landPayload, hc]

section
variable (hc : d.flitCause p f = none) (beat : Nat)
include hc

theorem Dev.landPayload_write (hk : flKind f = 1 ∨ flKind f = 4) :
    d.landPayload p f beat = (d.inc (Reg.WIN_W2_ACCEPTED (flWindow f))).landFlit f (f.payload.take (flBytes f)) := by
  rcases hk with hk | hk <;> simp [Dev.landPayload, hc, hk]

theorem Dev.landPayload_reduceAdd (hk : flKind f = 2) : d.landPayload p f beat =
    let e := d.inc (Reg.WIN_W2_ACCEPTED (flWindow f))
    { e with lat := { e.lat with adds := e.lat.adds ++ [((beat, flPos f, p), f)] } } := by
  simp [Dev.landPayload, hc, hk]

theorem Dev.landPayload_readReq (hk : flKind f = 3) : d.landPayload p f beat =
    let e := d.inc (Reg.WIN_W2_ACCEPTED (flWindow f))
    e.onPort p (fun x => { x with reads := x.reads ++
      [⟨flSrc f, e.get (Reg.WIN_W0_BASE (flWindow f)) + 32 * flOffset f, (readReqOf f).2.1, (readReqOf f).2.2, (readReqOf f).1⟩] }) := by
  simp [Dev.landPayload, hc, hk]

theorem Dev.landPayload_stream (hk : flKind f = 5) : d.landPayload p f beat = d.landStream p f := by
  simp [Dev.landPayload, hc, hk]

end

/-! ### Landings (12 R329, 13 R376) -/

section
variable {bytes : List Byte} {l : List (Xl × Nat)}

theorem Dev.landFlit_lands (hl : d.jobRuns (d.get (Reg.WIN_W0_BASE (flWindow f)) + 32 * flOffset f) bytes.length = some l)
    (open_ : d.runsBarred l = false) (clean : d.runsBad l true = none) : d.landFlit f bytes = (d.metRuns l).wrRuns l bytes := by
  simp [Dev.landFlit, hl, open_, clean]

theorem Dev.landFlit_barred (hl : d.jobRuns (d.get (Reg.WIN_W0_BASE (flWindow f)) + 32 * flOffset f) bytes.length = some l)
    (barred : d.runsBarred l = true) :
    d.landFlit f bytes = d.schedFault 152 0 (d.get (Reg.WIN_W0_BASE (flWindow f)) + 32 * flOffset f) := by
  simp [Dev.landFlit, hl, barred]

end

/-- The additions of a REDUCE_ADD flit: its elements are added to those of its place, and the sums are written back. -/
theorem Dev.addFlit_adds {l : List (Xl × Nat)}
    (hl : d.jobRuns (d.get (Reg.WIN_W0_BASE (flWindow f)) + 32 * flOffset f) (flBytes f) = some l)
    (open_ : d.runsBarred l = false) (clean : d.runsBad l false = none) :
    d.addFlit f =
      let bf := bit f.word0 59
      let k := if bf then 2 else 4
      let d₁ := d.readPhys (l.map (fun r => (r.1.phys, r.2)))
      d₁.wrRuns l ((List.zipWith (addElem bf)
        (unpackElems (8 * k) (flBytes f / k) (l.flatMap (fun r => d₁.bytes r.1.phys r.2)))
        (unpackElems (8 * k) (flBytes f / k) (f.payload.take (flBytes f)))).flatMap (toLe k)) := by
  simp only [Dev.addFlit, hl, open_, clean, Bool.false_eq_true, ↓reduceIte]

/-- Settles O49: each row lands what its port takes, by the KIND and the arrival checks. -/
theorem flitsTakeEffect : Obligations.FlitsTakeEffect := by
  refine ⟨?_, fun d f l hl open_ clean => Dev.addFlit_adds hl open_ clean⟩
  intro s p f takes d
  refine ⟨?_, ?_, ?_, ?_⟩
  · intro c kind i row hk hc
    have refused : s.dev.recvKind kind p f = (d.refuseFlit p f c).drainAdds := by
      rw [takes.recvKind_eq hk, Dev.landPayload_refused hc]
    rcases row with ⟨rfl, rfl⟩ | ⟨rfl, rfl⟩ | ⟨rfl, rfl⟩ | ⟨rfl, rfl⟩ | ⟨rfl, rfl⟩ <;> exact State.upd_eq refused
  · intro hc e a
    have lands {kind : Nat} (hk : flKind f = kind) {t : Dev} (ht : d.landPayload p f (s.dev.flitBeat p f) = t) :
        s.upd (fun d => d.recvKind kind p f) = .next (s.withDev t.drainAdds) :=
      State.upd_eq ((takes.recvKind_eq hk).trans (congrArg Dev.drainAdds ht))
    refine ⟨fun l i row hl => ?_, fun hk => lands hk (Dev.landPayload_reduceAdd hc _ hk),
      fun hk => lands hk (Dev.landPayload_readReq hc _ hk), fun hk => lands hk (Dev.landPayload_stream hc _ hk)⟩
    have writes {t : Dev} (ht : e.landFlit f (f.payload.take (flBytes f)) = t) : exec i s = .next (s.withDev t.drainAdds) := by
      rcases row with ⟨rfl, hk⟩ | ⟨rfl, hk⟩
      · exact lands hk ((Dev.landPayload_write hc _ (.inl hk)).trans ht)
      · exact lands hk ((Dev.landPayload_write hc _ (.inr hk)).trans ht)
    exact ⟨fun open_ clean => writes (Dev.landFlit_lands hl open_ clean), fun barred => writes (Dev.landFlit_barred hl barred)⟩
  · exact fun hk hp => State.upd_eq (f := (Dev.recvIdle · p f)) (takes.recvIdle_eq hk hp)
  · exact fun hk hp => State.upd_eq (f := (Dev.recvIdle · p f)) (takes.recvIdle_pause hk hp)

end Sys2Proof.Machine
end

section
/-! SUPPORT. A fault leaves every bench as it was: what it ends are operations, channels, floods and the job (17 R461, R474). -/

namespace Sys2Proof.Machine

/-- The benches that every step of a fold keeps, the fold keeps. -/
theorem Dev.bench_foldl {β : Type} {f : Dev → β → Dev} (hf : ∀ d x, (f d x).bench = d.bench) (l : List β) (d : Dev) :
    (l.foldl f d).bench = d.bench :=
  List.foldlRecOn (motive := fun e => e.bench = d.bench) l f rfl fun e h x _ => (hf e x).trans h

/-- The benches are the same after either branch. -/
theorem Dev.bench_ite {c : Prop} [Decidable c] {d e : Dev} {l : SMap Bench} (hd : d.bench = l) (he : e.bench = l) :
    (if c then d else e).bench = l := by
  split
  · exact hd
  · exact he

variable (d : Dev)

/-! ### Changes of one bench -/

@[simp] theorem Dev.bn_onBn_self (b : Nat) (f : Bench → Bench) : (d.onBn b f).bn b = f (d.bn b) := SMap.get_set_self ..

@[simp] theorem Dev.bn_onLane_self (b : Nat) (f : LaneSt → LaneSt) :
    (d.onLane b f).bn b = { d.bn b with lane := f (d.bn b).lane } := Dev.bn_onBn_self ..

theorem Dev.bn_congr {d e : Dev} (h : d.bench = e.bench) (b : Nat) : d.bn b = e.bn b := by rw [Dev.bn, h, Dev.bn]

/-! ### The end of operations and of a job -/

@[simp] theorem Dev.setRepair_bench (f : Repair → Repair) : (d.setRepair f).bench = d.bench := by
  unfold Dev.setRepair
  obtain ⟨r, i⟩ := d.repair
  rfl

@[simp] theorem Dev.postAll_bench (e : Option Nat) (prio : Nat) (w : List W64) : (d.postAll e prio w).bench = d.bench := by
  unfold Dev.postAll
  exact Dev.bench_foldl (fun d p => by exact Dev.bench_ite (Dev.onPort_bench ..) rfl) _ d

@[simp] theorem Dev.noteFlood_bench (o : Option Nat) (origin kind : Nat) (key : W64) (event target : Nat) :
    (d.noteFlood o origin kind key event target).bench = d.bench := by
  unfold Dev.noteFlood
  split
  · rfl
  · exact Dev.postAll_bench ..

@[simp] theorem Dev.floodAbort_bench : d.floodAbort.bench = d.bench := by
  unfold Dev.floodAbort
  dsimp only
  rw [Dev.noteFlood_bench, Dev.set_bench, Dev.inc_bench]

@[simp] theorem Dev.opEnd_bench (slot state err : Nat) : (d.opEnd slot state err).bench = d.bench := by
  unfold Dev.opEnd
  exact Dev.bench_ite (Dev.setStatus_bench ..) (Dev.setStatus_bench ..)

@[simp] theorem Dev.endOps_bench (p : LongOp → Bool) (state err : Nat) : (d.endOps p state err).bench = d.bench := by
  unfold Dev.endOps
  exact Dev.bench_foldl (fun d o => by exact d.opEnd_bench o.slot state err) _ d

@[simp] theorem Dev.endJob_bench (rs re ss se : Nat) : (d.endJob rs re ss se).bench = d.bench := by
  unfold Dev.endJob
  dsimp only
  rw [Dev.setJs_bench, Dev.set_bench]
  calc
    _ = (((d.endOps _ rs re).endOps _ ss se).endOps _ stAborted 0).bench := rfl
    _ = d.bench := by rw [Dev.endOps_bench, Dev.endOps_bench, Dev.endOps_bench]

/-! ### A fault and its disposition -/

@[simp] theorem Dev.failPreempt_bench (f : FaultRec) : (d.failPreempt f).bench = d.bench := by
  unfold Dev.failPreempt
  dsimp only
  rw [Dev.endOps_bench]
  split
  · exact Dev.wrWord_bench ..
  · rfl

@[simp] theorem Dev.enterSafe_bench (cause : Nat) : (d.enterSafe cause).bench = d.bench := by
  have begins (mask : Nat) (f : Repair → Repair) (l : List W64) :
      ((((d.set Reg.FAULT_STATUS_SAFE 1).set Reg.FAULT_STATUS_SAFE_CAUSE mask).setRepair f).logEv 1 0x002 l).bench = d.bench := by
    rw [Dev.logEv_bench, Dev.setRepair_bench, Dev.set_bench, Dev.set_bench]
  unfold Dev.enterSafe
  refine Dev.bench_ite (begins _ _ _) (Dev.bench_ite ?_ ?_)
  · rw [Dev.endJob_bench, Dev.floodAbort_bench]; exact begins _ _ _
  · rw [Dev.floodAbort_bench]; exact begins _ _ _

/-- A count leaves the benches, whether it is made or not. -/
theorem Dev.bench_counted {c : Prop} [Decidable c] {d e : Dev} {f : Fld} (h : e.bench = d.bench) :
    (if c then e.inc f else e).bench = d.bench := Dev.bench_ite ((e.inc_bench f).trans h) h

@[simp] theorem Dev.recordFault_bench (f : FaultRec) (disp : Nat) (persistent : Bool) :
    (d.recordFault f disp persistent).bench = d.bench := by
  unfold Dev.recordFault
  refine Dev.bench_ite (Dev.bench_ite ?_ ?_) (Dev.bench_counted rfl)
  · exact (Dev.inc_bench ..).trans (Dev.bench_counted rfl)
  · exact Dev.bench_counted (Dev.bench_counted rfl)

@[simp] theorem Dev.actOn_bench (f : FaultRec) (disp : Nat) : (d.actOn f disp).bench = d.bench := by
  unfold Dev.actOn
  refine Dev.bench_ite (Dev.bench_ite d.floodAbort_bench (Dev.bench_ite rfl rfl))
    (Dev.bench_ite (Dev.bench_ite ?_ rfl) (Dev.bench_ite rfl (Dev.bench_ite ?_ rfl)))
  · rw [Dev.endJob_bench, Dev.floodAbort_bench, Dev.failPreempt_bench]
  · rw [Dev.enterSafe_bench, Dev.failPreempt_bench]
    exact Dev.bench_ite (Dev.setRepair_bench ..) rfl

@[simp] theorem Dev.fault_bench (f : FaultRec) (disp : Nat) : (d.fault f disp).bench = d.bench := by
  unfold Dev.fault
  dsimp only
  rw [Dev.actOn_bench]
  exact Dev.bench_counted (Dev.bench_counted (d.recordFault_bench ..))

@[simp] theorem Dev.schedFault_bench (unit recordId addr : Nat) : (d.schedFault unit recordId addr).bench = d.bench :=
  d.fault_bench ..

/-- A schedule fault stops the bench's list and drops its ragged loop; the engines of the bench stay. -/
theorem seqFault_bn (b recordId addr : Nat) :
    (seqFault d b recordId addr).bn b = { d.bn b with seq := .faulted, raggedSt := none } :=
  (Dev.bn_congr (Dev.schedFault_bench ..) b).trans (d.bn_onBn_self ..)

end Sys2Proof.Machine
end

section
/-! PROOF. The bench sequencer reads the record at its place and runs ragged loops (03 R566, 05 R171, R172). -/

namespace Sys2Proof.Machine

variable {d : Dev} {b : Nat}

/-- A row of a bench whose record goes on while the job runs (16 R442, 03 R95). -/
theorem State.upd_finishes {s : State} {f : Dev → Dev} {e : Dev} (hb : b < 144) (hf : s.dev.finishes = true) (h : f s.dev = e) :
    s.upd (fun d => if b < 144 && d.finishes then f d else d) = .next (s.withDev e) :=
  State.upd_eq (by rw [if_pos (by simp [hb, hf]), h])

/-! ### The record at the sequencer's place (03 R566) -/

/-- A record that is no end mark is placed by its type: in an engine's queue, in the sequencer's own hand, or nowhere. -/
def Dev.placeRecord (d : Dev) (b list pos : Nat) (w : List W64) : Dev :=
  match queueOf w with
  | none => seqFault d b (recId w) 0
  | some q =>
    if q = 20 then
      if recType w = 0x30 then d.onBn b (fun x => { x with seq := .ragged w })
      else if d.selOk w false list (pos + 1) then d.onBn b (fun x => { x with seq := .selFence w })
      else seqFault d b (selId w) 0
    else if 8 ≤ benchQueueLen d b q then d.onBn b (fun x => { x with seq := .full { words := w } q })
    else benchEnqueue d b q (list + 64 * pos) w

/-- A running sequencer reads the record behind the skips that begin at its place. -/
theorem fetchRecord_words {pos : Nat} {skip : List (Nat × Nat)} {w : List W64} (hb : b < 144) (runs : d.runs = true)
    (running : (d.bn b).seq = .running) (place : afterSkip (d.bn b).pos (d.bn b).skip = (pos, skip))
    (read : d.fetch ((d.bn b).list + 64 * pos) 8 = .words w) :
    fetchRecord d b =
      let d₀ := d.readJob ((d.bn b).list + 64 * pos) 64
      if recType w = 0 then d₀.onBn b (fun x => { x with seq := .idle })
      else (d₀.onBn b (fun x => { x with pos := pos + 1, skip := skip, seq := .running })).placeRecord b (d.bn b).list pos w := by
  unfold fetchRecord
  rw [if_neg (by simp [hb, runs])]
  simp only [running, place, read]
  rfl

section
variable {list pos : Nat} {w : List W64}

theorem Dev.placeRecord_unlisted (h : queueOf w = none) : d.placeRecord b list pos w = seqFault d b (recId w) 0 := by
  simp only [Dev.placeRecord, h]

theorem Dev.placeRecord_ragged (h : recType w = 0x30) :
    d.placeRecord b list pos w = d.onBn b (fun x => { x with seq := .ragged w }) := by
  have own : queueOf w = some 20 := by simp [queueOf, h]
  simp only [Dev.placeRecord, own, h, ↓reduceIte]

theorem Dev.placeRecord_select (h : recType w = 0x70) (ok : d.selOk w false list (pos + 1) = true) :
    d.placeRecord b list pos w = d.onBn b (fun x => { x with seq := .selFence w }) := by
  have own : queueOf w = some 20 := by simp [queueOf, h]
  simp [Dev.placeRecord, own, h, ok]

theorem Dev.placeRecord_queued {q : Nat} (h : queueOf w = some q) (hq : q ≠ 20) (room : benchQueueLen d b q < 8) :
    d.placeRecord b list pos w = benchEnqueue d b q (list + 64 * pos) w := by
  simp only [Dev.placeRecord, h, hq, Nat.not_le_of_lt room, ↓reduceIte]

theorem Dev.placeRecord_full {q : Nat} (h : queueOf w = some q) (hq : q ≠ 20) (full : 8 ≤ benchQueueLen d b q) :
    d.placeRecord b list pos w = d.onBn b (fun x => { x with seq := .full { words := w } q }) := by
  simp only [Dev.placeRecord, h, hq, full, ↓reduceIte]

end

/-! ### The ragged loop (05 R171, R172) -/

section
variable {w : List W64}

/-- The slots of a loop's group table, where the loop waits for them. -/
def ragSlots (b : Nat) (w : List W64) : List Nat :=
  if fld (wd w 0) 18 17 = 0 then [] else slotRun b (fld (wd w 1) 40 18) (8 * fld (wd w 0) 55 47)

/-- The loop's group table and templates have been read, and the table's slots emptied where the loop consumes them. -/
def Dev.ragRead (d : Dev) (b : Nat) (w : List W64) : Dev :=
  if fld (wd w 0) 18 17 = 2 then (d.correctReads b (ragReads d b w)).setTags (ragSlots b w) false
  else d.correctReads b (ragReads d b w)

/-- The issues of a loop, group by group and in a group template by template. -/
def ragTodo (d : Dev) (b : Nat) (w : List W64) : List (Nat × Item) :=
  ((ragTable d b w).zipIdx).flatMap (fun p => (ragTemplates d b w).flatMap (ragIssues d b w p.2 p.1.1 p.1.2))

/-- The loop stands before its first issue. -/
def Dev.ragBegun (d : Dev) (b : Nat) (w : List W64) : Dev :=
  (d.ragRead b w).onBn b (fun x => { x with raggedWait := none, raggedSt := some ⟨w, ragTodo (d.ragRead b w) b w, 0, false⟩ })

theorem ragStart_refused {code : Nat} (h : ragCheck d b w = some code) : ragStart d b w = seqFault d b (ragId w) 0 := by
  simp only [ragStart, h]

theorem ragStart_begins (ok : ragCheck d b w = none) (ready : d.slotsReady (ragSlots b w) true)
    (clean : d.badRanges b (ragReads d b w) = none) : ragStart d b w = d.ragBegun b w := by
  obtain ⟨sound, full⟩ := ready
  have bad := d.tagBad_clean _ sound
  have fix := d.tagFix_clean _ sound
  unfold ragSlots at bad fix full
  simp only [ragStart, ok, bad, fix, full, clean, Bool.not_true, Bool.false_eq_true, ↓reduceIte]
  rfl

theorem ragIssue_stopped (h : (d.bn b).raggedSt = none) (n : Nat) : ragIssue n d b = d := by
  cases n with
  | zero => rfl
  | succ n => simp only [ragIssue, h]

/-- With no issue left the sequencer reads on. -/
theorem ragIssue_done {r : Ragged} (h : (d.bn b).raggedSt = some r) (left : r.todo = []) (n : Nat) :
    ragIssue (n + 1) d b = d.onBn b (fun x => { x with raggedSt := none, seq := .running }) := by
  simp only [ragIssue, h, left]

theorem raggedRun_starts (here : (d.bn b).seq = .ragged w) (fresh : (d.bn b).raggedSt = none) :
    raggedRun d b = ragIssue ((((ragStart d b w).bn b).raggedSt.map (fun r => r.todo.length)).getD 0 + 1) (ragStart d b w) b := by
  simp only [raggedRun, here, fresh]

theorem raggedRun_refused {code : Nat} (here : (d.bn b).seq = .ragged w) (fresh : (d.bn b).raggedSt = none)
    (h : ragCheck d b w = some code) : raggedRun d b = seqFault d b (ragId w) 0 := by
  rw [raggedRun_starts here fresh, ragStart_refused h, ragIssue_stopped (by rw [seqFault_bn])]

theorem raggedRun_begins (here : (d.bn b).seq = .ragged w) (fresh : (d.bn b).raggedSt = none) (ok : ragCheck d b w = none)
    (ready : d.slotsReady (ragSlots b w) true) (clean : d.badRanges b (ragReads d b w) = none) :
    raggedRun d b = ragIssue ((ragTodo (d.ragRead b w) b w).length + 1) (d.ragBegun b w) b := by
  rw [raggedRun_starts here fresh, ragStart_begins ok ready clean, Dev.ragBegun, Dev.bn_onBn_self]
  rfl

theorem raggedRun_done {r : Ragged} (here : (d.bn b).seq = .ragged w) (h : (d.bn b).raggedSt = some r) (left : r.todo = []) :
    raggedRun d b = d.onBn b (fun x => { x with raggedSt := none, seq := .running }) := by
  simp only [raggedRun, here, h]
  exact ragIssue_done h left _

end

/-- Settles O35: the record is placed by its type, and a loop goes by its checks, its table and what it has left. -/
theorem recordsAreFetched : Obligations.RecordsAreFetched := by
  refine ⟨?_, ?_⟩
  · intro s b pos skip w hb runs running place read d₀
    have fetched := fetchRecord_words hb runs running place read
    refine ⟨fun last => State.upd_eq (f := (fetchRecord · b)) (by rw [fetched]; exact if_pos last), fun more => ?_⟩
    intro d
    have placed {e : Dev} (h : d.placeRecord b (s.dev.bn b).list pos w = e) : exec (.recordFetch b) s = .next (s.withDev e) :=
      State.upd_eq (f := (fetchRecord · b)) (by rw [fetched]; exact (if_neg more).trans h)
    exact ⟨fun h => placed (Dev.placeRecord_unlisted h), fun h => placed (Dev.placeRecord_ragged h),
      fun h ok => placed (Dev.placeRecord_select h ok), fun q h hq room => placed (Dev.placeRecord_queued h hq room),
      fun q h hq full => placed (Dev.placeRecord_full h hq full)⟩
  · intro s b w hb finishes here
    have loops {e : Dev} (h : raggedRun s.dev b = e) : exec (.raggedLoop b) s = .next (s.withDev e) :=
      State.upd_finishes (f := (raggedRun · b)) hb finishes h
    refine ⟨fun fresh => ⟨fun code h => loops (raggedRun_refused here fresh h), ?_⟩,
      fun r h left => loops (raggedRun_done here h left)⟩
    intro gt slots ok ready clean
    exact loops (raggedRun_begins here fresh ok ready clean)

end Sys2Proof.Machine
end

section
/-! SUPPORT. A record of the awl, the last or the vector engine that nothing stops runs to its end (04 R114, 07 R223,
18 R487). -/

namespace Sys2Proof.Machine

variable {d : Dev} {b e : Nat}

/-! ### Changes of one engine -/

@[simp] theorem Bench.eng_setEng (x : Bench) (e : Nat) (s : EngSt) : (x.setEng e s).eng e = s := by
  by_cases h0 : e = 0
  · simp [Bench.eng, Bench.setEng, h0]
  · by_cases h1 : e = 1 <;> simp [Bench.eng, Bench.setEng, h0, h1]

@[simp] theorem Dev.eng_onEng_self (d : Dev) (b e : Nat) (f : EngSt → EngSt) :
    ((d.onEng b e f).bn b).eng e = f ((d.bn b).eng e) := by
  rw [Dev.onEng, Dev.bn_onBn_self, Bench.eng_setEng]

@[simp] theorem noteNeed_bn (d : Dev) (b c : Nat) : (noteNeed d b).bn c = d.bn c := rfl

/-! ### The phases of a record in progress -/

section
variable {r : EngRun} (here : ((d.bn b).eng e).cur = some r)
include here

theorem engAt_phase {k : Nat} (hk : r.phase = k) (f : EngRun → Dev) : engAt e k d b f = f r := by
  simp only [engAt, here, hk, ↓reduceIte]

theorem engPhase_cur (k : Nat) : (((engPhase e k d b).bn b).eng e).cur = some { r with phase := k, wait := none } := by
  rw [engPhase, Dev.eng_onEng_self, here, Option.map_some]

theorem engLeaveStep_held (hk : r.phase = 0) (leave : leaveOk d b (leaveUnits d (engLeave r.item.words)) = true) :
    engLeaveStep e d b = noteNeed (engPhase e 1 d b) b := by
  rw [engLeaveStep, engAt_phase here hk, if_pos leave]

end

theorem engTags_ready {l : List Nat} {full : Bool} (ready : d.slotsReady l full) (k : Nat) (r : EngRun) :
    engTags e k l full d b r = engPhase e k d b := by
  obtain ⟨sound, tags⟩ := ready
  simp only [engTags, d.tagBad_clean l sound, d.tagFix_clean l sound, tags, ↓reduceIte]

/-- Work that no meeting, no word and no error of its own stops ends with its tag changes, and the record leaves the engine. -/
theorem engWork_ends {p : Plan} {r : EngRun} {d₁ d₂ d₃ : Dev} (met : engMeet e r.item.words p d b = (d₁, none))
    (clean : engErrors e r.item.words p d₁ b = (d₂, none)) (works : p.run d₂ = (d₃, none)) :
    engWork e p d b r = engDrop (p.tagged b d₃) b e := by
  simp only [engWork, met, clean, works]
  rfl

/-- From its tagged ends on, a record that nothing stops does its work. -/
theorem Dev.EngEnds.phases {w : List W64} {p : Plan} {r : EngRun} (ends : d.EngEnds b e w p) (hw : r.item.words = w)
    (here : ((d.bn b).eng e).cur = some r) (hk : r.phase = 1) :
    (let d := engAt e 1 d b (engTags e 2 (p.fullSlots b) true d b)
     let d := engAt e 2 d b (engTags e 3 (p.emptySlots b) false d b)
     engAt e 3 d b (engWork e p d b)) = d.engWorked b e w p := by
  have source : engAt e 1 d b (engTags e 2 (p.fullSlots b) true d b) = engPhase e 2 d b :=
    (engAt_phase here hk _).trans (engTags_ready ends.full 2 r)
  have empty : (engPhase e 2 d b).slotsReady (p.emptySlots b) false := ends.empty
  have here2 := engPhase_cur here 2
  have here3 := engPhase_cur here2 3
  simp only [source, engAt_phase here2 rfl, engTags_ready empty, engAt_phase here3 rfl]
  have met : engMeet e w p (engPhase e 3 (engPhase e 2 d b) b) b = ((d.engMet b e w p).1, none) := Prod.ext rfl ends.met
  have clean : engErrors e w p (d.engMet b e w p).1 b = ((d.engRead b e w p).1, none) := Prod.ext rfl ends.clean
  subst hw
  exact engWork_ends met clean (Prod.ext rfl ends.works)

/-! ### The record at the head of the queue -/

section
variable {it : Item} {rest : List Item} {p : Plan} (idle : ((d.bn b).eng e).cur = none)
  (queue : ((d.bn b).eng e).queue = it :: rest) (running : d.js = jsRunning) (alone : e = 2 → (d.bn b).last.cur = none)
include idle queue running alone

theorem engStart_takes (named : d.badRanges b (engLatch e d b it).1 = none)
    (checked : (enginePlan e (d.engNamed b e it) b (engLatch e d b it).2).isOk = true) :
    engStart e d b = d.engTaken b e it rest := by
  have free : (decide (d.js ≠ jsRunning) || decide (e = 2) && (d.bn b).last.cur.isSome) = false := by
    by_cases he : e = 2
    · simp [running, alone he]
    · simp [running, he]
  obtain ⟨q, ok⟩ : ∃ q, enginePlan e (d.engNamed b e it) b (engLatch e d b it).2 = .ok q := by
    cases h : enginePlan e (d.engNamed b e it) b (engLatch e d b it).2 with
    | ok q => exact ⟨q, rfl⟩
    | error c => rw [h] at checked; cases checked
  unfold Dev.engNamed at ok
  simp only [engStart, idle, queue, free, named, ok, Bool.false_eq_true, ↓reduceIte]
  rfl

/-- A record that passes its checks, has its leave and meets nothing that stops it runs to its end. -/
theorem Dev.EngRuns.engRun_eq (runs : d.EngRuns b e it rest p) :
    engRun e d b = (d.engStarted b e it rest).engWorked b e it.words p := by
  have start := engStart_takes idle queue running alone runs.named runs.checked
  have taken : (((d.engTaken b e it rest).bn b).eng e).cur = some ⟨(engLatch e d b it).2, 0, none⟩ := by
    rw [Dev.engTaken, Dev.eng_onEng_self]
  have leave : engLeaveStep e (d.engTaken b e it rest) b = d.engStarted b e it rest := engLeaveStep_held taken rfl runs.leave
  have started : (((d.engStarted b e it rest).bn b).eng e).cur = some ⟨(engLatch e d b it).2, 1, none⟩ := by
    rw [Dev.engStarted, noteNeed_bn, engPhase_cur taken]
  simp only [engRun, start, taken, runs.plan, leave]
  exact runs.ends.phases rfl started rfl

end

end Sys2Proof.Machine
end

section
/-! PROOF. The lane row runs its records, its batches and the packets of the awl (03 R83 to R95, 04 R130). -/

namespace Sys2Proof.Machine

variable {d : Dev} {b : Nat}

/-! ### What leaves the lane row as it is -/

theorem Dev.correctReads_lane (d : Dev) (b : Nat) (l : List (Nat × Nat)) : ((d.correctReads b l).bn b).lane = (d.bn b).lane := by
  unfold Dev.correctReads
  dsimp only
  split
  · rfl
  · rw [Dev.bn_congr (Dev.addTo_bench ..), Dev.bn_onBn_self]

theorem laneTakeHead_lane (d : Dev) (b : Nat) (it : Item) : ((laneTakeHead d b it).1.bn b).lane = (d.bn b).lane := by
  unfold laneTakeHead
  dsimp only
  split
  · rfl
  · split
    · rfl
    · exact d.correctReads_lane b _

theorem drainRun_nil (h : (d.bn b).lane.drains = []) (n : Nat) : drainRun n d b = d := by
  cases n with
  | zero => rfl
  | succ n => simp only [drainRun, h]

/-! ### The start of a record (03 R91) -/

theorem laneStart_busy {r : LaneRun} (h : (d.bn b).lane.cur = some r) : laneStart d b = d := by
  unfold laneStart
  dsimp only
  split
  · rfl
  · simp only [h]

section
variable {it it' : Item} {rest : List Item}

/-- A record whose header is read and that fails its checks leaves the queue, and the list stops. -/
theorem laneStart_refused (running : d.js = jsRunning) (idle : (d.bn b).lane.cur = none)
    (queue : (d.bn b).lane.queue = it :: rest) (fresh : (d.bn b).lane.pre = none)
    (head : (laneTakeHead d b it).2 = .ok it')
    (bad : lrCheck (laneTakeHead d b it).1 b true (codeHead (laneTakeHead d b it).1 b it') it'.words ≠ none) :
    laneStart d b = seqFault (lanePop (laneTakeHead d b it).1 b) b (recId it'.words) 0 := by
  obtain ⟨code, hc⟩ := Option.ne_none_iff_exists'.1 bad
  have taken : laneTakeHead d b it = ((laneTakeHead d b it).1, .ok it') := Prod.ext rfl head
  unfold laneStart
  simp only [running, idle, queue, fresh, ne_eq, not_true_eq_false, ↓reduceIte]
  rw [taken]
  simp only [hc]

/-- A row with nothing in progress and nothing to drain rests where the record at its head is refused. -/
theorem laneRun_refused {e : Dev} (start : laneStart d b = e) (drained : (d.bn b).lane.drains = [])
    (idle : (e.bn b).lane.cur = none) (drained' : (e.bn b).lane.drains = []) : laneRun d b = e := by
  have pair : lanePair e b = e := by simp only [lanePair, idle]
  simp only [laneRun, drainRun_nil drained, start, pair, idle, drainRun_nil drained']

end

/-! ### The pairing with a COMPACT record (04 R130) -/

/-- The lane row's record, of words `w`, and the COMPACT record `c` are refused as one schedule fault. -/
def Dev.pairRefused (d : Dev) (b : Nat) (w : List W64) (c : Item) : Dev :=
  seqFault ((laneStop d b).onBn b (fun x => { x with awl := match x.awl.cur with
    | some _ => { x.awl with cur := none }
    | none => { x.awl with queue := x.awl.queue.erase c } })) b (recId w) 0

theorem Dev.pairRefused_idle (d : Dev) (b : Nat) (w : List W64) (c : Item) : ((d.pairRefused b w c).bn b).lane.cur = none := by
  rw [Dev.pairRefused, seqFault_bn, Dev.bn_onBn_self, laneStop, Dev.bn_onBn_self]

section
variable {r : LaneRun} (cur : (d.bn b).lane.cur = some r)
include cur

/-- A record that is not COMPACTED, or whose packets have come, has nothing left to pair. -/
theorem lanePair_paired (h : lrSparse r.item.words = 2 → (d.bn b).lane.chunkMasks ≠ []) : lanePair d b = d := by
  simp only [lanePair, cur]
  by_cases sparse : lrSparse r.item.words = 2
  · simp [List.isEmpty_eq_false_iff.2 (h sparse)]
  · simp [sparse]

section
variable {c : Item} (sparse : lrSparse r.item.words = 2) (first : r.chunk = 0) (top : r.row = 0)
  (unpaired : (d.bn b).lane.chunkMasks = [])
include sparse first top unpaired

theorem laneAwaits_unpaired : laneAwaits d b = true := by
  simp [laneAwaits, cur, sparse, first, top, unpaired]

theorem lanePair_agrees (oldest : oldestCompact (d.bn b) = some c) (agrees : compactAgrees d b r.item.words c = true) :
    lanePair d b = d := by
  simp [lanePair, cur, sparse, first, top, unpaired, oldest, agrees]

theorem lanePair_differs (oldest : oldestCompact (d.bn b) = some c) (differs : compactAgrees d b r.item.words c = false) :
    lanePair d b = d.pairRefused b r.item.words c := by
  simp only [lanePair, cur, sparse, first, top, unpaired, oldest, differs, List.isEmpty_nil, decide_true, Bool.and_self,
    Bool.false_eq_true, ↓reduceIte]
  rfl

/-- A COMPACTED record and a COMPACT record that differ are refused together. -/
theorem compactGo_differs (oldest : oldestCompact (d.bn b) = some c)
    (differs : compactAgrees d b r.item.words c = false) :
    compactGo d b = d.pairRefused b r.item.words c := by
  have rests : laneAwaits (d.pairRefused b r.item.words c) b = false := by simp only [laneAwaits, Dev.pairRefused_idle]
  simp only [compactGo, laneStart_busy cur, lanePair_differs cur sparse first top unpaired oldest differs, rests, Bool.false_and,
    Bool.false_eq_true, ↓reduceIte]

/-- The COMPACT record at the head of the awl's queue runs, and the lane row goes on with its packets. -/
theorem compactGo_agrees {rest : List Item} {p : Plan} (running : d.js = jsRunning) (idle : (d.bn b).awl.cur = none)
    (queue : (d.bn b).awl.queue = c :: rest) (type : recType c.words = 0x20)
    (agrees : compactAgrees d b r.item.words c = true) (runs : d.EngRuns b 0 c rest p) :
    compactGo d b = laneRun ((d.engStarted b 0 c rest).engWorked b 0 c.words p) b := by
  have oldest : oldestCompact (d.bn b) = some c := by simp [oldestCompact, idle, queue, type]
  have awl : (d.bn b).eng 0 = (d.bn b).awl := rfl
  have head : engType d b 0 = 0x20 := by simp [engType, engHead, awl, idle, queue, type]
  have run : engRun 0 d b = (d.engStarted b 0 c rest).engWorked b 0 c.words p :=
    Dev.EngRuns.engRun_eq idle queue running (fun h => by cases h) runs
  simp only [compactGo, laneStart_busy cur, lanePair_agrees cur sparse first top unpaired oldest agrees,
    laneAwaits_unpaired cur sparse first top unpaired, head, decide_true, Bool.and_self, ↓reduceIte, run]

end

/-! ### Batches (03 R94, R95) -/

section
variable (gathers : r.closed = false)
include gathers

theorem batchArrive_takes (ready : d.slotsReady (r.slots d b r.rows) true) :
    batchArrive d b =
      let r' : LaneRun := { r with rows := r.rows + 1, wait := none }
      let d := (lanePut d b r').onLane b (fun l => { l with sRing := (r.sPos + (r.rows + 1)) % 2 ^ lrSRing r.item.words })
      if r.rows + 1 = lrRows r.item.words then batchClose d b r' (Reg.LR_COUNT1_BATCH_FULL b) else d := by
  obtain ⟨sound, full⟩ := ready
  simp only [batchArrive, laneStart_busy cur, cur, gathers, d.tagBad_clean _ sound, d.tagFix_clean _ sound, full, Bool.not_true,
    Bool.false_eq_true, ↓reduceIte]

theorem batchTimeout_closes (taken : r.rows ≠ 0) (timed : lrTimeout r.item.words ≠ 0) :
    batchTimeout d b false = batchClose d b r (Reg.LR_COUNT1_BATCH_TIMEOUTS b) := by
  simp [batchTimeout, cur, gathers, taken, timed]

end

/-! ### The last row of a record (03 R83, R85, R93) -/

/-- A record that no port's meeting stops is issued as far as it goes, and its rows drain. -/
theorem laneRun_issues (drained : (d.bn b).lane.drains = []) (paired : lrSparse r.item.words = 2 → (d.bn b).lane.chunkMasks ≠ [])
    (met : (laneMeet d b).2 = none) :
    laneRun d b = drainRun 256 (laneIssue (laneFuel r.item.words) (laneMeet d b).1 b) b := by
  have meets : laneMeet d b = ((laneMeet d b).1, none) := Prod.ext rfl met
  simp only [laneRun, drainRun_nil drained, laneStart_busy cur, lanePair_paired cur paired, cur]
  rw [meets]

end

/-- A row that its chunk, its packets, its tags and the rows to drain let go is issued. -/
theorem laneStep_row {r r' : LaneRun} {ps rest : List Packet} (closed : r.closed = true) (loaded : r.loaded = true)
    (within : r.chunk < lrChunks r.item.words)
    (packets : (if lrSparse r.item.words = 2 then rowPackets (d.bn b).lane.packets else some ([], (d.bn b).lane.packets)) =
      some (ps, rest))
    (cur : ((laneAhead d b r).bn b).lane.cur = some r') (rows : r'.rows ≠ 0)
    (sound : (laneAhead d b r).tagsClean (r'.slots (laneAhead d b r) b r'.row))
    (full : r'.chunk = 0 → (laneAhead d b r).tagsAre (r'.slots (laneAhead d b r) b r'.row) true = true)
    (drained : ((laneAhead d b r).bn b).lane.drains = []) :
    laneStep d b r = (laneRow (laneAhead d b r) b r' ps rest, true) := by
  have held : (decide (r'.chunk = 0) && !(laneAhead d b r).tagsAre (r'.slots (laneAhead d b r) b r'.row) true) = false := by
    by_cases h : r'.chunk = 0
    · simp [full h]
    · simp [h]
  simp only [laneStep, closed, loaded, Nat.not_le_of_lt within, packets, cur, rows, Dev.tagBad_clean _ _ sound,
    Dev.tagFix_clean _ _ sound, held, drained, List.any_nil, Bool.not_true, Bool.false_eq_true, ↓reduceIte]

/-- Behind its last chunk the record ends. -/
theorem laneStep_ended {r : LaneRun} (closed : r.closed = true) (ended : lrChunks r.item.words ≤ r.chunk) :
    laneStep d b r = (laneFinish d b r, false) := by
  simp only [laneStep, closed, ended, Bool.not_true, Bool.false_eq_true, ↓reduceIte]

/-- A row of the last chunk has been accumulated in every pass, its slots are emptied where the record consumes, and its
drained rows have begun to follow. -/
def Dev.lastContribution (d : Dev) (b : Nat) (r : LaneRun) (ps rest : List Packet) : Dev :=
  let w := r.item.words
  let reads := rowReads d b r
  let d₁ := d.correctReads b (reads.1 ++ reads.2)
  let d₂ := if ps.all (fun p => p.rowValid) then
    rowChunk d₁ b (codeHead d₁ b r.item) w r.file (r.pos r.row) r.row r.chunk ps else d₁
  let d₃ := if lrStreamFe w = 2 then d₂.setTags (r.slots d b r.row) false else d₂
  let re := if lrBatch w then (r.dPos + r.row) % 2 ^ lrDRing w else r.row
  let im := if lrBatch w then (r.dPos + r.rows + r.row) % 2 ^ lrDRing w else 64 + r.row
  let more := if ps.all (fun p => p.rowValid) then drainsOf w (d₃.bn b).lane.starts r.row re im else []
  drainRun 2 (d₃.onLane b (fun l => { l with packets := rest, drains := more.foldl (fun l x => drainInsert x l) l.drains })) b

section
variable {r : LaneRun} {ps rest : List Packet}

theorem laneRow_last (stream : d.badRanges b (rowReads d b r).1 = none) (scales : d.badRanges b (rowReads d b r).2 = none)
    (final : r.chunk + 1 = lrChunks r.item.words) (last : r.row + 1 = r.rows)
    (goes : ((d.lastContribution b r ps rest).bn b).lane.cur.isSome = true) :
    laneRow d b r ps rest = laneNextChunk (d.lastContribution b r ps rest) b r := by
  obtain ⟨q, cur⟩ := Option.isSome_iff_exists.1 goes
  have row : laneRow d b r ps rest =
      match ((d.lastContribution b r ps rest).bn b).lane.cur with
      | none => d.lastContribution b r ps rest
      | some _ => if r.row + 1 < r.rows then lanePut (d.lastContribution b r ps rest) b { r with row := r.row + 1, wait := none }
        else laneNextChunk (d.lastContribution b r ps rest) b r := by
    simp only [laneRow, stream, scales, final, decide_true, Bool.true_and, decide_eq_true_eq]
    rfl
  rw [row, cur]
  exact if_neg (by omega)

theorem laneNextChunk_final (final : r.chunk + 1 = lrChunks r.item.words) :
    ((laneNextChunk d b r).bn b).lane.cur =
      some { r with row := 0, chunk := r.chunk + 1, wait := none, loaded := r.ahead, ahead := false } := by
  unfold laneNextChunk lanePut
  rw [Dev.bn_onLane_self, if_pos final]

/-- Behind the last row of the last chunk the record ends. -/
theorem laneIssue_last {d' : Dev} {r' : LaneRun} {n : Nat} (cur : (d.bn b).lane.cur = some r)
    (step : laneStep d b r = (laneNextChunk d' b r', true)) (closed : r'.closed = true)
    (final : r'.chunk + 1 = lrChunks r'.item.words) :
    laneIssue (n + 2) d b = laneFinish (laneNextChunk d' b r') b
      { r' with row := 0, chunk := r'.chunk + 1, wait := none, loaded := r'.ahead, ahead := false } := by
  have next := laneNextChunk_final (d := d') (b := b) final
  have ends := laneStep_ended (d := laneNextChunk d' b r') (b := b)
    (r := { r' with row := 0, chunk := r'.chunk + 1, wait := none, loaded := r'.ahead, ahead := false }) closed
    (Nat.le_of_eq final.symm)
  simp only [laneIssue, cur, step, next, ends]

end

/-- Settles O36: a refused record, the last row of a record, a batch's rows and its closing, and the pairing with COMPACT. -/
theorem laneRowRuns : Obligations.LaneRowRuns := by
  intro s b hb finishes
  have runs {e : Dev} (h : laneRun s.dev b = e) : exec (.laneRowRecord b) s = .next (s.withDev e) :=
    State.upd_finishes (f := (laneRun · b)) hb finishes h
  refine ⟨?_, fun r cur => ⟨?_, ?_, ?_, fun sparse first top unpaired => ⟨?_, ?_⟩⟩⟩
  · intro it rest running idle queue drained fresh h it' head bad
    refine runs (laneRun_refused (laneStart_refused running idle queue fresh head bad) drained ?_ ?_) <;>
      rw [seqFault_bn, lanePop, Dev.bn_onLane_self, laneTakeHead_lane]
    · exact idle
    · exact drained
  · intro r' ps rest closed loaded final packets paired drained m a reads met same ahead last drained' words chunk _ closed' sound
      full stream scales w d₁ d₂ d₃ re im more d₄ r'' goes
    have contributed : d₄ = a.lastContribution b r' ps rest := rfl
    rw [contributed] at goes
    have final' : r'.chunk + 1 = lrChunks r'.item.words := by rw [chunk, words, final]
    have row : laneStep m.1 b r = (laneRow a b r' ps rest, true) :=
      laneStep_row closed loaded (by omega) (by rw [same]; exact packets) ahead (by omega) sound full drained'
    have step : laneStep m.1 b r = (laneNextChunk (a.lastContribution b r' ps rest) b r', true) := by
      rw [row, laneRow_last stream scales final' last goes]
    rw [contributed]
    refine runs ((laneRun_issues cur drained paired met).trans ?_)
    have issued := laneIssue_last (n := lrChunks r.item.words * 131 + 2) (by rw [same]; exact cur) step closed' final'
    exact congrArg (drainRun 256 · b) issued
  · exact fun gathers ready => State.upd_finishes (f := (batchArrive · b)) hb finishes (batchArrive_takes cur gathers ready)
  · exact fun gathers taken timed =>
      State.upd_finishes (f := (batchTimeout · b false)) hb finishes (batchTimeout_closes cur gathers taken timed)
  · exact fun c rest p running idle queue type agrees ok => State.upd_finishes (f := (compactGo · b)) hb finishes
      (compactGo_agrees cur sparse first top unpaired running idle queue type agrees ok)
  · exact fun c oldest differs => State.upd_finishes (f := (compactGo · b)) hb finishes
      (compactGo_differs cur sparse first top unpaired oldest differs)

end Sys2Proof.Machine
end

section
/-! PROOF. The rows of the awl, the last and the vector engine run the record at hand, refuse it, or let it wait for its leave
(04 R114, R150, 05 R152, 06 R198, 11 R307, 18 R487). -/

namespace Sys2Proof.Machine

variable {d : Dev} {b e : Nat}

/-! ### The rows -/

/-- The row of the record that an engine has at hand runs the engine. -/
theorem EngineRow.exec_eq {s : State} {it : Item} {i : Instr} (row : EngineRow b it.words i e) (hb : b < 144)
    (finishes : s.dev.finishes = true) (head : engHead s.dev b e = some it) :
    exec i s = .next (s.withDev (engRun e s.dev b)) := by
  have type : engType s.dev b e = recType it.words := by simp only [engType, head]
  have words : headWords s.dev b e = it.words := by simp only [headWords, head]
  have guarded {c : Dev → Bool} (h : c s.dev = true) :
      s.upd (fun d => if c d then engRun e d b else d) = .next (s.withDev (engRun e s.dev b)) := State.upd_eq (if_pos h)
  cases row with
  | compress h | expand h | gather h | scatterAdd h | sort h | wsum h | vectorRecord h =>
    unfold exec
    refine guarded ?_
    simp [hb, finishes, type, h]
  | routeDispatch h mode | routeCollect h mode | transpose h mode | transposeInPlace h mode =>
    unfold exec
    refine guarded ?_
    simp [hb, finishes, type, words, h, mode]

/-! ### A record that does not start (04 R150, 18 R487) -/

theorem Dev.correctReads_eng (d : Dev) (b e : Nat) (l : List (Nat × Nat)) :
    ((d.correctReads b l).bn b).eng e = (d.bn b).eng e := by
  unfold Dev.correctReads
  dsimp only
  split
  · rfl
  · rw [Dev.bn_congr (Dev.addTo_bench ..), Dev.bn_onBn_self]
    rfl

theorem seqFault_eng (d : Dev) (b e recordId addr : Nat) : ((seqFault d b recordId addr).bn b).eng e = (d.bn b).eng e := by
  rw [seqFault_bn]
  rfl

theorem engRun_idle (h : (((engStart e d b).bn b).eng e).cur = none) : engRun e d b = engStart e d b := by
  simp only [engRun, h]

section
variable {r : EngRun} (here : ((d.bn b).eng e).cur = some r)
include here

theorem engAt_other {k : Nat} (hk : r.phase ≠ k) (f : EngRun → Dev) : engAt e k d b f = d := by
  simp only [engAt, here, hk, ↓reduceIte]

theorem engLeaveStep_waits (hk : r.phase = 0) (leave : leaveOk d b (leaveUnits d (engLeave r.item.words)) = false) :
    engLeaveStep e d b = d.addCycles (Reg.BENCH_LEAVE_LEAVE_WAIT_CYCLES b) := by
  simp only [engLeaveStep, engAt_phase here hk, leave, Bool.false_eq_true, ↓reduceIte]

end

section
variable {it : Item} {rest : List Item} {p : Plan} (idle : ((d.bn b).eng e).cur = none)
  (queue : ((d.bn b).eng e).queue = it :: rest) (running : d.js = jsRunning) (alone : e = 2 → (d.bn b).last.cur = none)
  (named : d.badRanges b (engLatch e d b it).1 = none)
include idle queue running alone named

theorem engStart_refused {code : Nat} (bad : enginePlan e (d.engNamed b e it) b (engLatch e d b it).2 = .error code) :
    engStart e d b = seqFault ((d.engNamed b e it).onEng b e (fun s => { s with queue := rest })) b (recId it.words) 0 := by
  have free : (decide (d.js ≠ jsRunning) || decide (e = 2) && (d.bn b).last.cur.isSome) = false := by simpa [running] using alone
  unfold Dev.engNamed at bad
  simp only [engStart, idle, queue, free, named, bad, Bool.false_eq_true, ↓reduceIte]
  rfl

/-- A record that fails its checks leaves the queue, and the list stops. -/
theorem engRun_refused {code : Nat} (bad : enginePlan e (d.engNamed b e it) b (engLatch e d b it).2 = .error code) :
    engRun e d b = seqFault ((d.engNamed b e it).onEng b e (fun s => { s with queue := rest })) b (recId it.words) 0 := by
  have start := engStart_refused idle queue running alone named bad
  rw [engRun_idle, start]
  rw [start, seqFault_eng, Dev.eng_onEng_self, Dev.engNamed, Dev.correctReads_eng]
  exact idle

/-- A record whose leave is not held is taken and waits, and its wait is counted. -/
theorem engRun_waits (checked : (enginePlan e (d.engNamed b e it) b (engLatch e d b it).2).isOk = true)
    (plan : enginePlan e (d.engTaken b e it rest) b (engLatch e d b it).2 = .ok p)
    (leave : leaveOk (d.engTaken b e it rest) b (leaveUnits (d.engTaken b e it rest) (engLeave it.words)) = false) :
    engRun e d b = (d.engTaken b e it rest).addCycles (Reg.BENCH_LEAVE_LEAVE_WAIT_CYCLES b) := by
  have start := engStart_takes idle queue running alone named checked
  have taken : (((d.engTaken b e it rest).bn b).eng e).cur = some ⟨(engLatch e d b it).2, 0, none⟩ := by
    rw [Dev.engTaken, Dev.eng_onEng_self]
  have waits := engLeaveStep_waits taken rfl leave
  have here : ((((d.engTaken b e it rest).addCycles (Reg.BENCH_LEAVE_LEAVE_WAIT_CYCLES b)).bn b).eng e).cur =
      some ⟨(engLatch e d b it).2, 0, none⟩ := by rw [Dev.addCycles_bn, taken]
  simp only [engRun, start, taken, plan, waits]
  simp [engAt_other here]

end

/-- Settles O37: each row runs its engine, and the engine refuses the record, lets it wait for its leave, or ends it. -/
theorem engineRecordsRun : Obligations.EngineRecordsRun := by
  intro s b e it rest i hb running going voting row idle queue alone named
  have finishes : s.dev.finishes = true := by simp [Dev.finishes, Dev.runs, running, going, voting]
  have head : engHead s.dev b e = some it := by simp only [engHead, idle, queue, List.head?_cons]
  have runs {t : Dev} (h : engRun e s.dev b = t) : exec i s = .next (s.withDev t) := h ▸ row.exec_eq hb finishes head
  exact ⟨fun x bad => runs (engRun_refused idle queue running alone named bad),
    fun p checked plan leave => runs (engRun_waits idle queue running alone named checked plan leave),
    fun p ok => runs (ok.engRun_eq idle queue running alone)⟩

end Sys2Proof.Machine
end

section
/-! PROOF. Packets of the bulk network at their destinations (07 R223, R230, 08 R243, R244, 09 R282, R284). -/

namespace Sys2Proof.Machine

variable {d : Dev} {id : Nat} {p : Pkt}

/-! ### Memory that a port may read or write (07 R219, 10 R294) -/

theorem Dev.wrPhys_written {a : Nat} {l : List Byte} (h : d.badWrite a l.length = none) :
    d.wrPhys a l = ((d.metPartly a l.length).wr a l, none) := by
  simp only [Dev.wrPhys, h]

theorem Dev.rdPhys_read {a n : Nat} (h : d.badPhys a n = none) : d.rdPhys a n = ((d.rdPhys a n).1, .ok (d.bytes a n)) := by
  simp only [Dev.rdPhys, h]

/-! ### A WRITE (08 R243, R244) -/

section
variable (runs : d.netRuns = true) (here : d.arriving id 0 = some p)
include runs here

theorem execBulkWriteOn_unrouted (bad : d.routeBad p.src p.dst = true) : execBulkWriteOn d id = d.answer p 6 [] 10 := by
  simp only [execBulkWriteOn, runs, here, bad, ↓reduceIte]

variable (routed : d.routeBad p.src p.dst = false) (sound : p.fe = 1 → d.tagsClean [slotOf p.addr])
include routed sound

/-- A WRITE tagged for a slot that is full waits. -/
theorem execBulkWriteOn_waits (tagged : p.fe = 1) (full : d.tag (slotOf p.addr) = true) :
    execBulkWriteOn d id = d.pktWait p false := by
  simp only [execBulkWriteOn, runs, here, routed, tagged, full, d.tagBad_clean _ (sound tagged), Option.isSome_none,
    Bool.false_eq_true, and_false, and_self, ↓reduceIte]

variable (empty : p.fe = 1 → d.tag (slotOf p.addr) = false)
include empty

/-- A WRITE that no tag keeps waiting meets the other ports of its bench, and what it meets decides. -/
theorem execBulkWriteOn_meets :
    (let m := d.dmaMeet p.dst true p.addr p.data.length
     (m.2 = true → execBulkWriteOn d id = (m.1.dmaConflict p.dst p.loc p.ch).answer p 6 [] 6) ∧
     (m.2 = false → m.1.badWrite p.addr p.data.length = none → p.loc ≠ noLoc → execBulkWriteOn d id =
       ((if p.fe = 1 then ((m.1.metPartly p.addr p.data.length).wr p.addr p.data).setTags [slotOf p.addr] true
         else (m.1.metPartly p.addr p.data.length).wr p.addr p.data).answer p 3 [] 0).showPkt p)) := by
  have unstopped : ¬ (p.fe = 1 ∧ (d.tagBad [slotOf p.addr]).isSome = true) := fun h => by
    simp [d.tagBad_clean _ (sound h.1)] at h
  have unheld : ¬ (p.fe = 1 ∧ d.tag (slotOf p.addr) = true) := fun h => by simp [empty h.1] at h
  have fixed : (if p.fe = 1 then d.tagFix [slotOf p.addr] else d) = d := by
    split
    · next h => exact d.tagFix_clean _ (sound h)
    · rfl
  refine ⟨fun refused => ?_, fun met bad loc => ?_⟩
  · simp only [execBulkWriteOn, runs, here, routed, unstopped, unheld, fixed, refused, Bool.false_eq_true, ↓reduceIte]
  · simp only [execBulkWriteOn, runs, here, routed, unstopped, unheld, fixed, met, loc, Dev.wrPhys_written bad,
      Bool.false_eq_true, ↓reduceIte]

end

/-! ### A READ_REQ (07 R229 to R231) -/

section
variable (runs : d.netRuns = true) (here : d.arriving id 1 = some p)
include runs here

theorem execBulkReadReqOn_unrouted (bad : d.routeBad p.src p.dst = true) : execBulkReadReqOn d id = d.answer p 6 [] 10 := by
  simp only [execBulkReadReqOn, runs, here, bad, ↓reduceIte]

variable (routed : d.routeBad p.src p.dst = false)
include routed

/-- A read of a whole slot joins the slot's merge window, or opens one. -/
theorem execBulkReadReqOn_merges (merges : d.mergeable p.dst p.fe p.addr p.len = true) (fresh : p.window = none)
    (full : p.fe = 1 → d.tag (slotOf p.addr) = true) :
    execBulkReadReqOn d id = (d.inc (if (d.openWindow p.addr).isSome then Reg.SP_MERGE_BURSTS_MERGED p.dst
      else Reg.SP_MERGE_WINDOWS p.dst)).onPkt id
        (fun _ => { p with window := some ((d.openWindow p.addr).getD id), joinedAt := d.countedBeats }) := by
  have ready (c : Fld) (f : Pkt → Pkt) :
      ¬ (p.fe = 1 ∧ (!((d.inc c).onPkt id f).tag (slotOf p.addr)) = true) := fun h => by
    have kept : ((d.inc c).onPkt id f).tag (slotOf p.addr) = d.tag (slotOf p.addr) := by simp [Dev.tag, Dev.onPkt]
    simp [kept, full h.1] at h
  simp only [execBulkReadReqOn, runs, here, routed, merges, fresh, ready, Option.isSome_none, Bool.false_eq_true, ↓reduceIte,
    Dev.inc_countedBeats]

theorem execBulkReadReqOn_serves (alone : d.mergeable p.dst p.fe p.addr p.len = false) :
    execBulkReadReqOn d id = d.serveRead p := by
  simp only [execBulkReadReqOn, runs, here, routed, alone, Bool.false_eq_true, ↓reduceIte]

end

/-- A read whose tag lets it, that no meeting refuses and that meets no uncorrectable word is answered with its bytes. -/
theorem Dev.serveRead_answers (ready : p.fe ≠ 0 → d.slotsReady [slotOf p.addr] true)
    (met : (d.dmaMeet p.dst false p.addr p.len).2 = false)
    (clean : (d.dmaMeet p.dst false p.addr p.len).1.badPhys p.addr p.len = none) :
    d.serveRead p = (((d.dmaMeet p.dst false p.addr p.len).1.rdPhys p.addr p.len).1.answer p 2
      ((d.dmaMeet p.dst false p.addr p.len).1.bytes p.addr p.len) 0).showPkt p := by
  have read := Dev.rdPhys_read clean
  by_cases tagged : p.fe = 0
  · simp only [Dev.serveRead, tagged, met, ne_eq, not_true_eq_false, false_and, Bool.false_eq_true, ↓reduceIte]
    rw [read]
  · obtain ⟨sound, full⟩ := ready tagged
    have tag : d.tag (slotOf p.addr) = true := by simpa [Dev.tagsAre] using full
    simp only [Dev.serveRead, d.tagBad_clean _ sound, d.tagFix_clean _ sound, tagged, tag, met, Option.isSome_none,
      Bool.not_true, ne_eq, not_false_eq_true, true_and, Bool.false_eq_true, ↓reduceIte]
    rw [read]

/-- A tagged read waits while its slot is empty. -/
theorem Dev.serveRead_waits (tagged : p.fe ≠ 0) (sound : d.tagBad [slotOf p.addr] = none) (empty : d.tag (slotOf p.addr) = false) :
    d.serveRead p = d.pktWait p true := by
  simp only [Dev.serveRead, sound, tagged, empty, Option.isSome_none, Bool.not_false, ne_eq, not_false_eq_true, true_and,
    Bool.false_eq_true, ↓reduceIte]

/-! ### READ_DATA, ACK and NACK (08 R243, 09 R282, R284) -/

theorem execBulkReadDataOn_delivers (runs : d.netRuns = true) (here : d.arriving id 2 = some p) :
    execBulkReadDataOn d id = (d.dropPkt id).partRead p.loc p.ch p.part p.data := by
  simp only [execBulkReadDataOn, runs, here, ↓reduceIte]

theorem ChanRun.blocksBy_untallied {r : ChanRun} (h : r.tallied = none) (pos len : Nat) : r.blocksBy pos len = [] := by
  have untallied : ({ r with acked := r.acked ++ [(pos, len)] } : ChanRun).tallied = none := h
  simp only [ChanRun.blocksBy, untallied]

section
variable (runs : d.netRuns = true) {r : ChanRun} (held : (d.chan p.loc p.ch).cur = some r)
include runs held

theorem execBulkAckOn_acknowledges {agrees : Bool} (here : d.arriving id 3 = some p) (ok : agrees = true ∨ r.tallied = none) :
    execBulkAckOn d id agrees = ((d.dropPkt id).burstAcked p.loc p.ch p.pos p.len).chanGo p.loc p.ch := by
  have cur : ((d.dropPkt id).chan p.loc p.ch).cur = some r := held
  have agreed : (!agrees && !(r.blocksBy p.pos p.len).isEmpty) = false := by
    rcases ok with h | h
    · simp [h]
    · simp [ChanRun.blocksBy_untallied h]
  simp only [execBulkAckOn, runs, here, cur, agreed, Bool.false_eq_true, ↓reduceIte]

theorem execBulkAckOn_retries (here : d.arriving id 3 = some p) (blocks : r.blocksBy p.pos p.len ≠ []) :
    execBulkAckOn d id false = ((d.dropPkt id).tallyRetry p.loc p.ch p.pos p.len).chanGo p.loc p.ch := by
  have cur : ((d.dropPkt id).chan p.loc p.ch).cur = some r := held
  have differs : (!false && !(r.blocksBy p.pos p.len).isEmpty) = true := by simpa using blocks
  simp only [execBulkAckOn, runs, here, cur, differs, ↓reduceIte]

theorem execBulkNackOn_stops (here : d.arriving id 6 = some p) (memory : p.cause ≠ 4) (timeout : p.cause ≠ 5) :
    execBulkNackOn d id = ((d.dropPkt id).burstLost p.loc p.ch p.pos p.part).stopChan p.loc p.ch p.cause := by
  have cur : ((d.dropPkt id).chan p.loc p.ch).cur = some r := held
  simp only [execBulkNackOn, runs, here, cur, memory, timeout, ↓reduceIte]

end

/-! ### The rows -/

section
variable {s : State} {e : Dev}

theorem exec_bulkWrite (h : execBulkWriteOn s.dev id = e) : exec (.bulkWrite id) s = .next (s.withDev e) :=
  State.upd_eq (f := (execBulkWriteOn · id)) h

theorem exec_bulkReadReq (h : execBulkReadReqOn s.dev id = e) : exec (.bulkReadReq id) s = .next (s.withDev e) :=
  State.upd_eq (f := (execBulkReadReqOn · id)) h

theorem exec_bulkReadData (h : execBulkReadDataOn s.dev id = e) : exec (.bulkReadData id) s = .next (s.withDev e) :=
  State.upd_eq (f := (execBulkReadDataOn · id)) h

theorem exec_bulkAck {agrees : Bool} (h : execBulkAckOn s.dev id agrees = e) :
    exec (.bulkAck id agrees) s = .next (s.withDev e) :=
  State.upd_eq (f := (execBulkAckOn · id agrees)) h

theorem exec_bulkNack (h : execBulkNackOn s.dev id = e) : exec (.bulkNack id) s = .next (s.withDev e) :=
  State.upd_eq (f := (execBulkNackOn · id)) h

end

/-- Settles O47: each row is its packet's effect at its destination, said above. -/
theorem packetsAreServed : Obligations.PacketsAreServed := by
  intro s id p runs
  refine ⟨fun here routed loc sound => ⟨?_, ?_⟩, fun here routed => ⟨?_, ?_, ?_⟩, ?_, ?_, ?_, ?_⟩
  · exact fun tagged full => exec_bulkWrite (execBulkWriteOn_waits runs here routed sound tagged full)
  · exact fun empty met bad => exec_bulkWrite ((execBulkWriteOn_meets runs here routed sound empty).2 met bad loc)
  · exact fun merges fresh full => exec_bulkReadReq (execBulkReadReqOn_merges runs here routed merges fresh full)
  · intro alone ready m met clean
    exact exec_bulkReadReq ((execBulkReadReqOn_serves runs here routed alone).trans (Dev.serveRead_answers ready met clean))
  · intro alone tagged sound empty
    exact exec_bulkReadReq ((execBulkReadReqOn_serves runs here routed alone).trans (Dev.serveRead_waits tagged sound empty))
  · exact fun here => exec_bulkReadData (execBulkReadDataOn_delivers runs here)
  · exact fun r here held agrees => ⟨fun ok => exec_bulkAck (execBulkAckOn_acknowledges runs held here ok),
      fun differs blocks => exec_bulkAck (differs ▸ execBulkAckOn_retries runs held here blocks)⟩
  · exact fun r here held memory timeout => exec_bulkNack (execBulkNackOn_stops runs held here memory timeout)
  · exact fun bad => ⟨fun here => exec_bulkWrite (execBulkWriteOn_unrouted runs here bad),
      fun here => exec_bulkReadReq (execBulkReadReqOn_unrouted runs here bad)⟩

end Sys2Proof.Machine
end

section
/-! PROOF. Merged reads, multicasts, in-router reductions and link replays (07 R229, R230, 08 R244 to R248, 17 R465). -/

namespace Sys2Proof.Machine

variable {d : Dev}

/-- Folds whose steps agree are equal. -/
theorem foldl_congr_step {α β : Type} {f g : α → β → α} (h : ∀ a b, f a b = g a b) {a : α} {l : List β} :
    l.foldl f a = l.foldl g a := by
  rw [show f = g from funext fun a => funext (h a)]

/-! ### Merge windows (07 R229, R230, 08 R245) -/

/-- The window is closed: no later burst joins it. -/
def Dev.closeWindow (d : Dev) (w : Nat) : Dev :=
  { d with net := { d.net with pkts := d.net.pkts.map (fun p => if p.window = some w then { p with closed := true } else p) } }

theorem execMergeWindowCloseOn_serves {b slot w : Nat} (runs : d.netRuns = true) (hb : b < 144)
    (here : d.openWindow (spBase b + slot % 16384 * 512) = some w) :
    execMergeWindowCloseOn d b slot = (d.closeWindow w).serveWindow w := by
  simp only [execMergeWindowCloseOn, runs, hb, here, decide_true, Bool.and_self, ↓reduceIte]
  rfl

/-- The benches `mine` of one die that asked for a slot get one MULTICAST of its bytes, with the extra copies counted. -/
def Dev.multicastTo (d : Dev) (b phys : Nat) (l : List Byte) : List Pkt → Dev
  | [] => d
  | x :: y => (((x :: y).foldl (fun d p => d.dropPkt p.id) d).countCopies (multicastHops b ((x :: y).map Pkt.src))).inject
      { id := 0, kind := 5, src := b, dst := x.src, addr := phys, len := 512, data := l, loc := noLoc, ch := 0, pos := 0,
        targets := (x :: y).map (fun p => (p.src, p.loc, p.ch, p.id, p.part)) }

theorem Dev.multicast_eq (d : Dev) (b phys : Nat) (ps : List Pkt) (l : List Byte) :
    d.multicast b phys ps l = (List.range 4).foldl
      (fun d die => d.multicastTo b phys l ((ps.filter (fun p => p.src < 144)).filter (fun p => p.src / 36 = die)))
      ((ps.filter (fun p => 144 ≤ p.src)).foldl (fun d p => d.answer p 2 l 0) d) := by
  unfold Dev.multicast
  refine foldl_congr_step fun d die => ?_
  dsimp only
  cases (ps.filter (fun p => p.src < 144)).filter (fun p => p.src / 36 = die) <;> rfl

/-- A window whose slot's tag lets it, that no meeting refuses and that meets no uncorrectable word is read once for all that
asked. -/
theorem Dev.serveWindow_multicasts {w : Nat} {h : Pkt} {t : List Pkt}
    (joined : d.net.pkts.filter (fun p => p.kind = 1 && p.window = some w) = h :: t)
    (ready : (h :: t).any (fun p => p.fe = 1) = true → d.slotsReady [slotOf h.addr] true)
    (met : (d.dmaMeet h.dst false h.addr 512).2 = false)
    (clean : (d.dmaMeet h.dst false h.addr 512).1.badPhys h.addr 512 = none) :
    d.serveWindow w = (h :: t).foldl (fun d p => d.showPkt p)
      (((d.dmaMeet h.dst false h.addr 512).1.rdPhys h.addr 512).1.multicast h.dst h.addr (h :: t)
        ((d.dmaMeet h.dst false h.addr 512).1.bytes h.addr 512)) := by
  have read := Dev.rdPhys_read clean
  unfold Dev.serveWindow
  rw [joined]
  dsimp only
  cases tagged : (h :: t).filter (fun p => decide (p.fe = 1)) with
  | nil =>
    simp only [List.isEmpty_nil, Bool.not_true, Bool.false_and, Bool.false_eq_true, ↓reduceIte, met]
    rw [read]
  | cons x y =>
    obtain ⟨sound, full⟩ := ready (by
      have : x ∈ (h :: t).filter (fun p => decide (p.fe = 1)) := tagged ▸ List.mem_cons_self ..
      rw [List.mem_filter] at this
      exact List.any_eq_true.2 ⟨x, this⟩)
    have tag : d.tag (slotOf h.addr) = true := by simpa [Dev.tagsAre] using full
    simp only [d.tagBad_clean _ sound, d.tagFix_clean _ sound, tag, met, List.isEmpty_cons, Bool.not_false, Bool.not_true,
      Option.isSome_none, Bool.and_false, Bool.false_eq_true, ↓reduceIte]
    rw [read]

theorem execBulkMulticastOn_delivers {id : Nat} {p : Pkt} (runs : d.netRuns = true) (here : d.arriving id 5 = some p) :
    execBulkMulticastOn d id =
      p.targets.foldl (fun d t => d.partRead t.2.1 t.2.2.1 t.2.2.2.2 p.data) (d.dropPkt id) := by
  simp only [execBulkMulticastOn, runs, here, ↓reduceIte]

/-! ### Reductions (08 R247, R248) -/

/-- A contribution has been taken by its router, and the channel that sent it, if one did, has its burst acknowledged. -/
def Dev.redTaken (d : Dev) (id : Nat) (p : Pkt) : Dev :=
  if p.loc = noLoc then d.dropPkt id else ((d.dropPkt id).burstAcked p.loc p.ch p.pos p.len).chanGo p.loc p.ch

/-- A set is of the same reduction as a contribution. -/
def Pkt.reduces (p : Pkt) (x : RedSet) : Bool := x.router = p.router && x.redId = p.redId && x.addr = p.addr

section
variable {id : Nat} {p : Pkt} (runs : d.netRuns = true) (here : d.arriving id 4 = some p)
include runs here

theorem execBulkReduceOn_untabled (untabled : d.redEntry p.router p.redId = none) :
    execBulkReduceOn d id = (d.redTaken id p).reduceFault p.router p.addr p.reduces := by
  simp only [execBulkReduceOn, runs, here, untabled, ↓reduceIte]
  rfl

variable {w : W64} (entry : d.redEntry p.router p.redId = some w)
include entry

/-- The first contribution of a set, in a router with room, is held, or is the whole set. -/
theorem execBulkReduceOn_begins (fresh : d.net.sets.find? p.reduces = none)
    (room : (d.net.sets.filter (fun x => x.router = p.router)).length < 32) :
    execBulkReduceOn d id =
      let x : RedSet := ⟨p.router, p.redId, p.addr, p.len, [(p.port, p.data)], d.liveBeats⟩
      if (redOrder w).all (fun q => q = p.port) then execBulkReduceOn.finish (d.redTaken id p) p.router w x p.reduces
      else { d.redTaken id p with net := { (d.redTaken id p).net with sets := (d.redTaken id p).net.sets ++ [x] } } := by
  unfold Pkt.reduces at fresh
  simp only [execBulkReduceOn, runs, here, entry, fresh, Nat.not_le_of_lt room, ↓reduceIte]
  rfl

variable {x : RedSet} (known : d.net.sets.find? p.reduces = some x)
include known

/-- A second contribution of a port, or one of another length, stops the set. -/
theorem execBulkReduceOn_mismatch (bad : x.len ≠ p.len ∨ x.got.any (fun g => g.1 = p.port) = true) :
    execBulkReduceOn d id = (d.redTaken id p).reduceFault p.router p.addr p.reduces := by
  unfold Pkt.reduces at known
  have differs : (decide (x.len ≠ p.len) || x.got.any (fun g => g.1 = p.port)) = true := by simpa using bad
  simp only [execBulkReduceOn, runs, here, entry, known, differs, ↓reduceIte]
  rfl

/-- A further contribution joins its set, or completes it. -/
theorem execBulkReduceOn_joins (len : x.len = p.len) (port : x.got.any (fun g => g.1 = p.port) = false) :
    execBulkReduceOn d id =
      let x' := { x with got := x.got ++ [(p.port, p.data)] }
      if (redOrder w).all (fun q => x'.got.any (fun g => g.1 = q)) then
        execBulkReduceOn.finish (d.redTaken id p) p.router w x' p.reduces
      else { d.redTaken id p with net := { (d.redTaken id p).net with
        sets := (d.redTaken id p).net.sets.map (fun y => if p.reduces y then x' else y) } } := by
  unfold Pkt.reduces at known
  have agrees : (decide (x.len ≠ p.len) || x.got.any (fun g => g.1 = p.port)) = false := by simpa [len] using port
  simp only [execBulkReduceOn, runs, here, entry, known, agrees, Bool.false_eq_true, ↓reduceIte]
  rfl

end

/-- A set that has waited REDUCE_TIMEOUT beats stops. -/
theorem execReduceTimeoutOn_stops {b : Nat} {x : RedSet} (runs : d.netRuns = true)
    (late : d.net.sets.find? (fun x => x.router = b && decide (x.since + d.get Reg.SYNC_CTRL_REDUCE_TIMEOUT ≤ d.liveBeats)) =
      some x) :
    execReduceTimeoutOn d b = d.reduceFault b x.addr (fun y => y.router = b && y.redId = x.redId && y.addr = x.addr) := by
  simp only [execReduceTimeoutOn, late, runs, ↓reduceIte]

/-! ### Link replays (08 R244, 17 R465) -/

/-- The failures of a link cycle are counted as replays, eight at most. -/
def Dev.replayed (d : Dev) (b n : Nat) : Dev := d.addTo (Reg.NET_COUNT_LINK_REPLAYS b) (min n 8)

section
variable {b port n : Nat} (runs : d.netRuns = true) (hb : b < 144) (has : hasPort b port = true) (outer : port ≠ 0) (failed : 1 ≤ n)
include runs hb has outer failed

theorem execLinkCrcReplayOn_replays (h : n < 8 ∨ d.net.badLinks.contains (b, port) = true) :
    execLinkCrcReplayOn d b port n = d.replayed b n := by
  have stays : n < 8 ∨ (d.replayed b n).net.badLinks.contains (b, port) = true := by rwa [Dev.replayed, Dev.addTo_net]
  have there : (!(decide (b < 144) && hasPort b port && decide (port ≠ 0) && d.netRuns && decide (1 ≤ n))) = false := by
    simp [runs, hb, has, outer, failed]
  simp only [execLinkCrcReplayOn, there, Bool.false_eq_true, ↓reduceIte]
  exact if_pos stays

/-- Eight failures in succession mark the link failed. -/
theorem execLinkCrcReplayOn_fails (eight : 8 ≤ n) (sound : d.net.badLinks.contains (b, port) = false) :
    execLinkCrcReplayOn d b port n =
      ({ d.replayed b n with net := { (d.replayed b n).net with
          badLinks := (d.replayed b n).net.badLinks ++ [(b, port)] } } : Dev).fault { kind := fkLinkFailed, unit := b } dSafe := by
  have fails : ¬ (n < 8 ∨ (d.replayed b n).net.badLinks.contains (b, port) = true) := by
    rw [Dev.replayed, Dev.addTo_net, sound]
    simpa using eight
  have there : (!(decide (b < 144) && hasPort b port && decide (port ≠ 0) && d.netRuns && decide (1 ≤ n))) = false := by
    simp [runs, hb, has, outer, failed]
  simp only [execLinkCrcReplayOn, there, Bool.false_eq_true, ↓reduceIte]
  exact if_neg fails

end

/-! ### The rows -/

section
variable {s : State} {e : Dev} {b : Nat}

theorem exec_bulkReduce {id : Nat} (h : execBulkReduceOn s.dev id = e) : exec (.bulkReduce id) s = .next (s.withDev e) :=
  State.upd_eq (f := (execBulkReduceOn · id)) h

theorem exec_linkCrcReplay {port n : Nat} (h : execLinkCrcReplayOn s.dev b port n = e) :
    exec (.linkCrcReplay b port n) s = .next (s.withDev e) :=
  State.upd_eq (f := (execLinkCrcReplayOn · b port n)) h

end

/-- Settles O48: each row is its change of the network, said above. -/
theorem mergesAndReductions : Obligations.MergesAndReductions := by
  refine ⟨⟨?_, ?_⟩, ?_, ?_, ?_⟩
  · intro s b slot w h t runs hb here d joined ready m met clean l far near
    have served := (execMergeWindowCloseOn_serves runs hb here).trans (Dev.serveWindow_multicasts joined ready met clean)
    have copies : (m.1.rdPhys h.addr 512).1.multicast h.dst h.addr (h :: t) l = near := by
      rw [Dev.multicast_eq]
      refine foldl_congr_step fun d die => ?_
      cases ((h :: t).filter (fun p => p.src < 144)).filter (fun p => p.src / 36 = die) <;> rfl
    exact State.upd_eq (f := (execMergeWindowCloseOn · b slot))
      (served.trans (congrArg (fun d => (h :: t).foldl (fun d p => d.showPkt p) d) copies))
  · exact fun s id p runs here => State.upd_eq (f := (execBulkMulticastOn · id)) (execBulkMulticastOn_delivers runs here)
  · intro s id p runs here same got
    refine ⟨fun untabled => exec_bulkReduce (execBulkReduceOn_untabled runs here untabled),
      fun w entry => ⟨fun fresh room => exec_bulkReduce (execBulkReduceOn_begins runs here entry fresh room),
        fun x known => ⟨fun bad => exec_bulkReduce (execBulkReduceOn_mismatch runs here entry known bad),
          fun len port => exec_bulkReduce (execBulkReduceOn_joins runs here entry known len port)⟩⟩⟩
  · exact fun s b x runs late => State.upd_eq (f := (execReduceTimeoutOn · b)) (execReduceTimeoutOn_stops runs late)
  · intro s b port n runs hb has outer failed d
    exact ⟨fun h => exec_linkCrcReplay (execLinkCrcReplayOn_replays runs hb has outer failed h),
      fun eight sound => exec_linkCrcReplay (execLinkCrcReplayOn_fails runs hb has outer failed eight sound)⟩

end Sys2Proof.Machine
end

section
/-! PROOF. Meetings of scratchpad ports under STRICT: the pair that meets, the engine's record and the packet that are refused
(07 R213 to R216, R234, 08 R244; log entry 51). -/

namespace Sys2Proof.Machine

variable {d : Dev} {b : Nat}

/-! ### Two uses whose banks meet (07 R213 to R216) -/

/-- The use that a meeting under STRICT refuses: the later one in R213's order, or in the second cycle of the other's
partial-word write the one that does not write. -/
def strictRefuses (v : W64) (x y : PortUse) : PortUse :=
  let later := decide (portOrder y.port < portOrder x.port)
  if later != (bit v 0 && (if later then decide (x.part &&& y.banks ≠ 0) else decide (y.part &&& x.banks ≠ 0))) then x else y

section
variable {x y : PortUse} (hp : x.port ≠ y.port) (hb : x.banks &&& y.banks ≠ 0)

/-- Both ports of a meeting have waited, for the open numbers of cycles in a free value. -/
def Dev.pairWaited (d : Dev) (b : Nat) (x y : PortUse) : Dev :=
  (({ d with free := d.free + 1 } : Dev).addWaits b x.port (fld (Config.freeWord d.free) 31 0)).addWaits b y.port
    (fld (Config.freeWord d.free) 63 32)

theorem Dev.pairWaited_strict (d : Dev) (b : Nat) (x y : PortUse) :
    (d.pairWaited b x y).get (Reg.SP_CTRL_STRICT b) = d.get (Reg.SP_CTRL_STRICT b) :=
  (Dev.addWaits_strict _ b _ _).trans (Dev.addWaits_strict _ b _ _)

include hp hb

/-- A meeting counts its waits; without one, or without STRICT, neither use is refused. -/
theorem Dev.meetPair_passes (h : Config.freeWord d.free = 0 ∨ d.get (Reg.SP_CTRL_STRICT b) ≠ 1) :
    d.meetPair b x y = (d.pairWaited b x y, none) := by
  have lax : (decide (Config.freeWord d.free = 0) || decide ((d.pairWaited b x y).get (Reg.SP_CTRL_STRICT b) ≠ 1)) = true := by
    rw [Dev.pairWaited_strict]; simpa using h
  unfold Dev.meetPair Dev.free?
  dsimp only
  rw [if_neg (by simp [hp, hb])]
  exact if_pos lax

theorem Dev.meetPair_refuses (meets : Config.freeWord d.free ≠ 0) (strict : d.get (Reg.SP_CTRL_STRICT b) = 1) :
    d.meetPair b x y = (d.pairWaited b x y, some (strictRefuses (Config.freeWord d.free) x y)) := by
  have refuses : ¬ (decide (Config.freeWord d.free = 0) || decide ((d.pairWaited b x y).get (Reg.SP_CTRL_STRICT b) ≠ 1)) = true := by
    rw [Dev.pairWaited_strict]; simpa [strict] using meets
  unfold Dev.meetPair Dev.free?
  dsimp only
  rw [if_neg (by simp [hp, hb])]
  refine (if_neg refuses).trans ?_
  unfold strictRefuses
  rfl

omit hp hb in
/-- Where no partial-word write is met, the later use in R213's order is refused. -/
theorem strictRefuses_later {v : W64} (h : bit v 0 = false ∨ x.part &&& y.banks = 0 ∧ y.part &&& x.banks = 0) :
    strictRefuses v x y = if portOrder y.port < portOrder x.port then x else y := by
  have first : (bit v 0 && (if decide (portOrder y.port < portOrder x.port) then decide (x.part &&& y.banks ≠ 0)
      else decide (y.part &&& x.banks ≠ 0))) = false := by
    rcases h with h | ⟨hx, hy⟩
    · simp [h]
    · simp [hx, hy]
  unfold strictRefuses
  dsimp only
  rw [first, Bool.bne_false]
  simp only [decide_eq_true_eq]

end

/-! ### An engine's record at its ports (07 R216) -/

section
variable {e : Nat} {p : Plan}

/-- A record whose tagged ends are as they want them comes to its work. -/
theorem engPhases_work {r : EngRun} (full : d.slotsReady (p.fullSlots b) true) (empty : d.slotsReady (p.emptySlots b) false)
    (here : ((d.bn b).eng e).cur = some r) (hk : r.phase = 1) :
    (let d := engAt e 1 d b (engTags e 2 (p.fullSlots b) true d b)
     let d := engAt e 2 d b (engTags e 3 (p.emptySlots b) false d b)
     engAt e 3 d b (engWork e p d b)) =
      engWork e p (engPhase e 3 (engPhase e 2 d b) b) b { r with phase := 3, wait := none } := by
  have source : engAt e 1 d b (engTags e 2 (p.fullSlots b) true d b) = engPhase e 2 d b :=
    (engAt_phase here hk _).trans (engTags_ready full 2 r)
  have empty' : (engPhase e 2 d b).slotsReady (p.emptySlots b) false := empty
  have here2 := engPhase_cur here 2
  have here3 := engPhase_cur here2 3
  simp only [source, engAt_phase here2 rfl, engTags_ready empty', engAt_phase here3 rfl]

/-- A record that a meeting refuses at one of its ports stops as CONFLICT_STRICT and as a schedule fault. -/
theorem engWork_conflicts {r : EngRun} {m : Dev} {port : Nat} (met : engMeet e r.item.words p d b = (m, some port)) :
    engWork e p d b r = seqFault ((engDrop m b e).conflict b port) b (recId r.item.words) 0 := by
  simp only [engWork, met]

variable {it : Item} {rest : List Item} (idle : ((d.bn b).eng e).cur = none) (queue : ((d.bn b).eng e).queue = it :: rest)
  (running : d.js = jsRunning) (alone : e = 2 → (d.bn b).last.cur = none) (named : d.badRanges b (engLatch e d b it).1 = none)
  (checked : (enginePlan e (d.engNamed b e it) b (engLatch e d b it).2).isOk = true)
  (plan : enginePlan e (d.engTaken b e it rest) b (engLatch e d b it).2 = .ok p)
  (leave : leaveOk (d.engTaken b e it rest) b (leaveUnits (d.engTaken b e it rest) (engLeave it.words)) = true)
  (full : (d.engStarted b e it rest).slotsReady (p.fullSlots b) true)
  (empty : (d.engStarted b e it rest).slotsReady (p.emptySlots b) false)
include idle queue running alone named checked plan leave full empty

/-- The record at the head of an engine's queue, with its leave and its tags, stops where a meeting refuses one of its ports. -/
theorem engRun_conflicts {port : Nat} (met : ((d.engStarted b e it rest).engMet b e it.words p).2 = some port) :
    engRun e d b = seqFault ((engDrop ((d.engStarted b e it rest).engMet b e it.words p).1 b e).conflict b port) b
      (recId it.words) 0 := by
  have start := engStart_takes idle queue running alone named checked
  have taken : (((d.engTaken b e it rest).bn b).eng e).cur = some ⟨(engLatch e d b it).2, 0, none⟩ := by
    rw [Dev.engTaken, Dev.eng_onEng_self]
  have held : engLeaveStep e (d.engTaken b e it rest) b = d.engStarted b e it rest := engLeaveStep_held taken rfl leave
  have started : (((d.engStarted b e it rest).bn b).eng e).cur = some ⟨(engLatch e d b it).2, 1, none⟩ := by
    rw [Dev.engStarted, noteNeed_bn, engPhase_cur taken]
  have works := engPhases_work full empty started rfl
  have refused := engWork_conflicts (r := ⟨(engLatch e d b it).2, 3, none⟩) (Prod.ext rfl met)
  simp only [engRun, start, taken, plan, held]
  exact works.trans refused

end

/-- Settles O60: the pair's meeting, the engine's record with and without a refusal, and the WRITE that meets its bench's ports. -/
theorem meetingsUnderStrict : Obligations.MeetingsUnderStrict := by
  refine ⟨?_, ?_, ?_⟩
  · intro d b x y hp hb v
    by_cases h : v = 0 ∨ d.get (Reg.SP_CTRL_STRICT b) ≠ 1
    · rw [Dev.meetPair_passes hp hb h]
      exact ⟨rfl, iff_of_true rfl h, fun meets strict => absurd strict (h.resolve_left meets)⟩
    · obtain ⟨meets, strict⟩ : v ≠ 0 ∧ d.get (Reg.SP_CTRL_STRICT b) = 1 := by simpa using h
      rw [Dev.meetPair_refuses hp hb meets strict]
      exact ⟨rfl, iff_of_false nofun h, fun _ _ first => congrArg some (strictRefuses_later first)⟩
  · intro s b e it rest i p hb running going voting row idle queue alone named checked plan leave d full empty m clean
    have finishes : s.dev.finishes = true := by simp [Dev.finishes, Dev.runs, running, going, voting]
    have head : engHead s.dev b e = some it := by simp only [engHead, idle, queue, List.head?_cons]
    rw [row.exec_eq hb finishes head]
    cases met : m.2 with
    | none =>
      obtain ⟨read, works⟩ := clean met
      have ok : s.dev.EngRuns b e it rest p := ⟨named, checked, plan, leave, full, empty, met, read, works⟩
      rw [ok.engRun_eq idle queue running alone]
    | some port => rw [engRun_conflicts idle queue running alone named checked plan leave full empty met]
  · intro s id p runs here routed loc untagged m bad
    have meets := execBulkWriteOn_meets runs here routed (fun h => absurd h untagged) (fun h => absurd h untagged)
    cases met : m.2 with
    | true => exact exec_bulkWrite (meets.1 met)
    | false =>
      have lands := meets.2 met (bad met) loc
      rw [if_neg untagged] at lands
      exact exec_bulkWrite lands

end Sys2Proof.Machine
end

section
/-! PROOF. Scrubbers of cellars and scratchpads, and the write-backs of what they correct (07 R218, R220, 10 R294, R296). -/

namespace Sys2Proof.Machine

variable {d : Dev}

/-! ### Floors and stored errors -/

@[simp] theorem Dev.floor_onFloor_self (d : Dev) (k : Nat) (f : FloorSt → FloorSt) : (d.onFloor k f).floor k = f (d.floor k) :=
  SMap.get_set_self ..

/-- No error is stored at an address whose errors have been dropped. -/
theorem SMap.get_dropped (m : SMap Nat) (a : Nat) : SMap.get (fun _ => 0) (m.filter (fun e => e.1 ≠ a)) a = 0 := by
  rw [SMap.get_filter (fun _ => 0) m (fun k => k ≠ a) a, if_neg (by simp)]

/-! ### Cellars (10 R294, R296) -/

/-- What a scrub read of the codeword at `a` leaves, and whether the segment is being cleared (10 R294, R296, R297). -/
def Dev.codewordScrubbed (d : Dev) (k a e : Nat) : Dev :=
  if d.clearing.contains (a / 2 ^ 30) ∨ e = 0 then d
  else if e = 3 then ((d.noteErr a 3).inc (Reg.CELLAR_ECC_UNCORRECTABLE k)).fault
    { kind := fkLatent, unit := 144 + k, addr := a } dLatent
  else (d.noteErr a e).codewordRead a e

section
variable {k : Nat} (awake : d.awake (4 + k) = true)
include awake

theorem cellarScrub_reads {ch : Nat} (hk : k < 8) (hch : ch < 32) (enabled : d.get (Reg.CELLAR_CTRL_SCRUB_EN k) = 1) (seen : Ecc) :
    cellarScrub d k ch seen =
      let pos := SMap.get (fun _ => 0) (d.floor k).scrubPos ch
      let a := channelAddr k ch (64 * pos)
      let next := if pos + 1 = channelWords then 0 else pos + 1
      let d' := (d.codewordScrubbed k a (d.scrubbed a seen)).onFloor k (fun f => { f with
        scrubPos := SMap.set (fun _ => 0) f.scrubPos ch next, dieCounts := if ch = 0 ∧ next = 0 then [] else f.dieCounts })
      if ch = 0 ∧ next = 0 then d'.inc (Reg.CELLAR_DIE_PASSES k) else d' := by
  simp only [cellarScrub, Dev.codewordScrubbed, hk, hch, awake, enabled, decide_true, Bool.and_self, Bool.not_true,
    Bool.false_eq_true, ↓reduceIte, Bool.or_eq_true, Bool.and_eq_true, decide_eq_true_eq]

/-- A write-back of a corrected codeword takes it off the list, and no error is left at its place. -/
theorem cellarWriteback_writes {a : Nat} (waits : a ∈ (d.floor k).writeBacks) (correctable : SMap.get (fun _ => 0) d.errs a ≠ 3) :
    SMap.get (fun _ => 0) (cellarWriteback d k a).errs a = 0 ∧ a ∉ ((cellarWriteback d k a).floor k).writeBacks ∧
      (cellarWriteback d k a).mem = d.mem := by
  have here : ((d.floor k).writeBacks.contains a && d.awake (4 + k)) = true := by simp [waits, awake]
  have off_list : a ∉ ((d.onFloor k (fun f => { f with writeBacks := f.writeBacks.filter (· ≠ a) })).floor k).writeBacks := by
    rw [Dev.floor_onFloor_self]
    simp
  unfold cellarWriteback
  rw [if_pos here]
  dsimp only
  rw [Dev.onFloor_errs, if_neg correctable]
  exact ⟨SMap.get_dropped .., off_list, rfl⟩

end

/-! ### Scratchpads (07 R218, R220) -/

section
variable {b : Nat} (awake : d.awake (b / 36) = true)

/-- A bank's scrubber moves on from the line at `pos`; bank 0's counts the passes. -/
def Dev.scrubAdvanced (d : Dev) (b bank pos : Nat) : Dev :=
  let d := d.onBn b (fun x => { x with scrubPtr := SMap.set (fun _ => 0) x.scrubPtr bank ((pos + 1) % 1024) })
  if bank = 0 ∧ pos = 1023 then d.inc (Reg.SP_SCRUB_PASSES b) else d

/-- A word of a scratchpad is found in error: an uncorrectable one is reported as latent, a correctable one waits for its
write-back. -/
def Dev.wordFound (d : Dev) (b off code : Nat) : Dev :=
  if code = 3 ∨ SMap.get (fun _ => 0) d.errs (spBase b + off) = 3 then
    (((d.noteErr (spBase b + off) 3).spLastFault b 3 6 off).inc (Reg.SP_ECC_UNCORRECTABLE b)).fault
      { kind := fkLatent, unit := b, addr := spBase b + off } dLatent
  else if code = 1 then
    ((d.noteErr (spBase b + off) 1).inc (Reg.SP_ECC_CORRECTED b)).onBn b (fun x =>
      if x.writeBacks.contains off then x else { x with writeBacks := x.writeBacks ++ [off] })
  else d

include awake

/-- The scrubber of a line with no uncorrectable word stored takes the words that it finds in error, one by one. -/
theorem scratchScrub_reads {bank : Nat} (hb : b < 144) (hbank : bank < 64) (enabled : d.get (Reg.SP_CTRL_SCRUB_EN b) = 1)
    (stored : (d.errIn (spBase b + (bank * 131072 + SMap.get (fun _ => 0) (d.bn b).scrubPtr bank * 128)) 128).filter
      (fun e => e.2 = 3) = []) (seen : List (Nat × Nat)) :
    scratchScrub d b bank seen =
      let pos := SMap.get (fun _ => 0) (d.bn b).scrubPtr bank
      (seen.foldl (fun d p => d.wordFound b (bank * 131072 + pos * 128 + 8 * (p.1 % 16)) p.2) d).scrubAdvanced b bank pos := by
  have all (l : List (Nat × Nat)) : l.filter (fun _ => true) = l := List.filter_eq_self.2 fun _ _ => rfl
  simp only [scratchScrub, hb, hbank, awake, enabled, stored, decide_true, Bool.and_self, Bool.not_true, Bool.false_eq_true,
    ↓reduceIte, Bool.or_eq_true, Bool.and_eq_true, decide_eq_true_eq, List.map_nil, List.any_nil, Bool.not_false,
    List.append_nil, all]
  rfl

/-- A write-back of a corrected word takes it off the list, and no error is left at its place. -/
theorem scratchWriteback_writes {off : Nat} (waits : off ∈ (d.bn b).writeBacks)
    (correctable : SMap.get (fun _ => 0) d.errs (spBase b + off) ≠ 3) :
    SMap.get (fun _ => 0) (scratchWriteback d b off).errs (spBase b + off) = 0 ∧
      off ∉ ((scratchWriteback d b off).bn b).writeBacks ∧ (scratchWriteback d b off).mem = d.mem := by
  have here : ((d.bn b).writeBacks.contains off && d.awake (b / 36)) = true := by simp [waits, awake]
  have off_list : off ∉ ((d.onBn b (fun x => { x with writeBacks := x.writeBacks.filter (· ≠ off) })).bn b).writeBacks := by
    rw [Dev.bn_onBn_self]
    simp
  unfold scratchWriteback
  rw [if_pos here]
  by_cases clean : SMap.get (fun _ => 0) d.errs (spBase b + off) = 0
  · rw [if_pos (by simpa using .inl clean)]
    exact ⟨clean, off_list, rfl⟩
  · rw [if_neg (by simpa using ⟨clean, correctable⟩)]
    exact ⟨SMap.get_dropped .., off_list, rfl⟩

end

/-- Settles O40: what each scrubber's read leaves, and what each write-back clears. -/
theorem scrubbersRead : Obligations.ScrubbersRead := by
  refine ⟨?_, ?_, ?_, ?_⟩
  · intro s k ch seen hk hch awake enabled pos a next e d d'
    exact State.upd_eq (f := (cellarScrub · k ch seen)) (cellarScrub_reads awake hk hch enabled seen)
  · intro s k a _ awake waits correctable
    exact ⟨_, rfl, cellarWriteback_writes awake waits correctable⟩
  · intro s b bank hb hbank awake enabled pos base adv stored
    have reads (seen : List (Nat × Nat)) :
        exec (.scratchpadScrubRead b bank seen) s = .next (s.withDev (adv
          (seen.foldl (fun d p => d.wordFound b (base + 8 * (p.1 % 16)) p.2) s.dev))) :=
      State.upd_eq (f := (scratchScrub · b bank seen)) (scratchScrub_reads awake hb hbank enabled stored seen)
    refine ⟨reads [], fun n hn sound => ⟨?_, ?_⟩⟩
    · rw [reads, List.foldl_cons, List.foldl_nil, Nat.mod_eq_of_lt hn, Dev.wordFound, if_neg (by simpa using sound), if_pos rfl]
    · rw [reads, List.foldl_cons, List.foldl_nil, Nat.mod_eq_of_lt hn, Dev.wordFound, if_pos (.inl rfl)]
  · intro s b off _ awake waits correctable
    exact ⟨_, rfl, scratchWriteback_writes awake waits correctable⟩

end Sys2Proof.Machine
end

section
/-! SUPPORT. A memory command passes the DMA ports of scratchpads that are not under STRICT: waits are counted, and neither
memory, stored errors nor the STRICT bits change (07 R213 to R216, R234, 18 R497). -/

namespace Sys2Proof.Machine

/-! ### What a packet's number, a waking and a meeting keep -/

/-- Memory, stored errors, flash and the STRICT bits of `e` are those of `d`. -/
structure Dev.KeepsMemory (d e : Dev) : Prop where
  mem : e.mem = d.mem
  errs : e.errs = d.errs
  flash : e.flash = d.flash
  strict : ∀ b, e.get (Reg.SP_CTRL_STRICT b) = d.get (Reg.SP_CTRL_STRICT b)

section
variable {d e f : Dev}

theorem Dev.KeepsMemory.refl (d : Dev) : d.KeepsMemory d := ⟨rfl, rfl, rfl, fun _ => rfl⟩

theorem Dev.KeepsMemory.trans (h : d.KeepsMemory e) (h' : e.KeepsMemory f) : d.KeepsMemory f :=
  ⟨h'.mem.trans h.mem, h'.errs.trans h.errs, h'.flash.trans h.flash, fun b => (h'.strict b).trans (h.strict b)⟩

/-- What every step of a fold keeps, the fold keeps. -/
theorem Dev.KeepsMemory.foldl {β : Type} {g : Dev → β → Dev} {l : List β} (h : ∀ d : Dev, ∀ x ∈ l, d.KeepsMemory (g d x)) (d : Dev) :
    d.KeepsMemory (l.foldl g d) :=
  List.foldlRecOn (motive := fun e => d.KeepsMemory e) l g (.refl d) fun e he x hx => he.trans (h e x hx)

/-- What both branches keep is kept. -/
theorem Dev.KeepsMemory.ite {c : Prop} [Decidable c] (he : d.KeepsMemory e) (hf : d.KeepsMemory f) :
    d.KeepsMemory (if c then e else f) := by
  split
  · exact he
  · exact hf

theorem Dev.KeepsMemory.errIn (h : d.KeepsMemory e) (a n : Nat) : e.errIn a n = d.errIn a n := by
  rw [Dev.errIn, h.errs, Dev.errIn]

theorem Dev.KeepsMemory.relaxed (h : d.KeepsMemory e) {l : List (Nat × Nat)} (hl : d.Relaxed l) : e.Relaxed l := by
  intro r hr
  rw [h.strict]
  exact hl r hr

end

/-- The control register of a scratchpad is none of the hub's. -/
theorem spCtrl_ne_hub (b : Nat) {a : Nat} (h : a < 0xFF01000000) : Reg.SP_CTRL b ≠ a := by
  unfold Reg.SP_CTRL benchBase; omega

variable (d : Dev)

theorem Dev.taken_keepsMemory (op : Nat) (h : Hdr) : d.KeepsMemory (d.takeNumber op h) :=
  ⟨d.taken_mem op h, d.taken_errs op h, d.taken_flash op h, fun b =>
    d.taken_get op h _ (spCtrl_ne_hub b (by decide)) (spCtrl_ne_hub b (by decide))⟩

theorem Dev.setPower_keepsMemory (n : Nat) : d.KeepsMemory (d.setPower n) := by
  refine ⟨d.setPower_mem n, d.setPower_errs n, d.setPower_flash n, fun b => ?_⟩
  unfold Dev.setPower
  dsimp only
  split
  · rfl
  · rw [Dev.logEv_get, Dev.get_set_ne _ (by decide) _ (.inl (spCtrl_ne_hub b (by decide)))]

theorem Dev.wakeUnits_keepsMemory (l : List Nat) : d.KeepsMemory (d.wakeUnits l) := by
  unfold Dev.wakeUnits
  extract_lets up e
  have resting : d.KeepsMemory e := ⟨rfl, rfl, rfl, fun _ => rfl⟩
  exact .ite (resting.trans (e.setPower_keepsMemory 0)) resting

theorem Dev.wakeRuns_keepsMemory (l : List (Nat × Nat)) : d.KeepsMemory (d.wakeRuns l) :=
  Dev.KeepsMemory.foldl (fun d _ _ => d.wakeUnits_keepsMemory _) d

/-! ### Meetings without STRICT -/

/-- A counter outside the benches' control registers is all that a count changes. -/
theorem Dev.addTo_keepsMemory {f : Fld} (hf : ∀ b, f.addr ≠ Reg.SP_CTRL b) (n : Nat) : d.KeepsMemory (d.addTo f n) :=
  ⟨d.addTo_mem f n, d.addTo_errs f n, d.addTo_flash f n, fun b => congrArg (fld · 35 35) (d.reg_addTo_ne n (hf b).symm)⟩

/-- No counter of a bench stands in a control register of a scratchpad. -/
theorem benchCounter_ne_spCtrl (b c : Nat) {o : Nat} (ho : o < 0x10000) (h : o ≠ 0x400) : benchBase b + o ≠ Reg.SP_CTRL c := by
  unfold Reg.SP_CTRL benchBase; omega

theorem portWaits_ne_spCtrl (b port c : Nat) : ∀ f ∈ portWaits b port, f.addr ≠ Reg.SP_CTRL c := by
  intro f hf
  have other {o : Nat} (ho : o < 0x10000 ∧ o ≠ 0x400) := benchCounter_ne_spCtrl b c ho.1 ho.2
  unfold portWaits at hf
  split at hf <;> simp only [List.mem_cons, List.not_mem_nil, or_false] at hf <;>
    rcases hf with rfl | rfl <;> exact other (by decide)

theorem Dev.addWaits_keepsMemory (b port n : Nat) : d.KeepsMemory (d.addWaits b port n) :=
  Dev.KeepsMemory.foldl (fun d f hf => d.addTo_keepsMemory (fun c => portWaits_ne_spCtrl b port c f hf) n) d

theorem Dev.meetPair_keepsMemory (b : Nat) (x y : PortUse) : d.KeepsMemory (d.meetPair b x y).1 := by
  have waited : d.KeepsMemory (d.pairWaited b x y) :=
    .trans (e := { d with free := d.free + 1 }) ⟨rfl, rfl, rfl, fun _ => rfl⟩
      (.trans (Dev.addWaits_keepsMemory ..) (Dev.addWaits_keepsMemory ..))
  unfold Dev.meetPair Dev.free?
  dsimp only
  split
  · exact .refl d
  · split <;> exact waited

theorem Dev.meetPairs_keepsMemory (b : Nat) (l : List (PortUse × PortUse)) : d.KeepsMemory (d.meetPairs b l).1 := by
  induction l generalizing d with
  | nil => exact .refl d
  | cons p l ih => exact .trans (d.meetPair_keepsMemory b p.1 p.2) (ih _)

/-- At a port that is not under STRICT the device refuses nothing, and only counts. -/
theorem Dev.dmaMeet_lax {b : Nat} (lax : d.get (Reg.SP_CTRL_STRICT b) ≠ 1) (write : Bool) (a n : Nat) :
    (d.dmaMeet b write a n).2 = false ∧ d.KeepsMemory (d.dmaMeet b write a n).1 := by
  unfold Dev.dmaMeet
  split
  · dsimp only
    rw [d.meet_lax b _ lax]
    exact ⟨rfl, d.meetPairs_keepsMemory b _⟩
  · exact ⟨rfl, .refl d⟩

/-- Runs of scratchpads that are not under STRICT pass their ports. -/
theorem Dev.hostMeet_relaxed {l : List (Nat × Nat)} (h : d.Relaxed l) (write : Bool) :
    (d.hostMeet l write).2 = false ∧ d.KeepsMemory (d.hostMeet l write).1 := by
  unfold Dev.hostMeet
  refine List.foldlRecOn (motive := fun x : Dev × Bool => x.2 = false ∧ d.KeepsMemory x.1) l _ ⟨rfl, .refl d⟩ ?_
  rintro ⟨e, refused⟩ ⟨rfl, kept⟩ r hr
  dsimp only
  split
  · exact ⟨rfl, kept⟩
  · next scratch =>
    have above : ¬ r.1 < cellarEnd := fun hlt => scratch (by simp [hlt])
    obtain ⟨passes, met⟩ := e.dmaMeet_lax ((kept.relaxed h r hr).resolve_left above) write r.1 r.2
    rw [passes]
    simp only [Bool.false_eq_true, ↓reduceIte, Bool.or_false, true_and]
    exact kept.trans (.ite met (met.trans (Dev.addTo_keepsMemory _
      (fun c => benchCounter_ne_spCtrl _ c (by decide) (by decide)) _)))

end Sys2Proof.Machine
end

section
/-! SUPPORT. Ranges of memory commands: what they read and write without a stored error, and how many bytes they cover (15 R427). -/

namespace Sys2Proof.Machine

/-! ### Lengths -/

theorem Dev.length_bytes (d : Dev) (a n : Nat) : (d.bytes a n).length = n := by
  rw [Dev.bytes, Memory.readRun_eq, List.length_map, List.length_range]

theorem length_bytesWords (n : Nat) (l : List Byte) : (bytesWords n l).length = n := by
  induction n generalizing l with
  | zero => rfl
  | succ n ih => rw [bytesWords, List.length_cons, ih]

theorem length_packWords (l : List Byte) : (packWords l).length = (l.length + 7) / 8 := length_bytesWords ..

theorem length_toLe (n v : Nat) : (toLe n v).length = n := by
  induction n generalizing v with
  | zero => rfl
  | succ n ih => rw [toLe, List.length_cons, ih]

theorem length_wordsBytes (w : List W64) : (wordsBytes w).length = 8 * w.length := by
  induction w with
  | nil => rfl
  | cons v w ih =>
    rw [wordsBytes, List.flatMap_cons, List.length_append, wordBytes, length_toLe, List.length_cons]
    exact (congrArg (8 + ·) ih).trans (by omega)

/-- The bytes that runs cover. -/
def runsTotal (l : List (Nat × Nat)) : Nat := (l.map Prod.snd).sum

theorem runsTotal_append (l m : List (Nat × Nat)) : runsTotal (l ++ m) = runsTotal l + runsTotal m := by
  simp [runsTotal]

theorem Dev.length_runsBytes (d : Dev) (l : List (Nat × Nat)) :
    (l.flatMap (fun r => d.bytes r.1 r.2)).length = runsTotal l := by
  simp only [List.length_flatMap, Dev.length_bytes]
  rfl

/-! ### What a range covers -/

theorem runsTotal_cutPhys_le (f a n : Nat) : runsTotal (cutPhys f a n) ≤ n := by
  induction f generalizing a n with
  | zero => exact Nat.zero_le n
  | succ f ih =>
    unfold cutPhys
    split
    · exact Nat.zero_le n
    · dsimp only
      generalize hm : (if a < cellarEnd then n else min n (spSize - a % spSize)) = m
      have le : m ≤ n := by rw [← hm]; split <;> omega
      have rest := ih (a + m) (n - m)
      show m + runsTotal (cutPhys f (a + m) (n - m)) ≤ n
      omega

theorem runsTotal_cutRuns_le (l : List (Xl × Nat)) :
    runsTotal (l.flatMap (fun r => cutPhys 146 r.1.phys r.2)) ≤ (l.map Prod.snd).sum := by
  induction l with
  | nil => exact Nat.le_refl 0
  | cons r l ih =>
    rw [List.flatMap_cons, runsTotal_append, List.map_cons, List.sum_cons]
    exact Nat.add_le_add (runsTotal_cutPhys_le 146 r.1.phys r.2) ih

theorem Dev.xlateRange_total {d : Dev} {f a n : Nat} {l : List (Xl × Nat)} (h : d.xlateRange f a n = some l) :
    (l.map Prod.snd).sum = n := by
  induction f generalizing a n l with
  | zero =>
    unfold Dev.xlateRange at h
    split at h
    · next h0 => cases h; exact h0.symm
    · cases h
  | succ f ih =>
    unfold Dev.xlateRange at h
    split at h
    · next h0 => cases h; exact h0.symm
    · dsimp only at h
      split at h
      · next x rest _ hrest =>
        cases h
        rw [List.map_cons, List.sum_cons, ih hrest]
        exact Nat.add_sub_cancel' (Nat.min_le_left ..)
      · cases h

/-- The runs of a range, if the checks give any, cover no more than `n` bytes. -/
def MemTo.Within (t : MemTo) (n : Nat) : Prop := ∀ l, t = .runs l → runsTotal l ≤ n

/-- A range that no check refuses, and for which nothing waits, is what stands behind the check. -/
theorem MemTo.runs_of_ite {c : Prop} [Decidable c] {x t : MemTo} {l : List (Nat × Nat)} (h : (if c then x else t) = .runs l)
    (hx : x ≠ .runs l) : t = .runs l := by
  split at h
  · exact absurd h hx
  · exact h

theorem MemTo.Within.and {t u : MemTo} {m n : Nat} (ht : t.Within m) (hu : u.Within n) : (t.and u).Within (m + n) := by
  intro l h
  cases t with
  | runs a =>
    cases u with
    | runs b =>
      cases h
      rw [runsTotal_append]
      exact Nat.add_le_add (ht a rfl) (hu b rfl)
    | no c => cases h
    | hold => cases h
  | no c => cases h
  | hold => cases h

section
variable (d : Dev) (a n : Nat) (write : Bool)

theorem Dev.physTo_within : (d.physTo a n write).Within n := by
  intro l h
  have addressed := MemTo.runs_of_ite h nofun
  have writable := MemTo.runs_of_ite addressed nofun
  have readable := MemTo.runs_of_ite writable nofun
  have unmapped := MemTo.runs_of_ite readable nofun
  have kept := MemTo.runs_of_ite unmapped nofun
  cases MemTo.runs_of_ite kept nofun
  exact runsTotal_cutPhys_le 146 a n

theorem Dev.jobTo_within : (d.jobTo a n write).Within n := by
  intro l h
  have loaded := MemTo.runs_of_ite h nofun
  split at loaded
  · cases loaded
  · next runs mapped =>
    have settled := MemTo.runs_of_ite loaded nofun
    cases MemTo.runs_of_ite settled nofun
    rw [← Dev.xlateRange_total mapped]
    exact runsTotal_cutRuns_le runs

variable (w : W64) (off : Nat)

theorem Dev.memTo_within : (d.memTo w off n write).Within n := by
  unfold Dev.memTo
  split
  · intro l h
    split at h <;> cases h
    exact Nat.zero_le n
  · split
    · exact d.jobTo_within _ n write
    · exact d.physTo_within _ n write

theorem Dev.memLines_within (line stride lines : Nat) : (d.memLines w line stride lines write).Within (line * lines) := by
  have counted (k : Nat) : ((List.range k).foldl (fun t i => t.and (d.memTo w (i * stride) line write))
      (d.memTo w 0 0 write)).Within (line * k) := by
    induction k with
    | zero => exact d.memTo_within 0 write w 0
    | succ k ih =>
      rw [List.range_succ, List.foldl_append]
      exact ih.and (d.memTo_within line write w (k * stride))
  unfold Dev.memLines
  split
  · next h => subst h; simpa using counted 0
  · exact counted lines

end

/-! ### Runs without a stored error (07 R218, 10 R294) -/

section
variable {d : Dev} {a n : Nat} (clean : d.errIn a n = [])
include clean

theorem Dev.badPhys_of_errIn : d.badPhys a n = none := by simp [Dev.badPhys, clean]

theorem Dev.badWrite_of_errIn : d.badWrite a n = none := by simp [Dev.badWrite, clean]

theorem Dev.metPartly_of_errIn : d.metPartly a n = d := by simp [Dev.metPartly, clean]

/-- A read of such a run answers its bytes and changes nothing. -/
theorem Dev.rdPhys_of_errIn (place : a < cellarEnd ∨ spBase 0 ≤ a) : d.rdPhys a n = (d, .ok (d.bytes a n)) := by
  simp only [Dev.rdPhys, Dev.badPhys_of_errIn clean]
  by_cases cellar : a < cellarEnd
  · simp only [cellar, ↓reduceIte, clean, List.foldl_nil]
  · have above : 0xF000000000 ≤ a := by simpa [spBase] using place.resolve_left cellar
    have there : spBase ((a - 0xF000000000) / 0x800000) + (a - 0xF000000000) % 0x800000 = a := by unfold spBase; omega
    simp only [cellar, ↓reduceIte, Dev.correctReads, List.flatMap_cons, List.flatMap_nil, List.append_nil, there, clean]
    rfl

end

section
variable {d : Dev} {l : List (Nat × Nat)} (clean : d.CleanRuns l)
include clean

theorem Dev.readRuns_clean : d.readRuns l = (d, .ok (l.flatMap (fun r => d.bytes r.1 r.2))) := by
  have good : l.findSome? (fun r => d.badPhys r.1 r.2) = none :=
    List.findSome?_eq_none_iff.2 fun r hr => Dev.badPhys_of_errIn (clean r hr).2
  unfold Dev.readRuns
  rw [good, ← List.nil_append (l.flatMap _)]
  dsimp only
  generalize ([] : List Byte) = acc
  clear good
  induction l generalizing acc with
  | nil => rw [List.flatMap_nil, List.append_nil]; rfl
  | cons r l ih =>
    obtain ⟨place, sound⟩ := clean r (List.mem_cons_self ..)
    rw [List.foldl_cons, List.flatMap_cons, ← List.append_assoc]
    simp only [Dev.rdPhys_of_errIn sound place]
    exact ih (fun r hr => clean r (List.mem_cons_of_mem _ hr)) _

theorem Dev.cleanRuns_badWrite : l.findSome? (fun r => d.badWrite r.1 r.2) = none :=
  List.findSome?_eq_none_iff.2 fun r hr => Dev.badWrite_of_errIn (clean r hr).2

end

end Sys2Proof.Machine
end

section
/-! PROOF. Memory reads by command, the read-out of a frozen device and IJTAG_ACCESS (15 R427, 18 R497, 21 R536, R537). -/

namespace Sys2Proof.Machine

variable {s : State} {h : Hdr} {w : List W64}

/-- A refusal that keeps what the command has counted. -/
theorem State.cmd_refusedWith {c : Cmd} (a : Sent c s h w) (ho : basicOp c.op ≠ 0x102) (hp : c.pre (s.taken c.op h) = true)
    {d' : Dev} {code detail : Nat} (hr : c.run s.fuses (s.taken c.op h) h w = .refuseWith d' code detail) :
    s.cmd c h w = .next (s.withDev (d'.refusal c.op h code detail)) := by
  unfold State.cmd
  rw [Cmd.exec_sent a ho hp, hr]
  rfl

/-! ### Memory reads (15 R427) -/

section
variable {d : Dev} {l : List (Nat × Nat)} {bad : Nat}

theorem Dev.memRead_refused (refused : ((d.wakeRuns l).hostMeet l false).2 = true) :
    d.memRead (.runs l) bad = .refuseWith ((d.wakeRuns l).hostMeet l false).1 rcFault noDetail := by
  simp only [Dev.memRead, refused, ↓reduceIte]

theorem Dev.memRead_clean (met : ((d.wakeRuns l).hostMeet l false).2 = false)
    (clean : ((d.wakeRuns l).hostMeet l false).1.CleanRuns l) :
    d.memRead (.runs l) bad = .ok ((d.wakeRuns l).hostMeet l false).1
      (packWords (l.flatMap (fun r => ((d.wakeRuns l).hostMeet l false).1.bytes r.1 r.2))) := by
  simp only [Dev.memRead, met, Bool.false_eq_true, ↓reduceIte, Dev.readRuns_clean clean]

end

/-- A command that reads runs of at most `n` bytes answers their bytes, or FAULT where a meeting refuses it. -/
theorem State.cmd_memRead {c : Cmd} (a : Sent c s h w) (ho : basicOp c.op ≠ 0x102) (hp : c.pre (s.taken c.op h) = true)
    {t : MemTo} {l : List (Nat × Nat)} {n bad : Nat} (hr : c.run s.fuses (s.taken c.op h) h w = (s.taken c.op h).memRead t bad)
    (ht : t = .runs l) (within : t.Within n) (whole : n % 8 = 0) (fits : n ≤ s.dev.replyMax) :
    let m := ((s.taken c.op h).wakeRuns l).hostMeet l false
    (m.2 = false → m.1.CleanRuns l) → s.cmd c h w = .next (s.withDev (if m.2 then m.1.refusal c.op h rcFault noDetail
      else m.1.okReply c.op h (packWords (l.flatMap (fun r => m.1.bytes r.1 r.2))))) := by
  intro m clean
  subst ht
  cases met : m.2 with
  | true => exact State.cmd_refusedWith a ho hp (hr.trans (Dev.memRead_refused met))
  | false =>
    refine State.cmd_ok a ho hp (hr.trans (Dev.memRead_clean met (clean met))) ?_
    have := within l rfl
    rw [length_packWords, Dev.length_runsBytes]
    omega

section
variable {l : List (Nat × Nat)} (h0 : reserved (wd w 0) [(63, 63), (47, 0)] = false) (addr : fld (wd w 0) 47 0 % 8 = 0)
include h0 addr

/-- What MEM_READ comes to once its parameters pass. -/
theorem cmdMemRead_run {d : Dev} (f : Fuses) (h1 : reserved (wd w 1) [(31, 0)] = false) (whole : fld (wd w 1) 31 0 % 8 = 0)
    (fits : fld (wd w 1) 31 0 ≤ d.replyMax) :
    cmdMemRead.run f d h w = d.memRead (d.memTo (wd w 0) 0 (fld (wd w 1) 31 0) false) 0 := by
  simp only [cmdMemRead, h0, h1, addr, whole, Nat.not_lt.2 fits, ne_eq, not_true_eq_false, Bool.false_eq_true, ↓reduceIte]

/-- What MEM_READ_EX comes to once its parameters pass. -/
theorem cmdMemReadEx_run {d : Dev} (f : Fuses) (h2 : reserved (wd w 2) [(63, 40)] = false) (line : fld (wd w 1) 63 40 % 8 = 0)
    (stride : fld (wd w 1) 39 0 % 8 = 0) (fits : fld (wd w 1) 63 40 * fld (wd w 2) 63 40 ≤ d.replyMax) :
    cmdMemReadEx.run f d h w =
      d.memRead (d.memLines (wd w 0) (fld (wd w 1) 63 40) (fld (wd w 1) 39 0) (fld (wd w 2) 63 40) false) 0 := by
  simp only [cmdMemReadEx, h0, h2, addr, line, stride, Nat.not_lt.2 fits, ne_eq, not_true_eq_false, or_self, Bool.false_eq_true,
    ↓reduceIte]

end

/-! ### Read-out (21 R536, R537; log entry 9) -/

theorem Dev.length_freeWords (d : Dev) (n : Nat) : (Dev.freeWords n d).1.length = n := by
  induction n generalizing d with
  | zero => rfl
  | succ n ih => rw [Dev.freeWords, List.length_cons, ih]

theorem Dev.length_elementWords (d : Dev) (n a : Nat) : (Dev.elementWords n a d).1.length = n := by
  induction n generalizing d a with
  | zero => rfl
  | succ n ih => rw [Dev.elementWords, List.length_cons, ih]

/-- What STATE_READ comes to once its parameters pass. -/
theorem cmdStateRead_run {d : Dev} (f : Fuses) {a n : Nat} (h0 : reserved (wd w 0) [(31, 0)] = false)
    (h1 : reserved (wd w 1) [(15, 0)] = false) (addr : 256 * fld (wd w 0) 31 0 = a) (count : fld (wd w 1) 15 0 = n) (nonempty : 1 ≤ n)
    (fits : 8 * n ≤ d.replyMax) (there : touchesElement a n = true) :
    cmdStateRead.run f d h w = .ok (Dev.elementWords n a d).2 (Dev.elementWords n a d).1 := by
  have none_bad : (decide (n = 0) || decide (d.replyMax < 8 * n)) = false := by simp; omega
  simp only [cmdStateRead, h0, h1, addr, count, there, none_bad, Bool.false_or, Bool.or_assoc, Bool.not_true, Bool.false_eq_true,
    ↓reduceIte]

/-- A memory row of the element space shows memory. -/
theorem Dev.elementWord_memory {d : Dev} {a : Nat} (row : elementKind a = some 0) (clean : d.errIn a 8 = []) :
    d.elementWord a = (d.word a, d) := by
  simp only [Dev.elementWord, row, clean, List.isEmpty_nil, ↓reduceIte]

/-- A register row of the element space shows registers. -/
theorem Dev.elementWord_register {d : Dev} {a : Nat} (row : elementKind a = some 2) : d.elementWord a = (d.reg a, d) := by
  simp only [Dev.elementWord, row]

/-- Settles O13: memory reads answer the bytes of their runs, a port that is not under STRICT refuses none, and read-out answers
the words of the element space. -/
theorem memoryReadsAnswer : Obligations.MemoryReadsAnswer := by
  refine ⟨⟨?_, ?_, ?_⟩, ?_, ?_, ?_, ?_⟩
  · intro s h w n l sent h0 h1 addr len whole fits range
    subst len
    refine State.cmd_memRead sent (by decide) rfl (cmdMemRead_run h0 addr s.fuses h1 whole ?_) ?_
      (Dev.memTo_within _ _ _ _ _) whole fits
    · rwa [Dev.taken_replyMax]
    · rwa [Dev.taken_memTo]
  · intro s h w line stride lines l sent h0 h2 addr hline wline hstride wstride hlines fits range
    subst hline hstride hlines
    refine State.cmd_memRead sent (by decide) rfl (cmdMemReadEx_run h0 addr s.fuses h2 wline wstride ?_) ?_
      (Dev.memLines_within _ _ _ _ _ _) ?_ fits
    · rwa [Dev.taken_replyMax]
    · rwa [Dev.taken_memLines]
    · rw [Nat.mul_mod, wline, Nat.zero_mul, Nat.zero_mod]
  · intro d l write relaxed
    obtain ⟨passes, kept⟩ := d.hostMeet_relaxed relaxed write
    exact ⟨passes, kept.mem, kept.errs⟩
  · intro s h w a n sent h0 h1 addr count nonempty fits there
    have frozen : cmdStateRead.pre (s.taken cmdStateRead.op h) = true := (Dev.taken_frozen ..).trans sent.pre
    refine State.cmd_ok sent (by decide) frozen (cmdStateRead_run s.fuses h0 h1 addr count nonempty ?_ there) ?_
    · rwa [Dev.taken_replyMax]
    · rwa [Dev.length_elementWords]
  · exact fun d a row clean => Dev.elementWord_memory row clean
  · exact fun d a row => Dev.elementWord_register row
  · intro s h w sent fits
    refine State.cmd_ok sent (by decide) rfl rfl ?_
    rwa [Dev.length_freeWords]

end Sys2Proof.Machine
end

section
/-! PROOF. Memory writes by command store their bytes and change no other byte (07 R219, R234, 15 R427). -/

namespace Sys2Proof.Machine

variable {s : State} {h : Hdr} {w : List W64}

/-! ### Writes of runs (15 R427) -/

section
variable {d : Dev} {rs : List (Nat × Nat)} {l : List Byte} {after : Dev → Dev}

theorem Dev.memWrite_refused (refused : ((d.wakeRuns rs).hostMeet rs true).2 = true) :
    d.memWrite (.runs rs) l after = .refuseWith ((d.wakeRuns rs).hostMeet rs true).1 rcFault noDetail := by
  simp only [Dev.memWrite, refused, ↓reduceIte]

theorem Dev.memWrite_clean (met : ((d.wakeRuns rs).hostMeet rs true).2 = false)
    (clean : rs.findSome? (fun r => ((d.wakeRuns rs).hostMeet rs true).1.badWrite r.1 r.2) = none) :
    d.memWrite (.runs rs) l after = .ok (after (((d.wakeRuns rs).hostMeet rs true).1.writeRuns rs l)) [] := by
  simp only [Dev.memWrite, met, clean, Bool.false_eq_true, ↓reduceIte]

end

/-- A command that writes runs stores its bytes, or answers FAULT where a meeting refuses it. -/
theorem State.cmd_memWrite {c : Cmd} (a : Sent c s h w) (ho : basicOp c.op ≠ 0x102) (hp : c.pre (s.taken c.op h) = true)
    {rs : List (Nat × Nat)} {l : List Byte} {after : Dev → Dev}
    (hr : c.run s.fuses (s.taken c.op h) h w = (s.taken c.op h).memWrite (.runs rs) l after) :
    let m := ((s.taken c.op h).wakeRuns rs).hostMeet rs true
    (m.2 = false → rs.findSome? (fun r => m.1.badWrite r.1 r.2) = none) →
      s.cmd c h w = .next (s.withDev (if m.2 then m.1.refusal c.op h rcFault noDetail
        else (after (m.1.writeRuns rs l)).okReply c.op h [])) := by
  intro m clean
  cases met : m.2 with
  | true => exact State.cmd_refusedWith a ho hp (hr.trans (Dev.memWrite_refused met))
  | false => exact State.cmd_done a ho hp (hr.trans (Dev.memWrite_clean met (clean met)))

/-- What MEM_WRITE comes to once its parameters pass. -/
theorem cmdMemWrite_run {d : Dev} (f : Fuses) (h0 : reserved (wd w 0) [(63, 63), (47, 0)] = false)
    (h1 : reserved (wd w 1) [(31, 0)] = false) (addr : fld (wd w 0) 47 0 % 8 = 0) (whole : fld (wd w 1) 31 0 % 8 = 0) :
    cmdMemWrite.run f d h w = d.memWrite (d.memTo (wd w 0) 0 (fld (wd w 1) 31 0) true) (wordsBytes (w.drop 2)) id := by
  simp only [cmdMemWrite, h0, h1, addr, whole, ne_eq, not_true_eq_false, Bool.false_eq_true, ↓reduceIte]

theorem State.cmd_memWrite_runs {rs : List (Nat × Nat)} (sent : Sent cmdMemWrite s h w)
    (h0 : reserved (wd w 0) [(63, 63), (47, 0)] = false) (h1 : reserved (wd w 1) [(31, 0)] = false)
    (addr : fld (wd w 0) 47 0 % 8 = 0) (whole : fld (wd w 1) 31 0 % 8 = 0)
    (range : s.dev.memTo (wd w 0) 0 (fld (wd w 1) 31 0) true = .runs rs) :
    let m := ((s.taken 0x202 h).wakeRuns rs).hostMeet rs true
    (m.2 = false → rs.findSome? (fun r => m.1.badWrite r.1 r.2) = none) →
      s.cmd cmdMemWrite h w = .next (s.withDev (if m.2 then m.1.refusal 0x202 h rcFault noDetail
        else (m.1.writeRuns rs (wordsBytes (w.drop 2))).okReply 0x202 h [])) := by
  refine State.cmd_memWrite sent (by decide) rfl (after := id) ((cmdMemWrite_run s.fuses h0 h1 addr whole).trans ?_)
  rw [Dev.taken_memTo, range]

/-! ### MEM_WRITE_EX (15 R427; log entry 43) -/

/-- The producer position in the runs `p` of POS_ADDR has grown by `n` bytes; without POS_ADDR there is none. -/
def Dev.posAdvanced (d : Dev) (n : Nat) : List (Nat × Nat) → Dev
  | [] => d
  | r :: p =>
    let d := ((d.wakeRuns (r :: p)).rdPhys r.1 8).1
    d.wr r.1 (toLe 8 (ofLe (d.bytes r.1 8) + n))

/-- What MEM_WRITE_EX comes to once its parameters, its tallies and its POS_ADDR pass. -/
theorem cmdMemWriteEx_run {d : Dev} (f : Fuses) {l p : List (Nat × Nat)} {line stride lines pos : Nat}
    (h0 : reserved (wd w 0) [(63, 63), (47, 0)] = false) (h2 : reserved (wd w 2) [(63, 40), (0, 0)] = false)
    (h3 : reserved (wd w 3) [(47, 0)] = false) (h4 : reserved (wd w 4) [(31, 0)] = false)
    (addr : fld (wd w 0) 47 0 % 8 = 0) (hline : fld (wd w 1) 63 40 = line) (wline : line % 8 = 0)
    (hstride : fld (wd w 1) 39 0 = stride) (wstride : stride % 8 = 0) (hlines : fld (wd w 2) 63 40 = lines)
    (hpos : fld (wd w 3) 47 0 = pos) (wpos : pos % 8 = 0)
    (tallied : bit (wd w 2) 0 = true → line * lines % 4096 = 0 ∧ talliesOk (fld (wd w 4) 31 0)
      (wordsBytes ((w.drop 5).take (line * lines / 8))) (wordsBytes (w.drop (5 + line * lines / 8))) = true)
    (range : d.memLines (wd w 0) line stride lines true = .runs l)
    (place : if pos = 0 then p = [] else d.jobTo pos 8 true = .runs p ∧ p ≠ []) (sound : ∀ r ∈ p, d.errIn r.1 r.2 = []) :
    cmdMemWriteEx.run f d h w =
      d.memWrite (.runs l) (wordsBytes ((w.drop 5).take (line * lines / 8))) (Dev.posAdvanced · (line * lines) p) := by
  have bytes : exBytes w = line * lines := by rw [exBytes, hline, hlines]
  have blocks : (bit (wd w 2) 0 && decide (line * lines % 4096 ≠ 0)) = false := by
    cases h : bit (wd w 2) 0 with
    | false => rfl
    | true => simp [(tallied h).1]
  have agrees : (bit (wd w 2) 0 && !talliesOk (fld (wd w 4) 31 0) (wordsBytes ((w.drop 5).take (line * lines / 8)))
      (wordsBytes (w.drop (5 + line * lines / 8)))) = false := by
    cases h : bit (wd w 2) 0 with
    | false => rfl
    | true => simp [(tallied h).2]
  have at_ : (if pos = 0 then MemTo.runs [] else d.jobTo pos 8 true) = .runs p := by
    split at place
    · next h => rw [if_pos h, place]
    · next h => rw [if_neg h, place.1]
  have readable : p.findSome? (fun r => d.badPhys r.1 r.2) = none :=
    List.findSome?_eq_none_iff.2 fun r hr => Dev.badPhys_of_errIn (sound r hr)
  simp only [cmdMemWriteEx, bytes, h0, h2, h3, h4, addr, hline, wline, hstride, wstride, hlines, hpos, wpos, blocks, range, at_,
    agrees, readable, ne_eq, not_true_eq_false, or_self, Bool.false_eq_true, ↓reduceIte]
  cases p <;> rfl

/-! ### One run that nothing refuses (07 R219, 15 R427) -/

section
variable {d : Dev} {a n : Nat} (clean : d.errIn a n = [])
include clean

theorem Dev.writeRuns_single (l : List Byte) : d.writeRuns [(a, n)] l = d.wr a (l.take n) := by
  simp only [Dev.writeRuns, Dev.metPartly_of_errIn clean]

/-- The run reads as it was written, and every other byte as before. -/
theorem Dev.writeRuns_single_reads {l : List Byte} (len : l.length = n) :
    (d.writeRuns [(a, n)] l).bytes a n = l ∧
      (∀ k, ¬(a ≤ k ∧ k < a + n) → Memory.read (d.writeRuns [(a, n)] l).mem k = Memory.read d.mem k) ∧
      (Memory.wf d.mem → Memory.wf (d.writeRuns [(a, n)] l).mem) := by
  subst len
  rw [Dev.writeRuns_single clean, List.take_length]
  refine ⟨d.bytes_wr a l, fun k outside => ?_, d.wf_wr a l⟩
  rw [Dev.read_wr, if_neg outside]

end

/-- Settles O14: both commands write their runs, and a run without a stored error reads as it was written, the rest as before. -/
theorem memoryWritesStore : Obligations.MemoryWritesStore := by
  refine ⟨⟨?_, ?_⟩, ?_⟩
  · intro s h w n l sent h0 h1 addr len whole range m clean
    subst len
    exact State.cmd_memWrite_runs sent h0 h1 addr whole range fun met => Dev.cleanRuns_badWrite (clean met)
  · intro s h w line stride lines pos l p sent h0 h2 h3 h4 addr hline wline hstride wstride hlines hpos wpos tallied range place
      sound m clean
    have run := cmdMemWriteEx_run (h := h) (d := s.taken 0x282 h) s.fuses h0 h2 h3 h4 addr hline wline hstride wstride hlines hpos
      wpos tallied (by rwa [Dev.taken_memLines]) (by rwa [Dev.taken_jobTo])
      (fun r hr => (Dev.KeepsMemory.errIn (s.dev.taken_keepsMemory 0x282 h) r.1 r.2).trans (sound r hr))
    have written := State.cmd_memWrite sent (by decide) rfl run fun met => Dev.cleanRuns_badWrite (clean met)
    cases p with
    | nil => exact written
    | cons r p => exact written
  · intro s h w a n sent h0 h1 addr len whole range sound relaxed
    subst len
    have kept := (s.dev.taken_keepsMemory 0x202 h).trans (Dev.wakeRuns_keepsMemory _ [(a, fld (wd w 1) 31 0)])
    obtain ⟨passes, met⟩ := Dev.hostMeet_relaxed _ (kept.relaxed relaxed) true
    have all := kept.trans met
    have clean := (all.errIn a (fld (wd w 1) 31 0)).trans sound
    have written := State.cmd_memWrite_runs sent h0 h1 addr whole range fun _ => by
      rw [List.findSome?_cons, Dev.badWrite_of_errIn clean]; rfl
    rw [if_neg (by simp [passes])] at written
    refine ⟨_, written, ?_⟩
    have data : (wordsBytes (w.drop 2)).length = fld (wd w 1) 31 0 := by
      have words : w.length = 2 + ceilDiv (fld (wd w 1) 31 0) 8 := of_decide_eq_true (Bool.and_eq_true_iff.1 sent.length).2
      rw [length_wordsBytes, List.length_drop, words, ceilDiv]
      omega
    obtain ⟨reads, others, wf⟩ := Dev.writeRuns_single_reads clean data
    refine ⟨reads, fun k outside => ?_, fun canonical => wf ?_, rfl, rfl, ?_⟩
    · exact (others k outside).trans (by rw [all.mem])
    · rwa [all.mem]
    · rw [Dev.writeRuns_single clean]
      exact (Dev.wr_flash ..).trans all.flash

end Sys2Proof.Machine
end

section
/-! PROOF. A beat starts: time, the beat's number, slip beats and counted beats (08 R256, 13 R360, 14 R394, 18 R487, 21 R532). -/

namespace Sys2Proof.Machine

variable {d : Dev}

/-! ### The always-on count and the beat's number -/

/-- One always-on beat has been counted, with its time (14 R394). -/
abbrev Dev.aonTicked (d : Dev) : Dev := ({ d with aonBeat := d.aonBeat + 1, ageBeats := d.ageBeats + 1 } : Dev).tickTime

/-- The next beat has begun (08 R256). -/
abbrev Dev.beatCounted (d : Dev) : Dev :=
  { d.set Reg.SYNC_BEAT_BEAT ((d.beat + 1) % 2 ^ 64) with liveBeats := d.liveBeats + 1 }

/-- What a running device does once the beat has its number (08 R256, 12 R335, 18 R487). -/
abbrev Dev.beatWork (d : Dev) : Dev := d.drainAdds.takeWindows.returnLeave.listsTurn.voteProgress.preemptRetry

/-- A beat of time moves TIME_NS alone. -/
theorem Dev.tickTime_get (d : Dev) {f : Fld} (hf : Fld.apart Reg.HP_TIME_TIME_NS f) : d.tickTime.get f = d.get f :=
  Dev.get_set_ne d (by decide) _ hf

theorem Dev.aonTicked_beat (d : Dev) : d.aonTicked.beat = d.beat := Dev.tickTime_get _ (.inl (by decide))

theorem Dev.beatCounted_beat (d : Dev) : d.beatCounted.beat = (d.beat + 1) % 2 ^ 64 := by
  have written : d.beatCounted.beat = (d.beat + 1) % 2 ^ 64 % 2 ^ (63 + 1 - 0) := Dev.get_set_self d (by decide) _
  rw [written, Nat.mod_mod]

/-! ### The start of a beat by the state of the device -/

theorem Dev.beatStart_off (off : d.boot.phase = .off) : d.beatStart = d := if_pos off

theorem Dev.beatStart_still (on : d.boot.phase ≠ .off) (still : d.frozen = true ∨ 2 < d.power) : d.beatStart = d.aonTicked := by
  have stands : (!d.frozen && decide (d.power ≤ 2)) = false := by
    rcases still with frozen | sleeps
    · simp [frozen]
    · simp [sleeps]
  simp only [Dev.beatStart, on, stands, Bool.not_false, Bool.false_eq_true, ↓reduceIte]

theorem Dev.beatStart_live (on : d.boot.phase ≠ .off) (thawed : d.frozen = false) (awake : d.power ≤ 2) :
    d.beatStart =
      let g := d.sendFrames.aonTicked.beatCounted
      if 0 < g.slipLeft then ({ g with slipLeft := g.slipLeft - 1 } : Dev).beatWork
      else ({ g with countedBeats := g.countedBeats + 1 } : Dev).beatWork := by
  have live : (!d.frozen && decide (d.power ≤ 2)) = true := by simp [thawed, awake]
  simp only [Dev.beatStart, on, live, Bool.not_true, Bool.false_eq_true, ↓reduceIte]
  exact apply_ite Dev.beatWork ..

/-- A change of the device that may let held commands be served is the row's next state. -/
theorem State.updHeld_eq {s : State} {f : Dev → Dev} {e : Dev} (h : f s.dev = e) : s.updHeld f = .next (s.tried e) := by
  rw [State.updHeld, h]

/-- Settles O53: the row is the start of a beat, by the device's power and freeze. -/
theorem beatsPass : Obligations.BeatsPass := by
  intro s
  refine ⟨fun off => ?_, fun on still => ⟨s.dev.aonTicked, ?_, rfl, Dev.aonTicked_beat _⟩,
    fun on thawed awake => ⟨Dev.beatCounted_beat _, ?_⟩⟩
  · exact State.updHeld_eq (Dev.beatStart_off off)
  · exact State.updHeld_eq (Dev.beatStart_still on still)
  · exact State.updHeld_eq (Dev.beatStart_live on thawed awake)

end Sys2Proof.Machine
end

section
/-! PROOF. Leaves report that they are quiet, and the steward answers requests for leave (08 R259, 16 R453, 18 R488, R491; log
entries 56 and 66). -/

namespace Sys2Proof.Machine

variable {d : Dev}

/-! ### Quiesce reports (08 R259, 16 R453) -/

/-- The leaf of rank `r` has reported (08 R259). -/
abbrev Dev.reported (d : Dev) (r : Nat) : Dev := { d with job := { d.job with quiesced := d.job.quiesced ++ [r] } }

/-- The save record at SAVE_ADDR is invalid (16 R453). -/
def Dev.saveInvalid (d : Dev) : Dev :=
  match d.xlate (d.get Reg.JOB_SAVE_SAVE_ADDR) with
  | some x => d.wrWord x.phys 0
  | none => d

/-- A quiet leaf reports once, and the last report begins the save. -/
theorem Dev.leafQuiesced_reports {r : Nat} (stops : d.js = jsPreempting) (thawed : d.frozen = false) (low : 1 ≤ r)
    (high : r ≤ 167) (quiet : d.leafQuiet r = true) (first : d.job.quiesced.contains r = false) :
    d.leafQuiesced r = if (d.reported r).allQuiet then (d.reported r).saveInvalid else d.reported r := by
  simp only [Dev.leafQuiesced, stops, thawed, low, high, quiet, first, decide_true, Bool.not_false, Bool.and_self, Bool.not_true,
    Bool.false_eq_true, ↓reduceIte]
  rfl

/-! ### Requests for leave (18 R488, R491) -/

section
variable {b units id : Nat} (thawed : d.frozen = false) (fresh : d.leaveQ.any (fun q => q.who = b) = false)
  (need : d.leaveNeed b = some (units, id)) (nonzero : units ≠ 0)
include thawed fresh need nonzero

/-- A request for units, met with the capacity, the queue and the free units. -/
theorem Dev.leaveRequest_needs : d.leaveRequest b =
    if d.poolCapacity - d.standing < units then d.leaveNever b id
    else if d.leaveQ.isEmpty && !d.leaveHeldBack && decide (units ≤ d.get Reg.PWR_STATUS_FREE) then d.giveLeave b units
    else ({ d with
      leaveQ := d.leaveQ ++ [⟨b, units⟩]
      bist := if 145 ≤ b then d.bist.modify (b - 145) (fun r => { r with asked := true }) else d.bist } : Dev).inc
        Reg.LEAVE_COUNT_REFUSALS := by
  simp only [Dev.leaveRequest, thawed, fresh, need, nonzero, Bool.or_self, Bool.false_eq_true, ↓reduceIte]

theorem Dev.leaveRequest_never (beyond : d.poolCapacity - d.standing < units) : d.leaveRequest b = d.leaveNever b id := by
  rw [Dev.leaveRequest_needs thawed fresh need nonzero, if_pos beyond]

variable (within : units ≤ d.poolCapacity - d.standing)
include within

theorem Dev.leaveRequest_granted (alone : d.leaveQ = []) (unheld : d.leaveHeldBack = false)
    (free : units ≤ d.get Reg.PWR_STATUS_FREE) : d.leaveRequest b = d.giveLeave b units := by
  have grants : (d.leaveQ.isEmpty && !d.leaveHeldBack && decide (units ≤ d.get Reg.PWR_STATUS_FREE)) = true := by
    simp [alone, unheld, free]
  rw [Dev.leaveRequest_needs thawed fresh need nonzero, if_neg (Nat.not_lt.2 within), if_pos grants]

/-- A bench or the hub's operation is queued with its units, and the refusal is counted. -/
theorem Dev.leaveRequest_queued (waits : d.leaveQ ≠ [] ∨ d.leaveHeldBack = true ∨ d.get Reg.PWR_STATUS_FREE < units) (hb : b < 145) :
    d.leaveRequest b = ({ d with leaveQ := d.leaveQ ++ [⟨b, units⟩] } : Dev).inc Reg.LEAVE_COUNT_REFUSALS := by
  have refuses : ¬(d.leaveQ.isEmpty && !d.leaveHeldBack && decide (units ≤ d.get Reg.PWR_STATUS_FREE)) = true := by
    rcases waits with others | held | short
    · simp [others]
    · simp [held]
    · simp [short]
  rw [Dev.leaveRequest_needs thawed fresh need nonzero, if_neg (Nat.not_lt.2 within), if_neg refuses, if_neg (Nat.not_le.2 hb)]

end

/-- The oldest waiting request is granted once the free units cover it. -/
theorem Dev.leaveGrant_oldest {q : LeaveReq} {rest : List LeaveReq} (oldest : d.leaveQ = q :: rest) (thawed : d.frozen = false)
    (unheld : d.leaveHeldBack = false) (free : q.units ≤ d.get Reg.PWR_STATUS_FREE) :
    d.leaveGrant = ({ d with leaveQ := rest } : Dev).giveLeave q.who q.units := by
  simp only [Dev.leaveGrant, oldest, thawed, unheld, Nat.not_lt.2 free, decide_false, Bool.or_self, Bool.false_eq_true, ↓reduceIte]

/-- Settles O56: a report, a request or a grant is its device's change, said above; the ranks that report are log entry
56's, and what the hub does with a request that can never be met is log entry 66's. -/
theorem quiesceAndLeave : Obligations.QuiesceAndLeave := by
  refine ⟨fun s r stops thawed low high quiet first => ?_, fun s b units id thawed fresh need nonzero => ?_, ?_⟩
  · have reports := Dev.leafQuiesced_reports stops thawed low high quiet first
    exact ⟨fun some_out => State.upd_eq (f := (Dev.leafQuiesced · r)) (reports.trans (if_neg (by simp [some_out]))),
      fun all => State.upd_eq (f := (Dev.leafQuiesced · r)) (reports.trans (if_pos all))⟩
  · refine ⟨fun beyond => ?_, fun within => ⟨fun alone unheld free => ?_, fun waits hb => ?_⟩⟩
    · exact State.upd_eq (f := (Dev.leaveRequest · b)) (Dev.leaveRequest_never thawed fresh need nonzero beyond)
    · exact State.upd_eq (f := (Dev.leaveRequest · b)) (Dev.leaveRequest_granted thawed fresh need nonzero within alone unheld free)
    · exact State.upd_eq (f := (Dev.leaveRequest · b)) (Dev.leaveRequest_queued thawed fresh need nonzero within waits hb)
  · exact fun s q rest oldest thawed unheld free => State.upd_eq (Dev.leaveGrant_oldest oldest thawed unheld free)

end Sys2Proof.Machine
end

section
/-! SUPPORT. What a channel holds after a change of its descriptor (09 R261 to R264). -/

namespace Sys2Proof.Machine

variable {d : Dev} {loc ch : Nat}

@[simp] theorem Dev.chan_setChan_self (d : Dev) (loc ch : Nat) (c : Chan) : (d.setChan loc ch c).chan loc ch = c :=
  SMap.get_set_self ..

@[simp] theorem Dev.chan_onChan_self (d : Dev) (loc ch : Nat) (f : Chan → Chan) :
    (d.onChan loc ch f).chan loc ch = f (d.chan loc ch) := Dev.chan_setChan_self ..

/-- A change of the descriptor in progress changes no channel that has none. -/
theorem Dev.chan_onRun_idle (idle : (d.chan loc ch).cur = none) (f : ChanRun → ChanRun) :
    (d.onRun loc ch f).chan loc ch = d.chan loc ch := by
  rw [Dev.onRun, Dev.chan_onChan_self, idle, Option.map_none, ← idle]

theorem Dev.cur_onRun {q : ChanRun} (held : (d.chan loc ch).cur = some q) (f : ChanRun → ChanRun) :
    ((d.onRun loc ch f).chan loc ch).cur = some (f q) := by
  rw [Dev.onRun, Dev.chan_onChan_self, held, Option.map_some]

/-- A change of a descriptor is what it makes of the one in progress. -/
theorem Dev.onRun_congr {q : ChanRun} (held : (d.chan loc ch).cur = some q) {f g : ChanRun → ChanRun} (h : f q = g q) :
    d.onRun loc ch f = d.onRun loc ch g := by
  simp only [Dev.onRun, Dev.onChan, held, Option.map_some, h]

end Sys2Proof.Machine
end

section
/-! PROOF. HALT_CHANNEL, OP_ABORT and OP_ABORT_CLASS (09 R285, 15 R421, R424, R429). -/

namespace Sys2Proof.Machine

variable {d : Dev} {s : State} {h : Hdr} {w : List W64} {o : LongOp}

theorem Dev.taken_opOf (d : Dev) (op : Nat) (h : Hdr) (slot : Nat) : (d.takeNumber op h).opOf slot = d.opOf slot := by
  simp [Dev.opOf]

theorem Dev.taken_chan (d : Dev) (op : Nat) (h : Hdr) (loc ch : Nat) : (d.takeNumber op h).chan loc ch = d.chan loc ch := by
  simp [Dev.chan]

/-! ### Which operations an abort ends (15 R421) -/

/-- A running operation is aborted if, and only if, its opcode is one that may be ended. -/
theorem Dev.abortRunning_isSome_iff : (d.abortRunning o).isSome = true ↔ basicOp o.opcode ∈ endable := by
  unfold Dev.abortRunning endable
  split
  case h_7 run => rw [run]; split <;> simp
  case h_8 copy scrub test attest form update run =>
    refine iff_of_false Bool.false_ne_true ?_
    simp only [List.mem_cons, List.not_mem_nil, or_false, not_or]
    exact ⟨copy, scrub, test, attest, form, update, run⟩
  all_goals (next e => simp [e])

theorem Dev.abortRunning_kept (kept : basicOp o.opcode ∉ endable) : d.abortRunning o = none :=
  Option.not_isSome_iff_eq_none.1 fun ended => kept (Dev.abortRunning_isSome_iff.1 ended)

/-- A queued operation, and a running one that may be ended, is aborted. -/
theorem Dev.abortOp_aborted (ends : o.running = false ∨ basicOp o.opcode ∈ endable) : d.abortOp o = some (d.aborted o) := by
  have some_device : (d.abortOp o).isSome = true := by
    unfold Dev.abortOp
    split
    · next running => exact Dev.abortRunning_isSome_iff.2 (ends.resolve_left (by simp [running]))
    · rfl
  obtain ⟨e, he⟩ := Option.isSome_iff_exists.1 some_device
  rw [Dev.aborted, he, Option.getD_some]

theorem Dev.abortOp_queued (queued : o.running = false) : d.abortOp o = some (d.unqueue o) := by
  rw [Dev.abortOp, queued]
  rfl

theorem Dev.abortOp_refused (running : o.running = true) (kept : basicOp o.opcode ∉ endable) : d.abortOp o = none := by
  rw [Dev.abortOp, if_pos running, Dev.abortRunning_kept kept]

theorem Dev.abortAll_single (live : d.opOf o.slot = some o) (ends : o.running = false ∨ basicOp o.opcode ∈ endable) :
    d.abortAll [o] = some (d.aborted o) := by
  simp only [Dev.abortAll, live, Dev.abortOp_aborted ends]

/-! ### The rows -/

/-- The descriptor of a location's channel stops with HALT (15 R429). -/
theorem State.cmd_haltChannel {loc ch : Nat} (sent : Sent cmdHaltChannel s h w) (h0 : reserved (wd w 0) [(12, 0)] = false)
    (hloc : fld (wd w 0) 7 0 = loc) (hch : fld (wd w 0) 12 8 = ch) (place : loc ≤ 152) (channel : ch < channelsOf loc) :
    s.cmd cmdHaltChannel h w = .next (s.withDev
      (((s.taken 0x387 h).onRun loc ch (fun r => { r with stop := some 11, wait := none })).okReply 0x387 h [])) := by
  refine State.cmd_done sent (by decide) rfl ?_
  simp [cmdHaltChannel, h0, hloc, hch, Nat.not_lt.2 place, Nat.not_le.2 channel]

section
variable (sent : Sent cmdOpAbort s h w) (h0 : reserved (wd w 0) [(7, 0)] = false)
include sent h0

theorem State.cmd_opAbort_ends {e : Dev} (live : s.dev.opOf (fld (wd w 0) 7 0) = some o)
    (ends : (s.taken 0x108 h).abortOp o = some e) : s.cmd cmdOpAbort h w = .next (s.withDev (e.okReply 0x108 h [])) := by
  refine State.cmd_done sent (by decide) rfl ?_
  simp only [cmdOpAbort, h0, Dev.taken_opOf, live, ends, Bool.false_eq_true, ↓reduceIte]

theorem State.cmd_opAbort_kept (live : s.dev.opOf (fld (wd w 0) 7 0) = some o)
    (kept : (s.taken 0x108 h).abortOp o = none) :
    s.cmd cmdOpAbort h w = .next (s.withDev ((s.taken 0x108 h).refusal 0x108 h rcState noDetail)) := by
  refine State.cmd_refused sent (by decide) rfl ?_
  simp only [cmdOpAbort, h0, Dev.taken_opOf, live, kept, Bool.false_eq_true, ↓reduceIte]

theorem State.cmd_opAbort_free (free : s.dev.opOf (fld (wd w 0) 7 0) = none) :
    s.cmd cmdOpAbort h w = .next (s.withDev ((s.taken 0x108 h).refusal 0x108 h rcState noDetail)) := by
  refine State.cmd_refused sent (by decide) rfl ?_
  simp only [cmdOpAbort, h0, Dev.taken_opOf, free, Bool.false_eq_true, ↓reduceIte]

end

/-- The operations of a class are aborted, the newest first, where none of them refuses (15 R424). -/
theorem State.cmd_opAbortClass {c : Nat} {l : List LongOp} {e : Dev} (sent : Sent cmdOpAbortClass s h w)
    (h0 : reserved (wd w 0) [(2, 0)] = false) (hc : fld (wd w 0) 2 0 = c) (listed : c ≤ 5)
    (hl : l = (s.dev.ops.filter (fun o => opClass o.opcode = c)).reverse) (ends : (s.taken 0x188 h).abortAll l = some e) :
    s.cmd cmdOpAbortClass h w = .next (s.withDev (e.okReply 0x188 h [])) := by
  refine State.cmd_done sent (by decide) rfl ?_
  rw [hl] at ends
  simp only [cmdOpAbortClass, h0, hc, Nat.not_lt.2 listed, Dev.taken_ops, ends, decide_false, Bool.or_self, Bool.false_eq_true,
    ↓reduceIte]

/-- Settles O18: each row is its command, whose checks pass, and what `abortOp` answers decides the aborts. -/
theorem channelsAndOperationsStop : Obligations.ChannelsAndOperationsStop := by
  refine ⟨fun s h w loc ch sent h0 hloc hch place channel => ⟨State.cmd_haltChannel sent h0 hloc hch place channel, fun idle => ?_⟩,
    fun s h w o sent h0 live queued => State.cmd_opAbort_ends sent h0 live (Dev.abortOp_queued queued),
    fun s h w o sent h0 live running => ⟨fun ends => ?_, fun kept => ?_⟩,
    fun s h w sent h0 free => State.cmd_opAbort_free sent h0 free,
    fun s h w c l sent h0 hc listed hl => ⟨fun none_live => ?_, fun o one live ends => ?_, fun all => ?_⟩⟩
  · have idle_still : ((s.taken 0x387 h).chan loc ch).cur = none := by rw [Dev.taken_chan, idle]
    rw [Dev.chan_onRun_idle idle_still, Dev.taken_chan]
  · exact State.cmd_opAbort_ends sent h0 live (Dev.abortOp_aborted (.inr ends))
  · exact State.cmd_opAbort_kept sent h0 live (Dev.abortOp_refused running kept)
  · exact State.cmd_opAbortClass sent h0 hc listed hl (by rw [none_live]; rfl)
  · have live_still : (s.taken 0x188 h).opOf o.slot = some o := by rw [Dev.taken_opOf, live]
    exact State.cmd_opAbortClass sent h0 hc listed hl (by rw [one]; exact Dev.abortAll_single live_still ends)
  · obtain ⟨e, he⟩ := Option.isSome_iff_exists.1 all
    rw [he, Option.getD_some]
    exact State.cmd_opAbortClass sent h0 hc listed hl he

end Sys2Proof.Machine
end

section
/-! PROOF. Channels issue their bursts (09 R264, R268, R272, R273, R281). -/

namespace Sys2Proof.Machine

variable {d : Dev} {loc ch : Nat} {q r : ChanRun}

/-! ### The next burst of a stream, and what it is taken with (09 R264, R268) -/

/-- Looking for the next burst moves the stream's place and nothing else. -/
theorem nextBurst_moves (q : ChanRun) : ∃ n, (nextBurst q).1 = { q with next := n } := by
  unfold nextBurst
  dsimp only
  split
  · exact ⟨_, rfl⟩
  · exact ⟨_, rfl⟩

theorem eq_ok_valueOr {ε α : Type} {x : Except ε α} (h : x.isOk = true) (a : α) : x = .ok (valueOr a x) := by
  cases x with
  | ok b => rfl
  | error e => cases h

/-- The destination of the burst at stream byte `pos`. -/
abbrev Dev.burstDst (d : Dev) (loc : Nat) (r : ChanRun) (pos : Nat) : Except Nat Nat :=
  d.resolve loc r.dstSp (dstAt r pos).1 true (dmDstFe r.words ≠ 0)

/-- The pool of read bursts, and the pieces of them, that a burst with no limit is formed of. -/
abbrev ChanRun.burstCut (r : ChanRun) (pos len : Nat) : List ReadBurst × List (Nat × Nat × Nat) :=
  readPieces r none 64 r.reads (srcNeed r pos len).1 (srcNeed r pos len).2

/-- The read bursts that a burst with no limit adds to its stream's. -/
abbrev Dev.newReads (d : Dev) (loc : Nat) (r : ChanRun) (pos len : Nat) : Except (Nat × Nat) (List ReadBurst) :=
  d.placeReads loc r ((r.burstCut pos len).1.drop r.reads.length)

/-- The descriptor once a burst has been taken to `dst` with the read bursts `new`. -/
abbrev ChanRun.taken (r : ChanRun) (pos len dst : Nat) (new : List ReadBurst) : ChanRun :=
  { r with
    reads := r.reads ++ new
    fly := r.fly ++ [⟨pos, len, dst, (r.burstCut pos len).2, false, none⟩], limitSince := none
    next := if r.desc then r.total.getD 0 - pos else pos + len }

theorem Dev.takeBurst_taken {pos len dst : Nat} {new : List ReadBurst} (placed : d.burstDst loc r pos = .ok dst)
    (routed : d.routeBad loc (endpointOf dst) = false) (read : d.newReads loc r pos len = .ok new) :
    d.takeBurst loc r none pos len = .ok (r.taken pos len dst new) := by
  unfold Dev.burstDst at placed
  unfold Dev.newReads at read
  simp only [Dev.takeBurst, placed, routed, read, Bool.and_false, Bool.false_eq_true, ↓reduceIte]

/-- What a channel does with the next burst of its descriptor `r`, once it has been looked for (09 R264, R273, R274). -/
def Dev.issueNext (d : Dev) (loc ch : Nat) (r : ChanRun) : Option (Nat × Nat) → Dev
  | none => if r.fly.isEmpty ∧ some r.head = r.total ∧ r.stop.isNone then d.finishChan loc ch 0 else d.chanGo loc ch
  | some (pos, len) =>
    match d.limitOf r with
    | .error c => (d.limitBad r.words).ownStop loc ch c (dmLimit r.words) r
    | .ok l =>
      let atEnd := match l with | some l => decide (l ≤ pos) | none => false
      let d := (if dmLimit r.words ≠ 0 && r.limit.isNone then d.readJob (dmLimit r.words) 8 else d).onRun loc ch
        (fun r' => { r' with limit := if dmLimit r.words = 0 && !atEnd then none else l })
      if atEnd then
        if dmLimAct r.words = 1 then
          if r.fly.isEmpty ∧ r.stop.isNone then d.finishChan loc ch 8 else (d.stopChan loc ch 8).chanGo loc ch
        else (d.onRun loc ch (fun r => { r with limitSince := some (r.limitSince.getD d.countedBeats) })).chanGo loc ch
      else
        match d.takeBurst loc r l pos (match l with | some l => min len (l - pos) | none => len) with
        | .error (c, a) => d.ownStop loc ch c a r
        | .ok r' =>
          ((d.onRun loc ch (fun x => { r' with limit := x.limit })).addCycles (Reg.CH_COUNT_PACE_CYCLES loc ch)).chanGo loc ch

section
variable (going : r.stop = none)
include going

theorem Dev.issueNext_none : d.issueNext loc ch r none =
    if r.fly = [] ∧ some r.head = r.total then d.finishChan loc ch 0 else d.chanGo loc ch := by
  simp only [Dev.issueNext, going, List.isEmpty_iff, Option.isNone_none, and_true]

/-- A burst at the limit ends the descriptor under DROP, and waits under WAIT (09 R273, R274). -/
theorem Dev.issueNext_limited {pos l : Nat} (limited : dmLimit r.words ≠ 0) (known : r.limit = some l) (reached : l ≤ pos)
    (len : Nat) :
    (let e := d.onRun loc ch (fun r => { r with limit := some l })
     d.issueNext loc ch r (some (pos, len)) =
      if dmLimAct r.words = 1 then (if r.fly = [] then e.finishChan loc ch 8 else (e.stopChan loc ch 8).chanGo loc ch)
      else (e.onRun loc ch (fun r => { r with
        limitSince := some (r.limitSince.getD d.countedBeats) })).chanGo loc ch) := by
  have limit : d.limitOf r = .ok (some l) := by simp [Dev.limitOf, going, limited, known]
  unfold Dev.issueNext
  rw [limit]
  simp only [going, limited, known, reached, List.isEmpty_iff, Option.isNone_none, Option.isNone_some, and_true, decide_true,
    decide_false, Bool.and_false, Bool.false_and, Bool.false_eq_true, ↓reduceIte]
  rfl

/-- A burst with no limit is taken, and the channel issues what it can. -/
theorem Dev.issueNext_taken {pos len : Nat} (held : (d.chan loc ch).cur = some r) (unlimited : dmLimit r.words = 0)
    (memory : dmSrcSp r.words ≠ spLog) :
    (let e := d.onRun loc ch (fun r => { r with limit := none })
     (e.burstDst loc r pos).isOk = true → e.routeBad loc (endpointOf (valueOr 0 (e.burstDst loc r pos))) = false →
     (e.newReads loc r pos len).isOk = true →
     d.issueNext loc ch r (some (pos, len)) = ((e.onRun loc ch (fun _ => { r.taken pos len (valueOr 0 (e.burstDst loc r pos))
       (valueOr [] (e.newReads loc r pos len)) with limit := none })).addCycles (Reg.CH_COUNT_PACE_CYCLES loc ch)).chanGo loc ch) := by
  intro e placed routed read
  have limit : d.limitOf r = .ok none := by simp [Dev.limitOf, going, unlimited, memory]
  unfold Dev.issueNext
  rw [limit]
  simp only [unlimited, ne_eq, not_true_eq_false, decide_false, decide_true, Bool.false_and, Bool.not_false, Bool.and_self,
    Bool.false_eq_true, ↓reduceIte]
  rw [show d.onRun loc ch (fun r => { r with limit := none }) = e from rfl,
    Dev.takeBurst_taken (eq_ok_valueOr placed 0) routed (eq_ok_valueOr read [])]
  dsimp only
  rw [Dev.onRun_congr (Dev.cur_onRun held _)]
  rfl

end

/-! ### A channel that may issue (09 R281) -/

/-- The start fence of a descriptor keeps it no longer: there is none, it has been passed, or it is released. -/
abbrev Dev.Unfenced (d : Dev) (q : ChanRun) : Prop :=
  dmWait q.words = false ∨ q.begun = true ∨ (d.fence (dmFence q.words)).released = true

theorem Dev.Unfenced.eq_false (h : d.Unfenced q) :
    (dmWait q.words && !q.begun && !(d.fence (dmFence q.words)).released) = false := by
  rcases h with h | h | h <;> simp [h]

/-- A descriptor looking for its next burst. -/
abbrev ChanRun.sought (q : ChanRun) : ChanRun × Option (Nat × Nat) := nextBurst { q with begun := true }

section
variable (held : (d.chan loc ch).cur = some q) (live : d.chanLive loc ch = true) (gate : d.latticeGate loc ch = true)
  (going : q.stop = none)
include held live gate going

/-- A descriptor that waits for its fence stays WAITING (09 R281, R289). -/
theorem Dev.issueBurst_fenced (waits : dmWait q.words = true) (fresh : q.begun = false)
    (closed : (d.fence (dmFence q.words)).released = false) : d.issueBurst loc ch = d.chState loc ch 2 := by
  have shown : d.showState loc ch = d.chState loc ch 2 := by
    simp only [Dev.showState, held, going, waits, fresh, closed, Option.isSome_none, Bool.not_false, Bool.and_self, Bool.or_true,
      Bool.false_eq_true, ↓reduceIte]
  simp only [Dev.issueBurst, held, live, gate, ChanRun.issues, going, waits, fresh, closed, shown, Bool.not_true, Bool.not_false,
    Bool.or_self, Bool.and_self, Bool.false_eq_true, ↓reduceIte]

variable (unfenced : d.Unfenced q)
include unfenced

/-- With 64 bursts taken no further one is (09 R264). -/
theorem Dev.issueBurst_full (full : 64 ≤ q.fly.length) : d.issueBurst loc ch = d.chanGo loc ch := by
  simp only [Dev.issueBurst, held, live, gate, ChanRun.issues, going, unfenced.eq_false, full, Bool.not_true, Bool.or_self,
    Bool.false_eq_true, ↓reduceIte]

variable (room : q.fly.length < 64)
include room

theorem Dev.issueBurst_next :
    d.issueBurst loc ch = (d.onRun loc ch (fun _ => q.sought.1)).issueNext loc ch q.sought.1 q.sought.2 := by
  unfold Dev.issueBurst
  rw [held]
  dsimp only
  rw [if_neg (by simp [live, gate, ChanRun.issues, going]), if_neg (by simp [unfenced.eq_false]), if_neg (Nat.not_le.2 room)]
  unfold ChanRun.sought
  generalize nextBurst _ = x
  obtain ⟨r, nb⟩ := x
  cases nb <;> rfl

end

/-! ### A write burst is sent on (09 R280) -/

/-- The packet of a write burst that is not reduced. -/
abbrev Dev.burstPkt (d : Dev) (loc ch : Nat) (r : ChanRun) (b : Burst) : Pkt :=
  { id := 0, kind := 0, src := loc, dst := endpointOf b.dst, addr := b.dst, len := b.len, data := d.burstBytes r b,
    loc := loc, ch := ch, pos := b.pos, fe := dmDstFe r.words }

section
variable {b : Burst}

/-- An untagged burst at the channel's own port that meets no refusal and no uncorrectable word is written and acknowledged. -/
theorem Dev.ownWrite_served (untagged : dmDstFe r.words ≠ 1) :
    (let n := (d.burstBytes r b).length
     let m := d.dmaMeet loc true b.dst n
     m.2 = false → m.1.badWrite b.dst n = none →
     d.ownWrite loc ch r b = (((m.1.metPartly b.dst n).wr b.dst (d.burstBytes r b)).keepOrig loc ch b.dst
       (m.1.bytes b.dst n)).burstAcked loc ch b.pos b.len) := by
  intro n m met sound
  simp only [Dev.ownWrite, untagged, decide_false, Bool.false_and, Bool.false_eq_true, ↓reduceIte]
  rw [if_neg (Bool.eq_false_iff.1 met), Dev.wrPhys_written sound]

variable (writes : dmOp r.words ≠ 1)
include writes

theorem Dev.burstSend_own (own : endpointOf b.dst = loc) :
    d.burstSend loc ch r b = (d.countOob loc (r.oob b.pos b.len)).ownWrite loc ch r b := by
  simp only [Dev.burstSend, writes, own, ↓reduceIte]

theorem Dev.burstSend_away (away : endpointOf b.dst ≠ loc) :
    (let e := d.countOob loc (r.oob b.pos b.len)
     d.burstSend loc ch r b = (e.inject (e.burstPkt loc ch r b)).onBurst loc ch b.pos (fun x => { x with sent := true })) := by
  simp only [Dev.burstSend, writes, away, ↓reduceIte]

end

theorem exec_dmaBurstIssue {s : State} {e : Dev} (h : s.dev.issueBurst loc ch = e) :
    exec (.dmaBurstIssue loc ch) s = .next (s.withDev e) := State.upd_eq (f := (Dev.issueBurst · loc ch)) h

/-- Settles O46: the row issues the channel's next burst, looked for and then taken, limited or spent as said above; a write
burst is served at the channel's own port or sent on. -/
theorem burstsAreIssued : Obligations.BurstsAreIssued := by
  refine ⟨fun s loc ch q held live gate going => ⟨fun waits fresh closed => ?_, fun unfenced => ⟨fun full => ?_, fun room => ?_⟩⟩,
    fun d loc ch r b writes => ⟨fun own untagged met sound => ?_, fun away => Dev.burstSend_away writes away⟩⟩
  · exact exec_dmaBurstIssue (Dev.issueBurst_fenced held live gate going waits fresh closed)
  · exact exec_dmaBurstIssue (Dev.issueBurst_full held live gate going unfenced full)
  · have next := Dev.issueBurst_next held live gate going unfenced room
    obtain ⟨n, moved⟩ := nextBurst_moves { q with begun := true }
    have going' : q.sought.1.stop = none := by rw [moved, going]
    have words : q.sought.1.words = q.words := by rw [moved]
    have fly : q.sought.1.fly = q.fly := by rw [moved]
    have limit : q.sought.1.limit = q.limit := by rw [moved]
    have space : q.sought.1.dstSp = q.dstSp := by rw [moved]; rfl
    have held' := Dev.cur_onRun held (fun _ => q.sought.1)
    refine ⟨fun spent => ?_, fun pos len found => ⟨fun l limited known reached => ?_,
      fun unlimited memory placed routed read => ?_⟩⟩
    · exact exec_dmaBurstIssue (next.trans (spent ▸ Dev.issueNext_none going'))
    · have step := Dev.issueNext_limited (d := s.dev.onRun loc ch (fun _ => q.sought.1)) (loc := loc) (ch := ch) going'
        (words ▸ limited) (limit.trans known) reached len
      rw [words, fly] at step
      exact exec_dmaBurstIssue (next.trans (found ▸ step))
    · have step := Dev.issueNext_taken (pos := pos) (len := len) going' held' (words ▸ unlimited) (words ▸ memory)
      unfold Dev.burstDst at step
      rw [space, words] at step
      exact exec_dmaBurstIssue (next.trans (found ▸ step placed routed read))
  · exact (Dev.burstSend_own writes own).trans (Dev.ownWrite_served untagged met sound)

end Sys2Proof.Machine
end

section
/-! PROOF. A descriptor is read from its list, and the read can end a job: the statement on descriptors fails (09 R263, R284,
10 R294, R295, 15 R417, 17 R471, R481). -/

namespace Sys2Proof.Machine

variable {d e f : Dev} {o : LongOp}

/-! ### Steps that keep memory, the operations and the job's state -/

/-- Memory with its stored errors, the operations and JOB_STATE are as they were. -/
structure Dev.KeepsJob (d e : Dev) : Prop where
  mem : e.mem = d.mem
  errs : e.errs = d.errs
  ops : e.ops = d.ops
  js : e.js = d.js

theorem Dev.KeepsJob.trans (h : d.KeepsJob e) (h' : e.KeepsJob f) : d.KeepsJob f :=
  ⟨h'.mem.trans h.mem, h'.errs.trans h.errs, h'.ops.trans h.ops, h'.js.trans h.js⟩

theorem Dev.setReg_keepsJob (d : Dev) {a : Nat} (v : W64) (ha : Reg.JOB_STATE ≠ a) : d.KeepsJob (d.setReg a v) :=
  ⟨rfl, rfl, rfl, Dev.get_setReg_ne d v ha⟩

theorem Dev.set_keepsJob (d : Dev) {g : Fld} (v : Nat) (hg : Reg.JOB_STATE ≠ g.addr) : d.KeepsJob (d.set g v) :=
  Dev.setReg_keepsJob d _ hg

theorem Dev.inc_keepsJob (d : Dev) {g : Fld} (hg : Reg.JOB_STATE ≠ g.addr) : d.KeepsJob (d.inc g) :=
  ⟨Dev.inc_mem .., Dev.inc_errs .., Dev.inc_ops .., by simp only [Dev.js, Dev.get, Dev.reg_inc_ne d hg]⟩

theorem Dev.logEv_keepsJob (d : Dev) (source event : Nat) (l : List W64) : d.KeepsJob (d.logEv source event l) :=
  ⟨rfl, rfl, rfl, Dev.logEv_get ..⟩

theorem Dev.setRepair_keepsJob (d : Dev) (f : Repair → Repair) : d.KeepsJob (d.setRepair f) := by
  unfold Dev.setRepair
  obtain ⟨r, i⟩ := d.repair
  exact ⟨rfl, rfl, rfl, rfl⟩

theorem Dev.setRepair_faults (d : Dev) (f : Repair → Repair) : (d.setRepair f).faults = d.faults := by
  unfold Dev.setRepair
  obtain ⟨r, i⟩ := d.repair
  rfl

theorem Dev.onFloor_keepsJob (d : Dev) (k : Nat) (f : FloorSt → FloorSt) : d.KeepsJob (d.onFloor k f) :=
  ⟨rfl, rfl, rfl, Dev.onFloor_get ..⟩

theorem Dev.postAll_keepsJob (d : Dev) (e : Option Nat) (prio : Nat) (w : List W64) : d.KeepsJob (d.postAll e prio w) := by
  unfold Dev.postAll
  generalize List.range 12 = l
  induction l generalizing d with
  | nil => exact ⟨rfl, rfl, rfl, rfl⟩
  | cons p l ih =>
    refine Dev.KeepsJob.trans ?_ (ih _)
    dsimp only
    split <;> exact ⟨rfl, rfl, rfl, rfl⟩

theorem Dev.noteFlood_keepsJob (d : Dev) (o : Option Nat) (origin kind : Nat) (key : W64) (event target : Nat) :
    d.KeepsJob (d.noteFlood o origin kind key event target) := by
  unfold Dev.noteFlood
  split
  · exact ⟨rfl, rfl, rfl, rfl⟩
  · have k := Dev.postAll_keepsJob { d with lat := { d.lat with floods := d.lat.floods ++ [Flood.mk kind key event target false] } }
      o 1 (floodMsg origin kind key event target)
    exact ⟨k.mem, k.errs, k.ops, k.js⟩

theorem Dev.floodAbort_keepsJob (d : Dev) : d.KeepsJob d.floodAbort := by
  have counted : d.KeepsJob { d with lat := { d.lat with aborts := d.lat.aborts + 1 } } := ⟨rfl, rfl, rfl, rfl⟩
  exact ((counted.trans (Dev.inc_keepsJob _ (g := Reg.FAULT_COUNT_ABORTS) (by decide))).trans
    (Dev.set_keepsJob _ (g := Reg.FAULT_STATUS_ABORT_SENT) _ (by decide))).trans (Dev.noteFlood_keepsJob ..)

theorem Dev.KeepsJob.wr_mem (h : d.KeepsJob e) (a : Nat) (l : List Byte) : (e.wr a l).mem = (d.wr a l).mem := by
  unfold Dev.wr
  split
  · exact h.mem
  · exact congrArg (Memory.writeRun · a l) h.mem

/-! ### The end of a job writes a status word (15 R417) -/

/-- The status word of an operation that has ended. -/
abbrev Dev.endedWord (d : Dev) (slot state err : Nat) : W64 :=
  let w := putFld (putFld (d.status slot) 63 60 state) 33 26 err
  if state = stDone then putFld w 59 50 1000 else w

theorem Dev.opEnd_mem {slot : Nat} (clean : d.errIn (statusAddr slot) 8 = []) (state err : Nat) :
    (d.opEnd slot state err).mem = (d.wrLe (statusAddr slot) 8 (d.endedWord slot state err).toNat).mem := by
  have sound : d.badWrite (statusAddr slot) 8 = none := by simp [Dev.badWrite, clean]
  have written (w : W64) : d.setStatus slot w = d.wrLe (statusAddr slot) 8 w.toNat := by
    simp only [Dev.setStatus, Dev.wrWord, sound, clean, List.foldl_nil]
  unfold Dev.opEnd
  dsimp only
  rw [written]
  exact (apply_ite Dev.mem _ _ _).trans (ite_self _)

theorem Dev.opEnd_ops (d : Dev) (slot state err : Nat) : (d.opEnd slot state err).ops = d.ops.filter (fun o => o.slot ≠ slot) := by
  unfold Dev.opEnd
  exact (apply_ite Dev.ops _ _ _).trans (ite_self _)

theorem Dev.endOps_none {p : LongOp → Bool} (h : d.ops.filter p = []) (state err : Nat) : d.endOps p state err = d := by
  rw [Dev.endOps, h, List.foldl_nil]

section
variable (only : d.ops = [o]) (run : basicOp o.opcode = 0x302)
include only run

/-- A job whose run is the one operation ends with the run's status word. -/
theorem Dev.endJob_mem (rs re ss se : Nat) : (d.endJob rs re ss se).mem = (d.opEnd o.slot rs re).mem := by
  have ended : d.endOps (fun o => basicOp o.opcode = 0x302) rs re = d.opEnd o.slot rs re := by
    simp [Dev.endOps, only, run]
  have nothing : (d.opEnd o.slot rs re).ops = [] := by simp [Dev.opEnd_ops, only]
  have idle (p : LongOp → Bool) (state err : Nat) : (d.opEnd o.slot rs re).endOps p state err = d.opEnd o.slot rs re :=
    Dev.endOps_none (by rw [nothing, List.filter_nil]) state err
  have moved (x : Dev) : (x.setJs jsEnded).mem = x.mem := (apply_ite Dev.mem _ _ _).trans (ite_self _)
  simp only [Dev.endJob, ended, idle, moved]
  rfl

end

/-! ### A fault at a suspect site ends the job (17 R471, R481) -/

/-- The device in Safe, its job not yet ended (17 R481 to R483). -/
def Dev.safeEntered (d : Dev) (cause : Nat) : Dev :=
  let mask := d.get Reg.FAULT_STATUS_SAFE_CAUSE ||| 2 ^ cause
  (((d.set Reg.FAULT_STATUS_SAFE 1).set Reg.FAULT_STATUS_SAFE_CAUSE mask).setRepair
    (fun r => { r with causes := r.causes ||| 2 ^ cause ||| (if cause = scLane then 0 else 128) })).logEv 1 0x002 [w64 mask]

theorem Dev.safeEntered_keepsJob (d : Dev) (cause : Nat) : d.KeepsJob (d.safeEntered cause) :=
  (((Dev.set_keepsJob d _ (by decide)).trans (Dev.set_keepsJob _ _ (by decide))).trans (Dev.setRepair_keepsJob ..)).trans
    (Dev.logEv_keepsJob ..)

theorem Dev.enterSafe_running (running : d.js = jsRunning) (cause : Nat) :
    d.enterSafe cause = (d.safeEntered cause).floodAbort.endJob stFailed 0x24 stFailed 0x24 := by
  have js : (d.safeEntered cause).js = jsRunning := (d.safeEntered_keepsJob cause).js.trans running
  unfold Dev.safeEntered at js ⊢
  unfold Dev.enterSafe
  dsimp only at js ⊢
  rw [if_neg (by rw [Dev.jobLoaded, js]; decide), if_pos (by rw [js]; decide)]

/-- The device once a fault at a suspect site has been recorded (17 R464, R471). -/
def Dev.suspectRecorded (d : Dev) (f : FaultRec) : Dev :=
  let e := (d.recordFault f dSafe true).inc Reg.FAULT_COUNT_PERSISTENT
  { e with faults := ⟨e.faults.suspects, SMap.insert e.faults.last f.unit e.ageBeats⟩ }

/-- A die of a floor's cellar is to be marked (10 R295). -/
abbrev dieMark (k : Nat) : FaultRec := { kind := fkDieMark, unit := 144 + k }

theorem Dev.suspectRecorded_keepsJob (d : Dev) (k : Nat) : d.KeepsJob (d.suspectRecorded (dieMark k)) := by
  have counted (e : Dev) (h : d.KeepsJob e) : d.KeepsJob (e.inc Reg.FAULT_COUNT_PERSISTENT) :=
    h.trans (Dev.inc_keepsJob _ (by decide))
  have recorded : d.KeepsJob (d.recordFault (dieMark k) dSafe true) := by
    unfold Dev.recordFault
    simp only [reduceCtorEq, ite_self, ↓reduceIte, fkDieMark, fkResidue, fkParity, Nat.reduceEqDiff]
    exact ((Dev.setReg_keepsJob d _ (by decide)).trans (Dev.setReg_keepsJob _ _ (by decide))).trans (Dev.logEv_keepsJob ..)
  have k := counted _ recorded
  exact ⟨k.mem, k.errs, k.ops, k.js⟩

theorem Dev.fault_suspectDie {k : Nat} (suspect : d.faults.suspects.contains (fkDieMark, 144 + k, 0) = true) (disp : Nat) :
    d.fault (dieMark k) disp = ((d.suspectRecorded (dieMark k)).failPreempt (dieMark k)).enterSafe scFloor := by
  have disposed : d.dispose (dieMark k) disp = (dSafe, true, false) := if_pos suspect
  unfold Dev.fault
  rw [disposed]
  rfl

theorem Dev.failPreempt_idle (running : d.js = jsRunning) (only : d.ops = [o]) (run : basicOp o.opcode = 0x302) (f : FaultRec) :
    d.failPreempt f = d := by
  have none_picked : d.ops.filter (fun o => o.running && decide (basicOp o.opcode = 0x303)) = [] := by simp [only, run]
  simp only [Dev.failPreempt, running]
  exact Dev.endOps_none none_picked ..

/-- Where the site is suspect, a die to be marked ends the job, whose run's status word becomes FAILED. -/
theorem Dev.fault_suspectDie_mem {k : Nat} (suspect : d.faults.suspects.contains (fkDieMark, 144 + k, 0) = true)
    (running : d.js = jsRunning) (only : d.ops = [o]) (run : basicOp o.opcode = 0x302)
    (clean : d.errIn (statusAddr o.slot) 8 = []) (disp : Nat) :
    (d.fault (dieMark k) disp).mem = (d.wrLe (statusAddr o.slot) 8 (d.endedWord o.slot stFailed 0x24).toNat).mem := by
  have recorded := d.suspectRecorded_keepsJob k
  have ended := (recorded.trans (Dev.safeEntered_keepsJob _ scFloor)).trans (Dev.floodAbort_keepsJob _)
  have clean_still : (((d.suspectRecorded (dieMark k)).safeEntered scFloor).floodAbort).errIn (statusAddr o.slot) 8 = [] := by
    rw [Dev.errIn, ended.errs]; exact clean
  have word : (((d.suspectRecorded (dieMark k)).safeEntered scFloor).floodAbort).endedWord o.slot stFailed 0x24 =
      d.endedWord o.slot stFailed 0x24 := by
    simp only [Dev.endedWord, Dev.status, Dev.word, Dev.bytes, ended.mem]
  rw [Dev.fault_suspectDie suspect, Dev.failPreempt_idle (recorded.js.trans running) (recorded.ops.trans only) run,
    Dev.enterSafe_running (recorded.js.trans running), Dev.endJob_mem (ended.ops.trans only) run, Dev.opEnd_mem clean_still, word]
  exact ended.wr_mem _ _

/-! ### The sixteenth correction against a die (10 R294, R295) -/

/-- A correction against a die has been counted. -/
def Dev.dieCounted (d : Dev) (k die : Nat) : Dev :=
  (d.inc (Reg.CELLAR_ECC_DIE_CORRECTIONS k)).onFloor k
    (fun f => { f with dieCounts := SMap.set (fun _ => 0) f.dieCounts die (SMap.get (fun _ => 0) (d.floor k).dieCounts die + 1) })

/-- A die has been marked, in its register and in the repair record. -/
def Dev.dieMarked (d : Dev) (k die : Nat) : Dev :=
  ((d.set (Reg.CELLAR_DIE_MARK_VALID k) 1).set (Reg.CELLAR_DIE_MARKED_DIE k) die).setRepair
    (fun r => { r with dies := r.dies.set k (16 + die) })

theorem jobState_ne_cellarEcc (k : Nat) : Reg.JOB_STATE ≠ Reg.CELLAR_ECC k := by
  unfold Reg.JOB_STATE Reg.CELLAR_ECC floorBase
  omega

theorem jobState_ne_cellarDie (k : Nat) : Reg.JOB_STATE ≠ Reg.CELLAR_DIE k := by
  unfold Reg.JOB_STATE Reg.CELLAR_DIE floorBase
  omega

theorem Dev.dieCounted_keepsJob (d : Dev) (k die : Nat) : d.KeepsJob (d.dieCounted k die) :=
  (Dev.inc_keepsJob d (jobState_ne_cellarEcc k)).trans (Dev.onFloor_keepsJob ..)

theorem Dev.dieMarked_keepsJob (d : Dev) (k die : Nat) : d.KeepsJob (d.dieMarked k die) :=
  ((Dev.set_keepsJob d _ (jobState_ne_cellarDie k)).trans (Dev.set_keepsJob _ _ (jobState_ne_cellarDie k))).trans
    (Dev.setRepair_keepsJob ..)

theorem Dev.dieMarked_faults (d : Dev) (k die : Nat) : (d.dieMarked k die).faults = d.faults := by
  rw [Dev.dieMarked, Dev.setRepair_faults, Dev.set_faults, Dev.set_faults]

theorem Dev.dieCorrection_marks {k die : Nat} (sixteenth : SMap.get (fun _ => 0) (d.floor k).dieCounts die = 15)
    (unmarked : d.get (Reg.CELLAR_DIE_MARK_VALID k) ≠ 1) :
    d.dieCorrection k die = ((d.dieCounted k die).dieMarked k die).fault (dieMark k) dLatent := by
  have unmarked_still : (d.dieCounted k die).get (Reg.CELLAR_DIE_MARK_VALID k) ≠ 1 := by
    rw [Dev.dieCounted, Dev.onFloor_get, Dev.get_inc_ne d ⟨by simp, by simp⟩ (.inl (by simp))]
    exact unmarked
  have counted : d.dieCorrection k die = (d.dieCounted k die).markDie k die := by
    unfold Dev.dieCorrection
    rw [sixteenth, if_pos (by decide), Dev.dieCounted, sixteenth]
  rw [counted]
  exact if_neg unmarked_still


/-- Memory after a read of one codeword that has an error of a die. -/
theorem Dev.readJob_dieError_mem {a n die : Nat} {x : Xl} (mapped : d.jobRuns a n = some [(x, n)])
    (readable : d.badPhys x.phys n = none) (cellar : x.phys < cellarEnd) (met : d.errIn x.phys n = [(x.phys, 16 + die)])
    (ofDie : d.codeError x.phys (16 + die) = 16 + die) :
    (d.readJob a n).mem = (d.dieCorrection (cellarOf x.phys) die).mem := by
  simp only [Dev.readJob, mapped, Dev.readPhys, List.map_cons, List.map_nil, List.foldl_cons, List.foldl_nil, Dev.rdPhys, readable,
    cellar, ↓reduceIte, met, Dev.codewordMet, ofDie, Dev.codewordRead]
  rw [if_neg (by omega), if_pos (by omega), Nat.add_sub_cancel_left]
  rfl

/-! ### The counterexample -/

/-- A LINE descriptor that copies 64 bytes of its own scratchpad. -/
def lineCopy : List W64 :=
  [packFlds [(63, 56, 0x50), (49, 47, spLocal), (46, 44, spLocal)], 0x1000, 0x2000, packFlds [(63, 40, 64), (39, 0, 64)],
   packFlds [(63, 40, 64), (39, 0, 64)], packFlds [(63, 40, 1), (39, 16, 1)], 0, 0]

/-- A device whose job runs by the JOB_RUN operation of slot 0, its status word RUNNING. -/
def jobRunning : Dev :=
  { ((({} : Dev).set Reg.JOB_STATE_STATE jsRunning).setReg (Reg.SEGTAB 0) (packFlds [(63, 63, 1)])).setStatus 0
      (packFlds [(63, 60, 2), (17, 2, 0x302)]) with
    ops := [{ slot := 0, opcode := 0x302, params := [], running := true }] }

/-- The channel's list holds the descriptor, whose codeword has an error of die 0; fifteen corrections stand against that die, and
a mark of a die of the floor is a fault at a suspect site. -/
def suspectDie : Dev :=
  { (jobRunning.wr 0x8000 (wordsBytes lineCopy)).onFloor 0 (fun f => { f with dieCounts := [(0, 15)] }) with
    errs := [(0x8000, 16)]
    faults := { suspects := [(fkDieMark, 144, 0)] }
    chans := [(0, { list := 0x8000, reader := .running })] }

theorem suspectDie_live : suspectDie.chanLive 0 0 = true := by decide +kernel

theorem suspectDie_nextDesc : suspectDie.nextDesc 0 0 = .found lineCopy (some 0x8000) true := by decide +kernel

theorem lineCopy_passes : dmCheck 0 0 lineCopy (Shape.ofWords []) (Shape.ofWords []) = none := by decide +kernel

/-- Reading the descriptor is the sixteenth correction against the die. -/
theorem suspectDie_readJob_mem : (suspectDie.readJob 0x8000 64).mem = (suspectDie.dieCorrection 0 0).mem := by
  have cellar : cellarOf 0x8000 = 0 := by decide
  rw [Dev.readJob_dieError_mem (x := ⟨0x8000, 0⟩) (die := 0) (by decide +kernel) (by decide +kernel) (by decide)
    (by decide +kernel) (by decide +kernel), cellar]

/-- The correction ends the job, and the run's status word becomes FAILED. -/
theorem suspectDie_dieCorrection_mem : (suspectDie.dieCorrection 0 0).mem =
    (suspectDie.wrLe (statusAddr 0) 8 (suspectDie.endedWord 0 stFailed 0x24).toNat).mem := by
  have marked := (suspectDie.dieCounted_keepsJob 0 0).trans (Dev.dieMarked_keepsJob _ 0 0)
  have suspect : ((suspectDie.dieCounted 0 0).dieMarked 0 0).faults.suspects.contains (fkDieMark, 144 + 0, 0) = true := by
    rw [Dev.dieMarked_faults, Dev.dieCounted, Dev.onFloor_faults, Dev.inc_faults]
    rfl
  have running : suspectDie.js = jsRunning := by decide +kernel
  have clean : suspectDie.errIn (statusAddr 0) 8 = [] := by decide +kernel
  have word : ((suspectDie.dieCounted 0 0).dieMarked 0 0).endedWord 0 stFailed 0x24 = suspectDie.endedWord 0 stFailed 0x24 := by
    simp only [Dev.endedWord, Dev.status, Dev.word, Dev.bytes, marked.mem]
  rw [Dev.dieCorrection_marks (by decide +kernel) (by decide +kernel),
    Dev.fault_suspectDie_mem suspect (marked.js.trans running) (marked.ops.trans rfl) rfl
      (by rw [Dev.errIn, marked.errs]; exact clean), word]
  exact marked.wr_mem _ _

theorem Dev.popDesc_listed_mem (d : Dev) (loc ch : Nat) :
    (d.popDesc loc ch true).mem = (d.readJob ((d.chan loc ch).list + 64 * (d.chan loc ch).pos) 64).mem := rfl

/-- A descriptor that passes its checks leaves memory as the reading of it did. -/
theorem Dev.startDesc_line_mem {loc ch : Nat} {w : List W64} {place : Option Nat} {listed : Bool}
    (hloc : loc < 153) (hch : ch < channelsOf loc) (live : d.chanLive loc ch = true) (found : d.nextDesc loc ch = .found w place listed)
    (tag : fld (wd w 0) 63 56 = 0x50) (form : dmForm w = 0) (check : dmCheck loc ch w (Shape.ofWords []) (Shape.ofWords []) = none) :
    (d.startDesc 0 loc ch).mem = (d.popDesc loc ch listed).mem := by
  simp [Dev.startDesc, hloc, hch, live, found, tag, form, check, Dev.onChan, Dev.setChan, Dev.setReg]

theorem suspectDie_startDesc_mem : (suspectDie.startDesc 0 0 0).mem =
    (suspectDie.wrLe (statusAddr 0) 8 (suspectDie.endedWord 0 stFailed 0x24).toNat).mem := by
  have head : (suspectDie.chan 0 0).list + 64 * (suspectDie.chan 0 0).pos = 0x8000 := by decide +kernel
  rw [Dev.startDesc_line_mem (by decide) (by decide) suspectDie_live suspectDie_nextDesc (by decide) (by decide) lineCopy_passes,
    Dev.popDesc_listed_mem, head, suspectDie_readJob_mem, suspectDie_dieCorrection_mem]

/-- Refutes O45: a descriptor that passes its checks need not leave memory as it was. Its reading from the list can be the
sixteenth correction against a die; the mark of the die is a fault, which at a suspect site takes the device to Safe; the job ends,
and the status word of its run is written FAILED (10 R294, R295, 15 R417, 17 R471, R481). -/
theorem not_descriptorsStartAndStop : ¬ Obligations.DescriptorsStartAndStop := by
  unfold Obligations.DescriptorsStartAndStop
  rintro ⟨starts, -⟩
  obtain ⟨-, -, found⟩ := starts { dev := suspectDie } 0 0 0 (.dmaTwoD 0 0) (by decide) (by decide) suspectDie_live (.inl ⟨rfl, rfl⟩)
  obtain ⟨t, taken, -, -, -, mem, -⟩ := (found lineCopy (some 0x8000) true [] [] suspectDie_nextDesc (by decide) (by decide)
    (.inl ⟨by decide, rfl, rfl⟩)).2 lineCopy_passes
  obtain rfl : State.withDev { dev := suspectDie } (suspectDie.startDesc 0 0 0) = t := Host.Outcome.next.inj taken
  have kept : (suspectDie.wrLe (statusAddr 0) 8 (suspectDie.endedWord 0 stFailed 0x24).toNat).mem = suspectDie.mem :=
    suspectDie_startDesc_mem.symm.trans mem
  have written : (suspectDie.wrLe (statusAddr 0) 8 (suspectDie.endedWord 0 stFailed 0x24).toNat).status 0 ≠ suspectDie.status 0 := by
    decide +kernel
  exact written (by simp only [Dev.status, Dev.word, Dev.bytes, kept])

end Sys2Proof.Machine
end

section
/-! PROOF. Slots, limits and status words of long operations (10 R294, 15 R413, R415). -/

namespace Sys2Proof.Machine

variable {d : Dev}

/-! ### Words of memory -/

/-- Little-endian bytes read back as the number's low bytes. -/
theorem ofLe_toLe (n v : Nat) : ofLe (toLe n v) = v % 256 ^ n := by
  induction n generalizing v with
  | zero => simp [toLe, ofLe, Nat.mod_one]
  | succ n ih => rw [toLe, ofLe, ih, BitVec.toNat_ofNat, Nat.pow_succ' (m := 256), Nat.mod_mul]

/-- A word reads back as it was written. -/
theorem Dev.word_wrLe (d : Dev) (a : Nat) (w : W64) : (d.wrLe a 8 w.toNat).word a = w := by
  have bytes : (d.wrLe a 8 w.toNat).bytes a 8 = toLe 8 w.toNat := by
    simpa only [Dev.wrLe, length_toLe] using d.bytes_wr a (toLe 8 w.toNat)
  rw [Dev.word, bytes, ofLe_toLe]
  exact BitVec.eq_of_toNat_eq (by simpa using w.isLt)

/-- The write of one word, corrections it counts included, leaves the bytes of every range apart from it. -/
theorem Dev.bytes_wrWord_apart (d : Dev) {a b n : Nat} (w : W64) (apart : b + n ≤ a ∨ a + 8 ≤ b) :
    (d.wrWord a w).bytes b n = d.bytes b n := by
  unfold Dev.wrWord
  dsimp only
  split
  · exact d.inc_bytes ..
  · rw [Dev.wrLe, Dev.bytes_wr_apart _ _ _ _ _ (by rwa [length_toLe])]
    refine List.foldlRecOn (motive := fun e : Dev => e.bytes b n = d.bytes b n) _ _ rfl fun e kept x _ => ?_
    split
    · rw [Dev.inc_bytes, kept]
    · rw [Dev.onFloor_bytes, Dev.inc_bytes, kept]

/-! ### Status words (15 R415) -/

theorem Dev.status_setStatus_self {i : Nat} (w : W64) (clean : d.errIn (statusAddr i) 8 = []) : (d.setStatus i w).status i = w := by
  rw [Dev.setStatus_clean _ _ clean, Dev.status, Dev.word_wrLe]

theorem Dev.status_setStatus_ne (d : Dev) {i k : Nat} (w : W64) (other : k ≠ i) : (d.setStatus i w).status k = d.status k := by
  have apart : statusAddr k + 8 ≤ statusAddr i ∨ statusAddr i + 8 ≤ statusAddr k := by unfold statusAddr; omega
  rw [Dev.status, Dev.word, Dev.setStatus, Dev.bytes_wrWord_apart _ _ apart, Dev.status, Dev.word]

/-- The status word of an operation that is accepted: QUEUED, with the tag's high half and the opcode. -/
abbrev queuedWord (op : Nat) (h : Hdr) : W64 := packFlds [(63, 60, 1), (25, 18, h.tag.toNat / 256), (17, 2, op)]

theorem queuedWord_state (op : Nat) (h : Hdr) : fld (queuedWord op h) 63 60 = 1 := by
  simp [packFlds, fld_putFld, fld_putFld_above]

/-- PROGRESS, PARTIAL and ERROR are 0. -/
theorem queuedWord_middle (op : Nat) (h : Hdr) : fld (queuedWord op h) 59 26 = 0 := by
  have zero : fld (0#64) 59 26 = 0 := rfl
  simp [packFlds, fld_putFld_above, fld_putFld_below, zero]

theorem queuedWord_tag (op : Nat) (h : Hdr) : fld (queuedWord op h) 25 18 = h.tag.toNat / 256 := by
  have high : h.tag.toNat / 256 < 256 := by have := h.tag.isLt; omega
  simp [packFlds, fld_putFld, fld_putFld_above, Nat.mod_eq_of_lt high]

theorem queuedWord_opcode {op : Nat} (h : Hdr) (short : op < 65536) : fld (queuedWord op h) 17 2 = op := by
  simp [packFlds, fld_putFld, Nat.mod_eq_of_lt short]

/-! ### Acceptance (15 R413, R415) -/

theorem Dev.acceptOp_slotLive {h : Hdr} {o : LongOp} (live : d.opOf (h.tag.toNat % 256) = some o) (op : Nat) (w : List W64) :
    d.acceptOp op h w = .refuse rcTagInUse noDetail := by
  simp [Dev.acceptOp, live]

theorem Dev.acceptOp_full {h : Hdr} (free : d.opOf (h.tag.toNat % 256) = none) (full : 32 ≤ d.ops.length) (op : Nat)
    (w : List W64) : d.acceptOp op h w = .refuse rcBusy noDetail := by
  simp [Dev.acceptOp, free, full]

section
variable (d) (op : Nat) (h : Hdr) (w : List W64)

theorem Dev.queueOp_status (k : Nat) :
    (d.queueOp op h w).status k = (d.setStatus (h.tag.toNat % 256) (queuedWord op h)).status k := rfl

theorem Dev.queueOp_ops :
    (d.queueOp op h w).ops = d.ops ++ [{ slot := h.tag.toNat % 256, opcode := op, params := w, running := false }] := by
  simp [Dev.queueOp]

/-- The result area of the slot is empty, whatever PARTIAL reads as. -/
theorem Dev.queueOp_resultRecord (i : Nat) : (d.queueOp op h w).resultRecord (h.tag.toNat % 256) i = List.replicate 8 0 := by
  have empty : SMap.get (fun _ => []) (d.queueOp op h w).results (h.tag.toNat % 256) = [] := by
    simp [Dev.queueOp]
  rw [Dev.resultRecord, empty, List.getD_nil, ite_self]

end

/-- Settles O16: `acceptOp` looks at the slot, then at the count, and else queues the operation; the write of its status word leaves
the other status words, and is read back where no error is stored in its codeword. -/
theorem slotsOfLongOperations : Obligations.SlotsOfLongOperations := by
  refine ⟨fun d op h w o live => Dev.acceptOp_slotLive live op w, fun d op h w free full => Dev.acceptOp_full free full op w,
    fun d op h w slot hslot room short => ?_⟩
  subst hslot
  refine ⟨Dev.acceptOp_room _ room, d.queueOp_ops op h w, fun clean => ?_, d.queueOp_resultRecord op h w,
    fun k _ other => (d.queueOp_status op h w k).trans (d.status_setStatus_ne _ other)⟩
  rw [Dev.queueOp_status, Dev.status_setStatus_self _ clean]
  exact ⟨queuedWord_state op h, queuedWord_middle op h, queuedWord_tag op h, queuedWord_opcode h short⟩

end Sys2Proof.Machine
end

section
/-! PROOF. The stash engine's records run and end: STASH, RECALL and FREE (10 R301 to R304). -/

namespace Sys2Proof.Machine

variable {d e : Dev} {k : Nat} {w : List W64} {a : Attic}

/-! ### What the records share -/

theorem withAttic_found {entry group : Nat} {u : AtticUse} (found : d.attic k entry group u = .found a) (go : Dev → Attic → Dev) :
    withAttic d k w entry group u go = go (d.readAttic a u) a := by
  rw [withAttic, found]

/-- A record without WAIT, or whose fence is released, does not wait (10 R301). -/
theorem stash_ready (ready : stWait w = true → (d.fence (stFence w)).released = true) :
    (stWait w && !(d.fence (stFence w)).released) = false := by
  cases waits : stWait w with
  | false => rfl
  | true => rw [ready waits]; rfl

/-- Words that could all be written, with the device after them. -/
theorem Dev.jobWrites_done {loc recordId : Nat} {l : List (Nat × W64)} (written : (d.jobWrites loc recordId l).2 = true) :
    d.jobWrites loc recordId l = ((d.jobWrites loc recordId l).1, true) := Prod.ext rfl written

/-! ### A record in progress whose channel has stopped (10 R303, R304) -/

section
variable {x : Bool} (going : (d.floor k).stashCur = some (w, x)) (runs : d.runs = true) (stopped : stashIdle7 d k = true)
include going runs stopped

theorem stashRun_stopped (type : recType w = 0x60) : stashRun d k = stashFinish d k w := by
  simp [stashRun, going, type, stopped, runs]

/-- A recall ends once its channel has completed. -/
theorem recallRun_completed (type : recType w = 0x61) (completed : d.get (Reg.CH_STATE_STOP_CAUSE (144 + k) 7) = 0) :
    recallRun d k = stashEnd d k w := by
  simp [recallRun, going, type, stopped, runs, completed]

end

/-- A completed stash writes its entry as valid and moves WRITE_POS. -/
theorem stashFinish_completed (completed : d.get (Reg.CH_STATE_STOP_CAUSE (144 + k) 7) = 0)
    (found : d.attic k (stEntry w) (stGroup w) {} = .found a)
    (written : (d.readAttic a {}).jobWrites (144 + k) (stId w) [(a.entryAddr, w64 a.writePos),
      (a.entryAddr + 8, packFlds [(63, 24, stBytes w), (23, 23, 1)]), (a.ctrl + 8, w64 (a.writePos + roundUp (stBytes w) 4096))] = (e, true)) :
    stashFinish d k w = stashEnd (e.inc (Reg.ATTIC_COUNT_STASHED k)) k w := by
  simp [stashFinish, completed, withAttic_found found, b2n, written]

/-- A stash stopped at its limit writes its entry as not valid and sets its group's bit of the map. -/
theorem stashFinish_dropped (limited : d.get (Reg.CH_STATE_STOP_CAUSE (144 + k) 7) = 8)
    (found : d.attic k (stEntry w) (stGroup w) { map := true } = .found a)
    (written : (d.readAttic a { map := true }).jobWrites (144 + k) (stId w) [(a.entryAddr, w64 a.writePos),
      (a.entryAddr + 8, packFlds [(63, 24, stBytes w), (23, 23, 0)]), (a.mapAddr, putMap a.map (stGroup w) true)] = (e, true)) :
    stashFinish d k w = stashEnd (stashConsume (e.inc (Reg.ATTIC_COUNT_DROPPED k)) w
      (d.get (Reg.CH_STATE_PROGRESS (144 + k) 7))) k w := by
  simp [stashFinish, limited, withAttic_found found, b2n, written]

/-! ### A STASH begins (10 R303) -/

/-- The descriptor that carries a stash into the ring. -/
abbrev intoRing (w : List W64) (a : Attic) : List W64 :=
  stashDesc w false (stAddr w) 0 (a.ring + a.writePos % 2 ^ a.ringLog2) a.ringLog2 (stBytes w) (a.ctrl + 24)

/-- The frame of a stash is recorded where it begins one. -/
abbrev Dev.pushFrame (d : Dev) (k : Nat) (w : List W64) (a : Attic) : Dev :=
  if stNewFrame w then d.onFloor k (fun f => { f with frames := f.frames ++ [a.writePos] }) else d

section
variable (sized : stBytes w ≠ 0) (mode : stFe w ≤ 2) (ready : stWait w = true → (d.fence (stFence w)).released = true)
  (found : d.attic k (stEntry w) (stGroup w) { map := true } = .found a)
  (passes : dmCheck (144 + k) 7 (intoRing w a) (Shape.ofWords []) (Shape.ofWords []) = none)
include sized mode ready found passes

/-- A stash of a group already marked is skipped. -/
theorem stashStart_marked (marked : bit a.map (stGroup w % 64) = true) (later : stFirst w = false) :
    stashStart d k w = stashEnd (stashConsume ((d.readAttic a { map := true }).inc (Reg.ATTIC_COUNT_SKIPPED k)) w 0) k w := by
  simp [stashStart, sized, Nat.not_lt.2 mode, stash_ready ready, withAttic_found found, passes, marked, later]

/-- A stash of a group that is not marked, or the group's first, launches its copy. -/
theorem stashStart_launches {f g : Dev} (unmarked : bit a.map (stGroup w % 64) = false ∨ stFirst w = true)
    (first : (d.readAttic a { map := true }).jobWrites (144 + k) (stId w)
      (if stFirst w then [(a.mapAddr, putMap a.map (stGroup w) false)] else []) = (f, true))
    (room : stNewFrame w = true → (f.floor k).frames.length < 64)
    (limit : (f.pushFrame k w a).jobWrites (144 + k) (stId w)
      [(a.ctrl + 24, w64 (a.consumePos + 2 ^ 64 - a.writePos % 2 ^ 64))] = (g, true)) :
    stashStart d k w = stashLaunch g k w (intoRing w a) := by
  have goes : (bit a.map (stGroup w % 64) && !stFirst w) = false := by
    rcases unmarked with h | h <;> simp [h]
  have pushes : (stNewFrame w && decide (64 ≤ (f.floor k).frames.length)) = false := by
    simpa using room
  simp only [stashStart, sized, Nat.not_lt.2 mode, stash_ready ready, withAttic_found found, passes, goes, first, pushes, limit,
    decide_false, Bool.or_self, Option.isSome_none, Bool.false_eq_true, ↓reduceIte]

end

/-! ### The record at the head of the list -/

section
variable (idle : (d.floor k).stashCur = none) (head : stashHead d k = (e, some w))
include idle head

theorem stashRun_head (type : recType w = 0x60) : stashRun d k = stashStart e k w := by
  simp [stashRun, idle, head, type]

variable (ready : stWait w = true → (e.fence (stFence w)).released = true)
include ready

/-- A recall of a valid entry launches the copy back (10 R304). -/
theorem recallRun_launches (type : recType w = 0x61) (mode : stFe w ≤ 1)
    (found : e.attic k (stEntry w) 0 { entry := true } = .found a) (valid : bit (wd a.entry 1) 23 = true) :
    recallRun d k = stashLaunch (e.readAttic a { entry := true }) k w (stashDesc w true
      (a.ring + (wd a.entry 0).toNat % 2 ^ a.ringLog2) a.ringLog2 (stAddr w) 0 (fld (wd a.entry 1) 63 24) 0) := by
  simp [recallRun, idle, head, type, Nat.not_lt.2 mode, stash_ready ready, withAttic_found found, valid]

/-- A FREE pops the oldest frame and moves CONSUME_POS (10 R304). -/
theorem freeRun_pops {f : Nat} {rest : List Nat} {g : Dev} (type : recType w = 0x62) (frames : (e.floor k).frames = f :: rest)
    (found : e.attic k 0 0 {} = .found a)
    (freed : (e.readAttic a {}).jobWrites (144 + k) (stId w) [(a.ctrl + 16, w64 (rest.headD a.writePos))] = (g, true)) :
    freeRun d k = stashEnd (g.onFloor k (fun f => { f with frames := rest })) k w := by
  simp only [freeRun, idle, head, type, stash_ready ready, frames, withAttic_found found, freed, ne_eq, not_true_eq_false,
    Bool.false_eq_true, ↓reduceIte]

end

/-! ### The rows -/

section
variable {s : State} {g : Dev}

theorem exec_stash (run : stashRun s.dev k = g) : exec (.stash k) s = .next (s.withDev g) := by subst run; rfl

theorem exec_recall (run : recallRun s.dev k = g) : exec (.recall k) s = .next (s.withDev g) := by subst run; rfl

theorem exec_free (run : freeRun s.dev k = g) : exec (.free k) s = .next (s.withDev g) := by subst run; rfl

end

/-- Settles O41: the record at the head begins when nothing is in progress, and the record in progress ends when its channel has
stopped; each outcome is the branch its conditions select. -/
theorem stashRecordsRun : Obligations.StashRecordsRun := by
  refine ⟨fun s k w a idle taken => ?_, fun s k w x going runs stopped => ⟨?_, ?_, ?_⟩⟩
  · have head : stashHead s.dev k = ((stashHead s.dev k).1, some w) := Prod.ext rfl taken
    intro d ready
    refine ⟨fun type sized mode found => ?_, fun type mode found valid => ?_, fun f rest type frames found => ?_⟩
    · intro d' desc passes
      refine ⟨fun marked later => exec_stash ?_, fun unmarked => ?_⟩
      · exact (stashRun_head idle head type).trans (stashStart_marked sized mode ready found passes marked later)
      · intro first pushed limit wrote room limited
        exact exec_stash ((stashRun_head idle head type).trans (stashStart_launches sized mode ready found passes unmarked
          (Dev.jobWrites_done wrote) room (Dev.jobWrites_done limited)))
    · exact exec_recall (recallRun_launches idle head ready type mode found valid)
    · intro freed written
      exact exec_free (freeRun_pops idle head ready type frames found (Dev.jobWrites_done written))
  · intro a type completed found wrote written
    exact exec_stash ((stashRun_stopped going runs stopped type).trans
      (stashFinish_completed completed found (Dev.jobWrites_done written)))
  · intro a type limited found wrote written
    exact exec_stash ((stashRun_stopped going runs stopped type).trans
      (stashFinish_dropped limited found (Dev.jobWrites_done written)))
  · intro type completed
    exact exec_recall (recallRun_completed going runs stopped type completed)

end Sys2Proof.Machine
end

section
/-! PROOF. A SELECT reads its maps and goes on at the path it chooses (11 R319 to R323, R325). -/

namespace Sys2Proof.Machine

variable {d : Dev} {w : List W64} {own ck : Bool}

/-! ### A bench's SELECT -/

/-- A bench takes the path that its SELECT chose: its maps are read, the path is counted, and the list goes on (11 R319, R325). -/
abbrev Dev.benchPath (d : Dev) (b : Nat) (w : List W64) (path : Nat) : Dev :=
  let d := (d.readMaps w).countPath b path w
  d.onBn b (fun x => { x with
    seq := .running, pos := (selGoes w path (d.bn b).pos).1, skip := (selGoes w path (d.bn b).pos).2.toList ++ x.skip })

/-- The beats by which a path slips its domain (11 R321). -/
abbrev selSlip (w : List W64) (path : Nat) : Nat := if path = 1 then selSlipB w else if path = 2 then selSlipC w else 0

section
variable (released : (d.fence (selFence w)).released = true)
  (ownBit : d.recomputeAny (selGroup w) (onesOf 8 (selFloors w)) = .value own)
  (ckptBit : (if selCkptEn w then d.recomputeAny (selCkpt w) (onesOf 8 (selFloors w)) else .value false) = .value ck)
include released ownBit ckptBit

/-- Once its maps are read, a bench's SELECT takes its path, and asks for the path's slip where there is one. -/
theorem benchSelect_chooses (b : Nat) :
    benchSelect d b w =
      let path := selPath (selForce w) (selCkptEn w) own ck
      if selSlip w path = 0 then d.benchPath b w path
      else (d.benchPath b w path).overrun b (selSlip w path) (selId w) := by
  simp only [benchSelect, released, ownBit, ckptBit, Bool.not_true, Bool.false_eq_true, ↓reduceIte]

end

/-- A bench's sequencer has its SELECT in hand while it waits for the fence and while it waits for a map. -/
theorem selectRun_bench {b : Nat} (hb : b < 144) (runs : d.runs = true)
    (waits : (d.bn b).seq = .selFence w ∨ (d.bn b).seq = .selMaps w) : selectRun d b = benchSelect d b w := by
  rcases waits with fence | maps
  · simp [selectRun, hb, runs, fence]
  · simp [selectRun, hb, runs, maps]

/-! ### A floor's SELECT (11 R320) -/

/-- A stash engine stands at a place of its list, behind the skips that began there. -/
abbrev Dev.stashAt (d : Dev) (k pos : Nat) (skip : List (Nat × Nat)) : Dev :=
  d.onFloor k (fun f => { f with stashPos := pos, stashSkip := skip })

variable {k pos : Nat} {skip : List (Nat × Nat)}

/-- A running stash engine has a SELECT at the head of its list. -/
theorem stashHead_select (hk : k < 8) (runs : d.runs = true) (en : d.get (Reg.ATTIC_CTRL_EN k) = 1)
    (running : (d.floor k).stash = .running) (place : afterSkip (d.floor k).stashPos (d.floor k).stashSkip = (pos, skip))
    (read : (d.stashAt k pos skip).fetch ((d.floor k).stashList + 64 * pos) 8 = .words w) (type : recType w = 0x70) :
    stashHead d k = (d.stashAt k pos skip, some w) := by
  simp [stashHead, hk, runs, en, running, place, read, type]

/-- A floor takes the path that its SELECT chose, which was read at the engine's place. -/
abbrev Dev.floorPath (d : Dev) (k : Nat) (w : List W64) (path : Nat) : Dev :=
  (((d.readJob ((d.floor k).stashList + 64 * (d.floor k).stashPos) 64).readMaps w).countPath (144 + k) path w).onFloor k
    (fun f => { f with
      stashPos := (selGoes w path ((d.floor k).stashPos + 1)).1,
      stashSkip := (selGoes w path ((d.floor k).stashPos + 1)).2.toList ++ f.stashSkip, stash := .running })

section
variable {e : Dev} (idle : (d.floor k).stashCur = none) (head : stashHead d k = (e, some w)) (type : recType w = 0x70)
  (ok : e.selOk w true (e.floor k).stashList ((e.floor k).stashPos + 1) = true)
  (released : (e.fence (selFence w)).released = true)
  (ownBit : e.recomputeAny (selGroup w) (onesOf 8 (selFloors w)) = .value own)
  (ckptBit : (if selCkptEn w then e.recomputeAny (selCkpt w) (onesOf 8 (selFloors w)) else .value false) = .value ck)
include idle head type ok released ownBit ckptBit

/-- An idle stash engine whose SELECT passes its checks and has read its maps takes the path. -/
theorem floorSelect_chooses : floorSelect d k = e.floorPath k w (selPath (selForce w) (selCkptEn w) own ck) := by
  simp only [floorSelect, idle, head, type, ok, released, ownBit, ckptBit, ne_eq, not_true_eq_false, Bool.not_true,
    Bool.false_eq_true, ↓reduceIte]

end

/-- The rows behind the benches are the floors'. -/
theorem selectRun_floor (hk : k < 8) : selectRun d (144 + k) = floorSelect d k := by
  have bench : ¬ 144 + k < 144 := by omega
  have floor : 144 + k < 152 := by omega
  simp only [selectRun, bench, floor, Nat.add_sub_cancel_left, ↓reduceIte]

/-! ### The row -/

theorem exec_select {s : State} {loc : Nat} {e : Dev} (run : selectRun s.dev loc = e) :
    exec (.select loc) s = .next (s.withDev e) := by subst run; rfl

/-- Settles O38: a bench's sequencer has the SELECT in hand, a floor's engine at the head of its list; both read the maps and go
on at the path. -/
theorem selectsChoosePaths : Obligations.SelectsChoosePaths := by
  refine ⟨fun s b w own ck hb runs waits released ownBit ckptBit => ?_,
    fun s k pos skip w own ck hk runs en running idle place read type ok released ownBit ckptBit => ?_⟩
  · exact exec_select ((selectRun_bench hb runs waits).trans (benchSelect_chooses released ownBit ckptBit b))
  · have head : stashHead s.dev k = (s.dev.stashAt k pos skip, some w) :=
      stashHead_select hk runs en running place read type
    have here : (s.dev.stashAt k pos skip).floor k = { s.dev.floor k with stashPos := pos, stashSkip := skip } :=
      Dev.floor_onFloor_self ..
    have takes := floorSelect_chooses idle head type (by rw [here]; exact ok) released ownBit ckptBit
    rw [Dev.floorPath, here] at takes
    exact exec_select ((selectRun_floor hk).trans takes)

end Sys2Proof.Machine
end

section
/-! PROOF. The update entries of the three kinds run (12 R338 to R343). -/

namespace Sys2Proof.Machine

variable {d e : Dev} {k kind : Nat} {w : List W64}

/-- An update list goes on behind its entry, which arrives at its fence where it asks to. -/
abbrev updNext (k : Nat) (w : List W64) (d : Dev) : Dev :=
  let d := (d.readJob ((d.floor k).updList + 64 * (d.floor k).updPos) 64).onFloor k (fun f => { f with updPos := f.updPos + 1 })
  if ueArrive w then d.arrive (160 + k) (ueFence w) else d

/-- An entry without WAIT, or whose fence is released, does not wait. -/
theorem ue_ready (ready : ueWait w = true → (d.fence (ueFence w)).released = true) :
    (ueWait w && !(d.fence (ueFence w)).released) = false := by
  simpa using ready

section
variable (head : updHead d k = (e, some w)) (ofKind : ueKind w = kind)
include head ofKind

/-- An entry of a frozen group is passed over and counted (12 R340). -/
theorem updRun_frozen (frozen : (e.group (ueGroup w)).frozen = true)
    (ready : ueWait w = true → (e.fence (ueFence w)).released = true) :
    updRun kind d k = updNext k w (e.inc (Reg.UPD_COUNT1_FROZEN k)) := by
  simp [updRun, head, ofKind, frozen, ue_ready ready]

/-- An entry that fails its checks stops the list with a schedule fault. -/
theorem updRun_refused (thawed : (e.group (ueGroup w)).frozen = false) (bad : e.ueOk (e.group (ueGroup w)) w = false) :
    updRun kind d k = (updStop e k).schedFault (144 + k) (ueId w) 0 := by
  simp [updRun, head, ofKind, thawed, bad]

/-- An entry that passes its checks updates its granules, and the list goes on, or stops at a word it cannot read or write. -/
theorem updRun_updates (thawed : (e.group (ueGroup w)).frozen = false) (ok : e.ueOk (e.group (ueGroup w)) w = true)
    (ready : ueWait w = true → (e.fence (ueFence w)).released = true) :
    updRun kind d k =
      let done := granules k (e.group (ueGroup w)) (e.constOf (ueGroup w)) w (List.range (ueGranules w)) e
      match done.2 with
      | none => updNext k w done.1
      | some a => (updStop done.1 k).memFault (144 + k) (ueId w) a := by
  simp only [updRun, head, ofKind, thawed, ok, ue_ready ready, ne_eq, not_true_eq_false, decide_false, Bool.false_and,
    Bool.not_true, Bool.false_eq_true, ↓reduceIte]
  generalize granules k (e.group (ueGroup w)) (e.constOf (ueGroup w)) w (List.range (ueGranules w)) e = done
  obtain ⟨g, _ | a⟩ := done <;> rfl

end

/-- The rows of the three kinds run the entry at the head of a running floor's list. -/
theorem exec_update {s : State} {i : Instr} (hk : k < 8) (runs : s.dev.runs = true)
    (row : i = .elementwise k ∧ kind = 0 ∨ i = .orthoMomentum k ∧ kind = 1 ∨ i = .orthoApply k ∧ kind = 2)
    (run : updRun kind s.dev k = e) : exec i s = .next (s.withDev e) := by
  have gate : (decide (k < 8) && s.dev.runs) = true := by simp [hk, runs]
  subst run
  obtain ⟨rfl, rfl⟩ | ⟨rfl, rfl⟩ | ⟨rfl, rfl⟩ := row
  · exact State.upd_eq (if_pos gate)
  · exact State.upd_eq (if_pos gate)
  · exact State.upd_eq (if_pos gate)

/-- Settles O42: each row runs the entry at the head of its list, whose group and checks decide its outcome. -/
theorem updateEntriesRun : Obligations.UpdateEntriesRun := by
  intro s k kind w i hk runs row taken ofKind
  have head : updHead s.dev k = ((updHead s.dev k).1, some w) := Prod.ext rfl taken
  refine ⟨fun frozen ready => ?_, fun thawed bad => ?_, fun thawed ok ready => ?_⟩
  · exact exec_update hk runs row (updRun_frozen head ofKind frozen ready)
  · exact exec_update hk runs row (updRun_refused head ofKind thawed bad)
  · exact exec_update hk runs row (updRun_updates head ofKind thawed ok ready)

end Sys2Proof.Machine
end

section
/-! PROOF. The outcome of a descriptor that an abort stopped is recorded as its step starts again, and the write of it can end the
job: the statement on steps fails (09 R285, 11 R308, 17 R471, R475, R476, R481). -/

namespace Sys2Proof.Machine

/-- A running job's step was aborted and starts again at beat 0. Channel 0 of bench 0 still holds the descriptor that the abort
stopped; the codeword that the descriptor came from, and that takes its word 7, has become uncorrectable and is a suspect site. -/
def haltedCopy : Dev :=
  { jobRunning with
    errs := [(0x8000, 3)]
    faults := { suspects := [(fkUncorrectable, 0, 0x8000)] }
    chans := [(0, { cur := some { words := lineCopy, place := some 0x8000, stop := some 11 } })]
    step := { replayFrom := some 0, replayAt := some 0, snap := some {} } }

/-- The replay's start is due, behind nothing else. -/
theorem haltedCopy_due : haltedCopy.js = jsRunning ∧ haltedCopy.frozen = false ∧ 0 ≤ haltedCopy.beat ∧
    haltedCopy.dueBefore 6 = false := by
  decide +kernel

/-- The write of word 7 is a fault at a suspect site: the device is in Safe, its job has ended, and PHASE is NO_STEP. -/
theorem haltedCopy_replayed : (haltedCopy.restoreSnap.beginStep true).safe = true ∧
    (haltedCopy.restoreSnap.beginStep true).js = jsEnded ∧ (haltedCopy.restoreSnap.beginStep true).get Reg.STEP_STATE_PHASE = 0 := by
  decide +kernel

/-- Refutes O43: PHASE need not be RUNNING once a step has started again. The start lets the channels that the abort stopped record
their outcome; the word of one can be uncorrectable, and, at a suspect site, the fault takes the device to Safe and ends the job,
which leaves PHASE at NO_STEP (09 R285, 11 R308, 17 R471, R475, R481). -/
theorem not_stepsStartAndClose : ¬ Obligations.StepsStartAndClose := by
  unfold Obligations.StepsStartAndClose
  rintro ⟨⟨-, replays⟩, -⟩
  obtain ⟨running, thawed, come, first⟩ := haltedCopy_due
  obtain ⟨t, -, restarted, phase⟩ := replays { dev := haltedCopy } 0 running thawed rfl come first
  obtain ⟨-, -, none_left⟩ := haltedCopy_replayed
  rw [restarted] at phase
  exact absurd (none_left.symm.trans phase) (by decide)

end Sys2Proof.Machine
end

section
/-! PROOF. A committed close flips COMMIT_PARITY and writes STEP into T_COMMITTED and every T_LOCAL (12 R334, R348). -/

namespace Sys2Proof.Machine

variable {d e f : Dev}

/-! ### Status words and result records (15 R416, R417, R419) -/

/-- The benches, the step, the job and every field but the cellars' error counts are as they were. -/
structure Dev.KeepsStep (d e : Dev) : Prop where
  bench : e.bench = d.bench
  step : e.step = d.step
  job : e.job = d.job
  get : ∀ g : Fld, (∀ k, g.addr ≠ Reg.CELLAR_ECC k) → e.get g = d.get g

theorem Dev.KeepsStep.refl (d : Dev) : d.KeepsStep d := ⟨rfl, rfl, rfl, fun _ _ => rfl⟩

theorem Dev.KeepsStep.trans (h : d.KeepsStep e) (h' : e.KeepsStep f) : d.KeepsStep f :=
  ⟨h'.bench.trans h.bench, h'.step.trans h.step, h'.job.trans h.job, fun g apart => (h'.get g apart).trans (h.get g apart)⟩

theorem Dev.setStatus_keepsStep (d : Dev) (i : Nat) (w : W64) : d.KeepsStep (d.setStatus i w) :=
  ⟨Dev.setStatus_bench .., Dev.setStatus_step .., Dev.setStatus_job .., fun _ apart => Dev.setStatus_get d i w apart⟩

theorem Dev.logEv_keepsStep (d : Dev) (source event : Nat) (l : List W64) : d.KeepsStep (d.logEv source event l) :=
  ⟨rfl, rfl, rfl, fun g _ => Dev.logEv_get d source event l g⟩

theorem Dev.closeLog_keepsStep (d : Dev) (outcome : Nat) (abandoned : Bool) : d.KeepsStep (d.closeLog outcome abandoned) :=
  Dev.logEv_keepsStep ..

theorem Dev.addResult_keepsStep (d : Dev) (i : Nat) (r : List W64) : d.KeepsStep (d.addResult i r) :=
  have kept := Dev.setStatus_keepsStep { d with results := _ } i _
  ⟨kept.bench, kept.step, kept.job, kept.get⟩

theorem Dev.keepsStep_ite {c : Prop} [Decidable c] (he : d.KeepsStep e) (hf : d.KeepsStep f) :
    d.KeepsStep (if c then e else f) := by
  split
  · exact he
  · exact hf

theorem Dev.opEnd_keepsStep (d : Dev) (slot state err : Nat) : d.KeepsStep (d.opEnd slot state err) := by
  unfold Dev.opEnd
  have kept (w : W64) := d.setStatus_keepsStep slot w
  exact Dev.keepsStep_ite ⟨(kept _).bench, (kept _).step, (kept _).job, (kept _).get⟩
    ⟨(kept _).bench, (kept _).step, (kept _).job, (kept _).get⟩

theorem Dev.stepRecord_keepsStep (d : Dev) : d.KeepsStep d.stepRecord := by
  unfold Dev.stepRecord
  split
  · exact Dev.addResult_keepsStep ..
  · exact .refl d

theorem Dev.stepOpEnd_keepsStep (d : Dev) (state err : Nat) : d.KeepsStep (d.stepOpEnd state err) := by
  unfold Dev.stepOpEnd
  split
  · exact Dev.opEnd_keepsStep ..
  · exact .refl d

/-! ### What the close writes -/

/-- T is written into the step counters of the first floors. -/
abbrev Dev.setLocals (d : Dev) (n t : Nat) : Dev := (List.range n).foldl (fun e k => e.set (Reg.UPD_COUNTER_T_LOCAL k) t) d

/-- The parity is flipped, and STEP is the step committed on the device and on every floor (12 R334). -/
def Dev.commitCounters (d : Dev) : Dev :=
  ((d.set Reg.COMMIT_STATUS_COMMIT_PARITY (1 - d.get Reg.COMMIT_STATUS_COMMIT_PARITY)).set Reg.COMMIT_STATUS_T_COMMITTED
    (d.get Reg.STEP_STATE_STEP)).setLocals 8 (d.get Reg.STEP_STATE_STEP)

/-- The registers of a commit, and the commit record (12 R334, R348). -/
def Dev.commitRegs (d : Dev) : Dev :=
  let e := (d.commitCounters.set (Reg.STEP_W0_VALID d.stepSlot) 0).commitRecord
  (((e.set Reg.STEP_STATE_PHASE 0).set Reg.STEP_STATE_LAST_OUTCOME 1).set Reg.COMMIT_STATUS_SKIPPED 0).set
    Reg.COMMIT_STATUS_DOMAIN_CAUSE 0

/-- The step and the job count a commit, and no site is suspect any longer. -/
def Dev.commitCounted (d : Dev) : Dev :=
  { d with faults := { d.faults with suspects := [] }
           step := { d.step with skips := 0, startPoll := some d.beat }
           job := { d.job with committed := d.job.committed + 1 } }

/-- The close is logged, and the operations of the step and of the job's run tell of it (15 R430, R432, 21 R541). -/
def Dev.closeReported (d : Dev) : Dev :=
  let e := (d.closeLog 0 false).stepRecord.stepOpEnd stDone 0
  match e.runningOp 0x302 with
  | some o => e.setStatusFld o.slot 49 34 e.job.committed
  | none => e

theorem Dev.closeCommitted_eq (d : Dev) : d.closeCommitted =
    let e := d.commitRegs.commitCounted.closeReported
    if e.job.steps ≠ 0 ∧ e.job.steps ≤ e.job.committed then e.imageEnd else e := rfl

theorem Dev.closeReported_keepsStep (d : Dev) : d.KeepsStep d.closeReported := by
  have ended := ((d.closeLog_keepsStep 0 false).trans (Dev.stepRecord_keepsStep _)).trans (Dev.stepOpEnd_keepsStep _ stDone 0)
  unfold Dev.closeReported
  dsimp only
  split
  · exact ended.trans (Dev.setStatus_keepsStep ..)
  · exact ended

/-! ### The registers of a commit -/

theorem Dev.setLocals_get (d : Dev) (n t : Nat) {g : Fld} (hub : g.addr < 0xFF02000000) : (d.setLocals n t).get g = d.get g := by
  have kept (e : Dev) (k : Nat) : (e.set (Reg.UPD_COUNTER_T_LOCAL k) t).reg g.addr = e.reg g.addr :=
    Dev.reg_set_ne e t (by simp only [Reg.UPD_COUNTER, floorBase]; omega)
  rw [Dev.get, Dev.reg_foldl kept, Dev.get]

theorem Dev.setLocals_get_local (d : Dev) {n k t : Nat} (ht : t < 2 ^ 32) (hk : k < n) :
    (d.setLocals n t).get (Reg.UPD_COUNTER_T_LOCAL k) = t := by
  induction n with
  | zero => omega
  | succ n ih =>
    rw [Dev.setLocals, List.range_succ, List.foldl_append, List.foldl_cons, List.foldl_nil]
    by_cases last : k = n
    · rw [last, Dev.get_set_self _ ⟨by simp, by simp⟩]
      exact Nat.mod_eq_of_lt ht
    · rw [Dev.get_set_ne _ ⟨by simp, by simp⟩ t (.inl (by simp only [Reg.UPD_COUNTER, floorBase]; omega))]
      exact ih (by omega)

theorem Dev.commitRecord_get (d : Dev) (g : Fld) : d.commitRecord.get g = d.get g := rfl

/-- Behind the counters a commit writes VALID, PHASE, LAST_OUTCOME, SKIPPED and DOMAIN_CAUSE. -/
theorem Dev.commitRegs_get (d : Dev) {g : Fld} (buffer : ∀ i < 2, g.addr ≠ Reg.STEP_W0 i) (state : g.addr ≠ Reg.STEP_STATE)
    (skipped : Reg.COMMIT_STATUS_SKIPPED.apart g) (cause : Reg.COMMIT_STATUS_DOMAIN_CAUSE.apart g) :
    d.commitRegs.get g = d.commitCounters.get g :=
  calc
    _ = (((d.commitCounters.set (Reg.STEP_W0_VALID d.stepSlot) 0).commitRecord.set Reg.STEP_STATE_PHASE 0).set
        Reg.STEP_STATE_LAST_OUTCOME 1).get g := by
      rw [Dev.commitRegs, Dev.get_set_ne _ (by decide) _ cause, Dev.get_set_ne _ (by decide) _ skipped]
    _ = (d.commitCounters.set (Reg.STEP_W0_VALID d.stepSlot) 0).get g := by
      rw [Dev.get_set_ne _ (f := Reg.STEP_STATE_LAST_OUTCOME) (by decide) _ (.inl state),
        Dev.get_set_ne _ (f := Reg.STEP_STATE_PHASE) (by decide) _ (.inl state), Dev.commitRecord_get]
    _ = d.commitCounters.get g := Dev.get_setReg_ne _ _ (buffer _ (Nat.mod_lt _ (by decide)))

theorem stepW0_ne_commitStatus (i : Nat) : Reg.COMMIT_STATUS ≠ Reg.STEP_W0 i := by
  simp only [Reg.COMMIT_STATUS, Reg.STEP_W0]
  omega

theorem Dev.commitRegs_parity (d : Dev) :
    d.commitRegs.get Reg.COMMIT_STATUS_COMMIT_PARITY = 1 - d.get Reg.COMMIT_STATUS_COMMIT_PARITY := by
  rw [Dev.commitRegs_get _ (fun i _ => stepW0_ne_commitStatus i) (by decide) (by decide) (by decide), Dev.commitCounters,
    Dev.setLocals_get _ _ _ (by decide), Dev.get_set_ne _ (by decide) _ (by decide), Dev.get_set_self _ (by decide)]
  exact Nat.mod_eq_of_lt (show 1 - _ < 2 by omega)

theorem Dev.commitRegs_committed (d : Dev) : d.commitRegs.get Reg.COMMIT_STATUS_T_COMMITTED = d.get Reg.STEP_STATE_STEP := by
  rw [Dev.commitRegs_get _ (fun i _ => stepW0_ne_commitStatus i) (by decide) (by decide) (by decide), Dev.commitCounters,
    Dev.setLocals_get _ _ _ (by decide), Dev.get_set_self _ (by decide)]
  exact Nat.mod_eq_of_lt (d.get_lt Reg.STEP_STATE_STEP)

theorem Dev.commitRegs_local (d : Dev) {k : Nat} (hk : k < 8) :
    d.commitRegs.get (Reg.UPD_COUNTER_T_LOCAL k) = d.get Reg.STEP_STATE_STEP := by
  have floor {a : Nat} (hub : a < 0xFF02000000) : (Reg.UPD_COUNTER_T_LOCAL k).addr ≠ a := by
    simp only [Reg.UPD_COUNTER, floorBase]
    omega
  rw [Dev.commitRegs_get _ (fun i hi => floor (by simp only [Reg.STEP_W0]; omega)) (floor (by decide)) (.inl (floor (by decide)))
    (.inl (floor (by decide))), Dev.commitCounters, Dev.setLocals_get_local _ (d.get_lt Reg.STEP_STATE_STEP) hk]

theorem Dev.commitRegs_phase (d : Dev) : d.commitRegs.get Reg.STEP_STATE_PHASE = 0 := by
  rw [Dev.commitRegs, Dev.get_set_ne _ (by decide) _ (by decide), Dev.get_set_ne _ (by decide) _ (by decide),
    Dev.get_set_ne _ (by decide) _ (by decide), Dev.get_set_self _ (by decide), Nat.zero_mod]

theorem Dev.commitRegs_outcome (d : Dev) : d.commitRegs.get Reg.STEP_STATE_LAST_OUTCOME = 1 := by
  rw [Dev.commitRegs, Dev.get_set_ne _ (by decide) _ (by decide), Dev.get_set_ne _ (by decide) _ (by decide),
    Dev.get_set_self _ (by decide)]
  exact Nat.mod_eq_of_lt (by decide)

/-- What no register write changes, a commit's register writes leave. -/
theorem Dev.commitRegs_keep {α : Type} (π : Dev → α) (set : ∀ (e : Dev) (f : Fld) (v : Nat), π (e.set f v) = π e)
    (record : ∀ e : Dev, π e.commitRecord = π e) (d : Dev) : π d.commitRegs = π d := by
  have locals (e : Dev) (n t : Nat) : π (e.setLocals n t) = π e :=
    List.foldlRecOn (motive := fun e' => π e' = π e) _ _ rfl fun e' kept k _ => (set e' (Reg.UPD_COUNTER_T_LOCAL k) t).trans kept
  simp only [Dev.commitRegs, Dev.commitCounters, set, record, locals]

theorem Dev.commitRegs_bench (d : Dev) : d.commitRegs.bench = d.bench :=
  Dev.commitRegs_keep Dev.bench Dev.set_bench (fun _ => rfl) d

theorem Dev.commitRegs_job (d : Dev) : d.commitRegs.job = d.job := Dev.commitRegs_keep Dev.job Dev.set_job (fun _ => rfl) d

theorem Dev.commitCounted_get (d : Dev) (g : Fld) : d.commitCounted.get g = d.get g := rfl

theorem Dev.commitCounted_bench (d : Dev) : d.commitCounted.bench = d.bench := rfl

theorem Dev.commitCounted_skips (d : Dev) : d.commitCounted.step.skips = 0 := rfl

theorem Dev.commitCounted_job (d : Dev) : d.commitCounted.job = { d.job with committed := d.job.committed + 1 } := rfl

/-! ### The close -/

/-- A close that is not the job's last leaves what the commit wrote. -/
theorem Dev.closeCommitted_keepsStep (more : d.job.steps = 0 ∨ d.job.committed + 1 < d.job.steps) :
    d.commitRegs.commitCounted.KeepsStep d.closeCommitted := by
  have told := Dev.closeReported_keepsStep d.commitRegs.commitCounted
  have job : d.commitRegs.commitCounted.closeReported.job = { d.job with committed := d.job.committed + 1 } := by
    rw [told.job, Dev.commitCounted_job, Dev.commitRegs_job]
  rw [Dev.closeCommitted_eq]
  dsimp only
  rw [if_neg (by rw [job]; dsimp only; omega)]
  exact told

/-- Settles O44: what follows the commit's registers and counts is told to the log and to the operations, and leaves them. -/
theorem commitsFlipTheParity : Obligations.CommitsFlipTheParity := by
  intro d more _
  have kept := d.closeCommitted_keepsStep more
  have get (g : Fld) (clean : ∀ k, g.addr ≠ Reg.CELLAR_ECC k) : d.closeCommitted.get g = d.commitRegs.get g :=
    (kept.get g clean).trans (Dev.commitCounted_get ..)
  have hub {a : Nat} (h : a < 0xFF02000000) (k : Nat) : a ≠ Reg.CELLAR_ECC k := by
    simp only [Reg.CELLAR_ECC, floorBase]; omega
  have floor (k j : Nat) : Reg.UPD_COUNTER k ≠ Reg.CELLAR_ECC j := by
    simp only [Reg.UPD_COUNTER, Reg.CELLAR_ECC, floorBase]; omega
  refine ⟨?_, ?_, fun k hk => ?_, ?_, ?_, ?_, ?_, ?_⟩
  · rw [get _ (hub (by decide)), Dev.commitRegs_parity]
  · rw [get _ (hub (by decide)), Dev.commitRegs_committed]
  · rw [get _ (floor k), Dev.commitRegs_local d hk]
  · rw [get _ (hub (by decide)), Dev.commitRegs_phase]
  · rw [get _ (hub (by decide)), Dev.commitRegs_outcome]
  · rw [kept.step, Dev.commitCounted_skips]
  · rw [kept.job, Dev.commitCounted_job, Dev.commitRegs_job]
  · rw [kept.bench, Dev.commitCounted_bench, Dev.commitRegs_bench]

end Sys2Proof.Machine
end

section
/-! PROOF. Domain fences are polled, and their results applied (12 R335, 13 R365, R366, 16 R447, 17 R476). -/

namespace Sys2Proof.Machine

variable {d : Dev} {f b : Nat}

/-! ### A poll (13 R365) -/

section
variable (thawed : d.frozen = false)
include thawed

/-- At a join's poll beat the device polls its readiness (16 R447). -/
theorem Dev.fencePoll_join (polls : d.job.joinPoll = some b) (join : f = d.joinFence) (due : b ≤ d.beat) :
    d.fencePoll f = ({ d with job := { d.job with joinPoll := none } } : Dev).pollOwn f
      (d.beat + d.get Reg.LAT_DOMAIN_AGREE_BEATS) ⟨d.readyToJoin, 0, d.pollFlags⟩ := by
  simp only [Dev.fencePoll, thawed, polls, join, due, and_self, Bool.false_eq_true, ↓reduceIte]

variable (joined : d.job.joinPoll = none) (set : f ≠ 0)
include joined set

/-- At a start's poll beat the device polls its arrivals with its slot's VALID (12 R335). -/
theorem Dev.fencePoll_start (moves : d.fencesMove = true) (start : f = d.startFence) (first : d.step.replayFrom = none)
    (polls : d.step.startPoll = some b) (due : b ≤ d.beat) (idle : d.get Reg.STEP_STATE_PHASE = 0) :
    d.fencePoll f = ({ d with step := { d.step with startPoll := some (d.beat + 1) } } : Dev).pollOwn f
      (d.beat + d.get Reg.LAT_DOMAIN_AGREE_BEATS) { d.pollContrib f with ok := (d.pollContrib f).ok && d.slotValid } := by
  subst start
  simp [Dev.fencePoll, thawed, joined, set, moves, first, polls, due, idle]

/-- At its poll beat another domain fence is polled with its arrivals, its flits and its slip requests (13 R365). -/
theorem Dev.fencePoll_domain (other : f ≠ d.startFence) (domain : feDomain (d.fenceEntry f) = true) (live : d.fenceLive f = true)
    (due : d.pollBeat f ≤ d.beat) (unpolled : d.lat.polls.any (fun h => h.1 = f && h.2.own.isSome) = false) :
    d.fencePoll f = (d.onFence f (fun x => { x with req := 0 })).pollOwn f (max (d.dueOf f) d.beat) (d.pollContrib f) := by
  obtain ⟨moves, -⟩ := Bool.and_eq_true_iff.1 live
  simp only [Dev.fencePoll, thawed, joined, moves, set, other, domain, live, due, unpolled, ne_eq, not_false_eq_true, decide_true,
    decide_false, Bool.and_false, Bool.and_self, Bool.not_true, Bool.not_false, Bool.false_eq_true, ↓reduceIte]

end

/-! ### A result (13 R366) -/

/-- The device waits for the result of the fence at which it joins (16 R447, 21 R534). -/
def Dev.joining (d : Dev) (f : Nat) : Prop :=
  (d.js = jsLoaded ∨ d.js = jsPreempted ∨ d.js = jsResuming ∨ d.frz.wasRunning = true) ∧ f = d.joinFence ∧ d.job.joinAt = none

theorem Dev.decide_joining (d : Dev) (f : Nat) [Decidable (d.joining f)] :
    ((d.js = jsLoaded || d.js = jsPreempted || d.js = jsResuming || d.frz.wasRunning) && f = d.joinFence && d.job.joinAt.isNone) =
      decide (d.joining f) := by
  rw [Bool.eq_iff_iff, decide_eq_true_iff]
  simp [Dev.joining, or_assoc, and_assoc]

/-- A result that releases its fence comes behind every action of 01 R37, one that slips it behind a freeze and an abort. -/
structure Dev.ResultTurn (d : Dev) (f : Nat) (c : Contrib) : Prop where
  running : d.js = jsRunning
  unpaused : d.paused = false
  unslipped : d.job.agreedSlips = []
  first : d.dueBefore 3 = false
  undegraded : d.floodDue 0 = false
  last : c.ok = true → c.num = 0 → (d.lessPoll f).dueBefore 6 = false ∧ d.floodDue 2 = false

theorem Dev.ResultTurn.goes {c : Contrib} (turn : d.ResultTurn f c) :
    (!(d.js = jsRunning && !d.paused) || !d.job.agreedSlips.isEmpty || d.dueBefore 3 || d.floodDue 0 ||
      (c.num = 0 && c.ok && ((d.lessPoll f).dueBefore 6 || d.floodDue 2))) = false := by
  simpa [turn.running, turn.unpaused, turn.unslipped, turn.first, turn.undegraded] using fun zero ok => turn.last ok zero

section
variable {h : Nat × Poll} {c : Contrib} (thawed : d.frozen = false)
  (oldest : d.lat.polls.find? (fun h => h.1 = f && h.2.own.isSome) = some h) (known : h.2.result = some c) (due : h.2.due ≤ d.beat)

include oldest known due in
/-- The oldest poll's result is taken once it is known and its beat has come. -/
theorem Dev.takeResult_oldest : d.takeResult f = some (c, h.2.due, d.lessPoll f) := by
  simp only [Dev.takeResult, oldest, known, due, ↓reduceIte]
  rfl

include thawed oldest known due

/-- A device that joins does so at the agreed beat, or polls again (16 R447). -/
theorem Dev.fenceResult_joining (joins : d.joining f) :
    d.fenceResult f = if c.ok then { d.lessPoll f with job := { (d.lessPoll f).job with joinAt := some h.2.due } }
      else { d.lessPoll f with job := { (d.lessPoll f).job with joinPoll := some (d.lessPoll f).nextJoinPoll } } := by
  classical
  simp only [Dev.fenceResult, thawed, Dev.takeResult_oldest oldest known due, Dev.decide_joining, joins, decide_true,
    Bool.false_eq_true, ↓reduceIte]

section
variable (away : ¬ d.joining f) (turn : d.ResultTurn f c)
include away turn

section
variable (set : f ≠ 0) (start : f = d.startFence)
include set start

/-- The step starts where every device is ready, none asks for a slip and every slot is VALID (12 R335). -/
theorem Dev.fenceResult_starts (first : d.step.replayFrom = none) (ok : c.ok = true) (unslipped : c.num = 0)
    (valid : c.flags / 2 % 2 = 1) : d.fenceResult f =
      (({ d.lessPoll f with step := { (d.lessPoll f).step with startPoll := none } } : Dev).dropPolls f).releaseFence f false := by
  classical
  simp only [Dev.fenceResult, thawed, Dev.takeResult_oldest oldest known due, Dev.decide_joining, away, turn.goes, set, ← start,
    first, ne_eq, not_false_eq_true, decide_true, decide_false, Bool.and_self, Bool.false_eq_true, ↓reduceIte]
  exact if_pos ⟨ok, unslipped, valid⟩

/-- An aborted step is replayed at the agreed beat (17 R476). -/
theorem Dev.fenceResult_replays (again : d.step.replayFrom ≠ none) (ok : c.ok = true) : d.fenceResult f =
    ({ d.lessPoll f with step := { (d.lessPoll f).step with replayAt := some h.2.due } } : Dev).dropPolls f := by
  classical
  obtain ⟨b, from_⟩ := Option.ne_none_iff_exists'.1 again
  simp only [Dev.fenceResult, thawed, Dev.takeResult_oldest oldest known due, Dev.decide_joining, away, turn.goes, set, ← start,
    from_, ne_eq, not_false_eq_true, decide_true, decide_false, Bool.and_self, Bool.false_eq_true, ↓reduceIte]
  exact if_pos ok

end

/-- Another fence, still open, is released where every device is ready and none asks for a slip; else it slips, by at least
AGREE_BEATS (13 R366). -/
theorem Dev.fenceResult_open (other : f = 0 ∨ f ≠ d.startFence) (open_ : d.fenceOpen f = true) : d.fenceResult f =
    if c.ok ∧ c.num = 0 then (d.lessPoll f).releaseFence f (c.flags % 2 = 1)
    else
      let e := (d.lessPoll f).onFence f (fun x => { x with firstDue := some (x.firstDue.getD h.2.due) })
      { e with job := { e.job with agreedSlips := e.job.agreedSlips ++ [(f, max c.num (d.get Reg.LAT_DOMAIN_AGREE_BEATS))] } } := by
  classical
  have other : (f ≠ 0 && f = d.startFence) = false := by
    rcases other with unset | away
    · simp only [unset, ne_eq, not_true_eq_false, decide_false, Bool.false_and]
    · simp only [away, decide_false, Bool.and_false]
  have open_ : (d.lessPoll f).fenceOpen f = true := open_
  simp only [Dev.fenceResult, thawed, Dev.takeResult_oldest oldest known due, Dev.decide_joining, away, turn.goes, other, open_,
    decide_false, Bool.not_true, Bool.false_eq_true, ↓reduceIte]

end
end

/-! ### The rows -/

section
variable {s : State} {e : Dev}

theorem exec_domainFencePoll (poll : s.dev.fencePoll f = e) : exec (.domainFencePoll f) s = .next (s.withDev e) := by
  subst poll; rfl

theorem exec_domainFenceResult (result : s.dev.fenceResult f = e) :
    exec (.domainFenceResult f) s = .next (s.withDev e) := by subst result; rfl

end

/-- Settles O55: a poll goes by its fence, and a result by whether the device joins and by its fence. -/
theorem domainFencesAgree : Obligations.DomainFencesAgree := by
  refine ⟨fun s f thawed => ⟨?_, ?_, ?_⟩, fun s f h c thawed oldest known due => ⟨?_, ?_, ?_⟩⟩
  · intro b polls join beat
    exact exec_domainFencePoll (Dev.fencePoll_join thawed polls join beat)
  · intro b joined moves set start first polls beat idle
    exact exec_domainFencePoll (Dev.fencePoll_start thawed joined set moves start first polls beat idle)
  · intro joined set other domain live beat unpolled
    exact exec_domainFencePoll (Dev.fencePoll_domain thawed joined set other domain live beat unpolled)
  · intro joins ok
    exact exec_domainFenceResult ((Dev.fenceResult_joining thawed oldest known due joins).trans (if_pos ok))
  · intro joins refused
    exact exec_domainFenceResult ((Dev.fenceResult_joining thawed oldest known due joins).trans (if_neg (by simp [refused])))
  · intro away running unpaused unslipped first undegraded last
    have turn : s.dev.ResultTurn f c := ⟨running, unpaused, unslipped, first, undegraded, last⟩
    refine ⟨fun set start fresh ok zero valid => ?_, fun set start again ok => ?_,
      fun other open_ => ⟨fun ok zero => ?_, fun slips => ?_⟩⟩
    · exact exec_domainFenceResult (Dev.fenceResult_starts thawed oldest known due away turn set start fresh ok zero valid)
    · exact exec_domainFenceResult (Dev.fenceResult_replays thawed oldest known due away turn set start again ok)
    · exact exec_domainFenceResult ((Dev.fenceResult_open thawed oldest known due away turn other open_).trans (if_pos ⟨ok, zero⟩))
    · have slips : ¬ (c.ok = true ∧ c.num = 0) := fun ⟨ok, zero⟩ => slips.elim (by simp [ok]) (· zero)
      exact exec_domainFenceResult ((Dev.fenceResult_open thawed oldest known due away turn other open_).trans (if_neg slips))

end Sys2Proof.Machine
end

section
/-! PROOF. Fuses only blow, whatever the step, and every command gives a next state (19 R502, R506; 95). -/

namespace Sys2Proof.Machine

/-! ### Fuses that only blow -/

theorem SeedBank.le_refl (a : SeedBank) : a.le a := by
  cases a <;> simp [SeedBank.le]

theorem SeedBank.le_destroyed (a : SeedBank) : a.le .destroyed := by
  cases a <;> simp [SeedBank.le]

theorem SeedBank.le_trans {a b c : SeedBank} (h : a.le b) (k : b.le c) : a.le c := by
  cases a with
  | unblown => trivial
  | seed s => rcases h with rfl | rfl
              · exact k
              · exact .inr k
  | abandoned => rcases h with rfl | rfl
                 · exact k
                 · exact .inr k
  | destroyed => cases h; exact k

namespace Fuses

variable {f g k : Fuses}

theorem le_refl (f : Fuses) : f.le f where
  blown _ h := h
  rollback := Nat.le_refl _
  banks _ a h := ⟨a, h, a.le_refl⟩
  maps := rfl
  serial := rfl
  mac := rfl

theorem le.trans (h : f.le g) (k' : g.le k) : f.le k where
  blown n b := k'.blown n (h.blown n b)
  rollback := h.rollback.trans k'.rollback
  banks i a ha := by
    obtain ⟨b, hb, ab⟩ := h.banks i a ha
    obtain ⟨c, hc, bc⟩ := k'.banks i b hb
    exact ⟨c, hc, SeedBank.le_trans ab bc⟩
  maps := k'.maps.trans h.maps
  serial := k'.serial.trans h.serial
  mac := k'.mac.trans h.mac

/-- A change of the state words alone that keeps the blown ones blown. -/
theorem le_lcWords {l : List Nat} (h : ∀ n, f.blown n = true → ({ f with lcWords := l } : Fuses).blown n = true) :
    f.le { f with lcWords := l } :=
  { le_refl f with blown := h }

theorem le_blow (f : Fuses) (n : Nat) : f.le (f.blow n) := le_lcWords fun m h => by
  simp only [blown, decide_eq_true_eq, List.getD_eq_getElem?_getD, List.getElem?_set] at h ⊢
  split
  · split
    · simp
    · next hn e => rw [List.getElem?_eq_none (by omega)] at h; simp at h
  · exact h

/-- Seed banks that each move one way. -/
theorem le_banks {l : List SeedBank} (h : ∀ (i : Nat) (a : SeedBank), f.banks[i]? = some a → ∃ b, l[i]? = some b ∧ a.le b) :
    f.le { f with banks := l } :=
  { le_refl f with banks := h }

theorem le_destroySeeds (f : Fuses) : f.le f.destroySeeds := le_banks fun i a h =>
  ⟨.destroyed, by simp [(List.getElem?_eq_some_iff.1 h).1], a.le_destroyed⟩

/-- An unblown bank may become anything. -/
theorem le_setBank {i : Nat} (h : f.banks[i]? = some .unblown) (b : SeedBank) : f.le { f with banks := f.banks.set i b } :=
  le_banks fun j a ha => by
    by_cases e : i = j
    · subst e
      obtain rfl : SeedBank.unblown = a := Option.some.inj (h.symm.trans ha)
      have : i < f.banks.length := (List.getElem?_eq_some_iff.1 h).1
      exact ⟨b, by simp [this], trivial⟩
    · exact ⟨a, by simp [e, ha], a.le_refl⟩

theorem le_rollback (f : Fuses) (n : Nat) : f.le { f with rollback := max f.rollback n } :=
  { le_refl f with rollback := Nat.le_max_left .. }

theorem le_complete (f : Fuses) : f.le f.complete := by
  have words : f.le { f with lcWords := f.lcWords.map (fun n => if 5 ≤ n then 8 else n) } := le_lcWords fun n h => by
    simp only [blown, decide_eq_true_eq, List.getD_eq_getElem?_getD, List.getElem?_map] at h ⊢
    cases e : f.lcWords[n - 1]? with
    | none => rw [e] at h; simp at h
    | some x => rw [e] at h; simp only [Option.getD_some, Option.map_some] at h ⊢; split <;> omega
  unfold complete
  dsimp only
  split
  · exact words.trans (le_destroySeeds _)
  · exact words

end Fuses

/-! ### What a command may blow (15 R406, R424 to R435; 19 R503) -/

/-- The fuses that an answer leaves are the ones before it, blown further. -/
def Ans.Blows (f : Fuses) : Ans → Prop
  | .okF f' _ _ | .refuseF f' _ _ => f.le f'
  | _ => True

/-- The command leaves the fuses as they were or blows some. -/
def Cmd.Blows (c : Cmd) : Prop := ∀ f d h w, (c.run f d h w).Blows f

section
variable (f : Fuses) (d : Dev) (op : Nat) (h : Hdr) (w : List W64)

@[simp] theorem Ans.blows_refuse (c i : Nat) : (Ans.refuse c i).Blows f := trivial
@[simp] theorem Ans.blows_refuseWith (c i : Nat) : (Ans.refuseWith d c i).Blows f := trivial
@[simp] theorem Ans.blows_hold : Ans.hold.Blows f := trivial
@[simp] theorem Ans.blows_ok (b : List W64) : (Ans.ok d b).Blows f := trivial
@[simp] theorem Ans.blows_okThen (b : List W64) (g : Fuses → Dev → Dev) : (Ans.okThen d b g).Blows f := trivial
@[simp] theorem Ans.blows_accepted : (Ans.accepted d).Blows f := trivial
@[simp] theorem Ans.blows_okF (f' : Fuses) (b : List W64) : (Ans.okF f' d b).Blows f ↔ f.le f' := .rfl
@[simp] theorem Ans.blows_refuseF (f' : Fuses) (c : Nat) : (Ans.refuseF f' d c).Blows f ↔ f.le f' := .rfl

@[simp] theorem Ans.blows_ite {p : Prop} [Decidable p] {a b : Ans} : (if p then a else b).Blows f ↔ (p → a.Blows f) ∧ (¬ p → b.Blows f) := by
  split <;> simp [*]

@[simp] theorem Dev.acceptOp_blows : (d.acceptOp op h w).Blows f := by
  simp [Dev.acceptOp]

@[simp] theorem Ans.then_blows {a : Ans} (g : Dev → Dev) (ha : a.Blows f) : (a.then_ g).Blows f := by
  cases a <;> exact ha


@[simp] theorem Ans.orElse_blows {a : Option Ans} {b : Ans} (ha : ∀ x, a = some x → x.Blows f) (hb : b.Blows f) :
    (Ans.orElse_ a b).Blows f := by
  cases a with
  | none => exact hb
  | some x => exact ha x rfl

/-- What a list of checks gives comes from the list. -/
theorem firstBad_blows {l : List (Bool × Ans)} (hl : ∀ p ∈ l, p.2.Blows f) {x : Ans} (hx : firstBad l = some x) : x.Blows f := by
  obtain ⟨p, hp, rfl⟩ := Option.map_eq_some_iff.1 hx
  exact hl p (List.mem_of_find?_eq_some hp)

theorem formBad_blows {x : Ans} (hx : formBad w = some x) : x.Blows f := by
  refine firstBad_blows f ?_ hx
  simp only [List.forall_mem_append, List.forall_mem_cons, List.forall_mem_map, List.not_mem_nil, false_implies, implies_true,
    Ans.blows_refuse, and_self]

theorem formExBad_blows {x : Ans} (hx : formExBad w = some x) : x.Blows f :=
  firstBad_blows f (by simp) hx

theorem loadBad_blows {x : Ans} (hx : loadBad w = some x) : x.Blows f :=
  firstBad_blows f (by simp) hx

theorem cellarRange_blows {a n i : Nat} {x : Ans} (hx : cellarRange a n i = some x) : x.Blows f :=
  firstBad_blows f (by simp) hx

theorem resumeBad_blows {x : Ans} (hx : d.resumeBad = some x) : x.Blows f := by
  unfold Dev.resumeBad at hx
  dsimp only at hx
  split at hx
  · split at hx
    · split at hx
      · cases hx; trivial
      · split_ifs at hx <;> cases hx <;> trivial
    · cases hx; trivial
  · cases hx; trivial

theorem bistWordBad_blows {b : List Nat} {i : Nat} {v : W64} {x : Ans} (hx : d.bistWordBad b i v = some x) : x.Blows f := by
  unfold Dev.bistWordBad at hx
  split at hx
  · cases hx; trivial
  · split at hx
    · cases hx; trivial
    · split at hx <;> cases hx; trivial

@[simp] theorem writeRegs_blows (k : Nat) (l : List (Nat × W64 × W64)) : (writeRegs d k l).Blows f := by
  unfold writeRegs; split <;> trivial

@[simp] theorem recordWrite_blows (k : Nat) (l : List (Nat × W64)) (g : Dev → Dev) : (recordWrite d k l g).Blows f := by
  unfold recordWrite; split <;> trivial

@[simp] theorem segWrite_blows (k : Nat) (l : List (Nat × Option W64)) : (segWrite d k l).Blows f := by
  unfold segWrite; split <;> trivial

@[simp] theorem Dev.acceptStep_blows (t : Nat) (w0 w1 : W64) (l : List W64) : (d.acceptStep op h w t w0 w1 l).Blows f := by
  have := d.acceptOp_blows f op h w
  unfold Dev.acceptStep
  split
  · trivial
  · split
    · simp
    · exact this

@[simp] theorem Dev.memRead_blows (t : MemTo) (bad : Nat) : (d.memRead t bad).Blows f := by
  cases t with
  | runs l => unfold Dev.memRead; dsimp only; split; · trivial
              · split <;> trivial
  | no c => trivial
  | hold => trivial

@[simp] theorem Dev.memWrite_blows (t : MemTo) (l : List Byte) (g : Dev → Dev) : (d.memWrite t l g).Blows f := by
  cases t with
  | runs rs => unfold Dev.memWrite; dsimp only; split; · trivial
               · split <;> trivial
  | no c => trivial
  | hold => trivial

@[simp] theorem Dev.authFails_blows : d.authFails.Blows f := trivial

end

/-- The one command that blows fuses: each step blows its state word, and the second one a seed bank that was unblown, the
last one every seed (19 R503, R506). -/
theorem cmdLifecycleAdvance_blows : cmdLifecycleAdvance.Blows := fun f d h w => by
  simp only [cmdLifecycleAdvance, Ans.blows_ite, Ans.blows_refuse, implies_true, true_and, Ans.blows_okF, Fuses.le_blow, Dev.authFails_blows, and_true]
  refine fun _ _ _ _ => ⟨fun _ => ?_, fun _ _ => ?_⟩
  · split
    · trivial
    · next i hi =>
      have unblown : f.banks[i]? = some .unblown := by
        have := List.findIdx?_eq_some_iff_getElem.1 hi
        obtain ⟨lt, is, -⟩ := this
        simp [lt, of_decide_eq_true is]
      split
      · exact Fuses.le_setBank unblown _
      · exact (Fuses.le_setBank unblown _).trans (Fuses.le_blow _ _)
  · exact (Fuses.le_blow _ _).trans (Fuses.le_destroySeeds _)

theorem cmdDomainForm_blows : cmdDomainForm.Blows := fun f d h w =>
  Ans.orElse_blows f (fun _ => formBad_blows f w) (by simp)

theorem cmdDomainFormEx_blows : cmdDomainFormEx.Blows := fun f d h w => by
  refine Ans.orElse_blows f (fun x hx => ?_) (by simp)
  cases bad : formBad w with
  | none => rw [bad] at hx; exact formExBad_blows f w hx
  | some y => rw [bad] at hx; cases hx; exact formBad_blows f w bad

theorem cmdLoad_blows (op n : Nat) : (cmdLoad op n).Blows := fun f d h w =>
  Ans.orElse_blows f (fun _ => loadBad_blows f w) (by simp)

theorem cmdResuming_blows (op n : Nat) : (cmdResuming op n).Blows := fun f d h w =>
  Ans.orElse_blows f (fun _ => resumeBad_blows f d) (by simp)

theorem cmdBistEx_blows : cmdBistEx.Blows := fun f d h w => by
  dsimp only [cmdBistEx]
  split
  · simp
  · refine Ans.orElse_blows f (fun x hx => ?_) (by simp)
    obtain ⟨i, -, bad⟩ := List.exists_of_findSome?_eq_some hx
    exact bistWordBad_blows f d bad

theorem cmdFirmwareUpdate_blows : cmdFirmwareUpdate.Blows := fun f d h w => by
  dsimp only [cmdFirmwareUpdate]
  split_ifs
  · simp
  · simp
  · exact Ans.orElse_blows f (fun _ => cellarRange_blows f) (by simp)

/-- Every command leaves the fuses as they were or blows some: but for LIFECYCLE_ADVANCE, each branch of a command refuses,
waits, answers or accepts with the fuses as they are. -/
theorem allCmds_blow : ∀ c ∈ allCmds, c.Blows := by
  simp only [allCmds, List.forall_mem_append, List.forall_mem_cons, List.not_mem_nil, false_implies, implies_true, and_true,
    true_and, cmdDomainForm_blows, cmdDomainFormEx_blows, cmdLoad_blows, cmdResuming_blows, cmdBistEx_blows,
    cmdFirmwareUpdate_blows, cmdLifecycleAdvance_blows]
  and_intros <;> intro f d h w
  all_goals
    dsimp only [cmdIdentify, cmdIdentifyPart, cmdSessionOpen, cmdSessionTake, cmdRegRead, cmdRegReadBlock, cmdRegWrite,
      cmdRegWriteMulti, cmdStatusRead, cmdStatusPageRead, cmdResultRead, cmdResultReadRaw, cmdOpAbort, cmdOpAbortClass,
      cmdMemRead, cmdMemReadEx, cmdMemWrite, cmdMemWriteEx, cmdCopy, cmdDescSubmit, cmdWindowOpen, cmdWindowWrite, cmdRun,
      cmdPreempting, cmdUnload, cmdSegmentMap, cmdSegmentWrite, cmdHalt, cmdHaltChannel, cmdStep, cmdStepEx, cmdGroupPreset,
      cmdGroupWrite, cmdCommitRead, cmdCommitReadEx, cmdCountersRead, cmdCountersReadEx, cmdScrub, cmdScrubEx, cmdBist,
      cmdPowerState, cmdPowerStateEx, cmdPowerRead, cmdPowerReadEx, cmdReset, cmdResetAt, cmdAttesting, cmdLifecycleAuth,
      cmdFlashWrite, cmdFreeze, cmdFreezeAt, cmdStateRead, cmdIjtagAccess, cmdLogRead, cmdLogReadEx, cmdThaw, cmdThawAt]
    repeat' split
  all_goals simp

/-! ### What the command unit blows (15 R404 to R407) -/

section
variable {c : Cmd} {f f' : Fuses} {d d' : Dev} {op : Nat} {h : Hdr} {w : List W64}

theorem Ans.Blows.answer {cached : Bool} {a : Ans} (ha : a.Blows f) (he : answer op h cached f d a = some (f', d')) : f.le f' := by
  cases a <;> cases he
  case okF => exact ha
  case refuseF => exact ha
  all_goals exact Fuses.le_refl f

theorem Cmd.Blows.serve (hc : c.Blows) : (c.serve f d h w).Blows f := by
  have run := hc f d h w
  unfold Cmd.serve
  split
  · simp
  · cases e : c.run f d h w <;> rw [e] at run <;> dsimp only
    case ok => split <;> simp
    all_goals exact run

theorem Cmd.Blows.next (hc : c.Blows) : f.le (c.next f d h w).1 := by
  have refl := Fuses.le_refl f
  unfold Cmd.next
  dsimp only
  split
  · exact refl
  · split_ifs
    · exact refl
    · exact refl
    · exact refl
    · cases e : Machine.answer c.op h true f (d.takeNumber c.op h) (c.serve f (d.takeNumber c.op h) h w) with
      | none => exact refl
      | some r => exact hc.serve.answer e

theorem Cmd.open_fuses (take : Bool) : (c.open_ take f d h).1 = f := by
  unfold Cmd.open_
  dsimp only
  split
  · rfl
  · split_ifs <;> rfl

theorem Cmd.Blows.exec (hc : c.Blows) : f.le (c.exec f d h w).1 := by
  have refl := Fuses.le_refl f
  unfold Cmd.exec
  split_ifs
  · exact refl
  · exact refl
  · exact refl
  · dsimp only
    cases e : Machine.answer c.op h false f (d.inc Reg.SM_COUNT1_UNSEQUENCED) (c.serve f (d.inc Reg.SM_COUNT1_UNSEQUENCED) h w) with
    | none => exact refl
    | some r => exact hc.serve.answer e
  · exact refl
  · rw [Cmd.open_fuses]; exact refl
  · exact refl
  · exact hc.next

theorem cmdOf_blows (hc : cmdOf op = some c) : c.Blows := allCmds_blow c (List.mem_of_find?_eq_some hc)

theorem releaseHeld_blows (n : Nat) (f : Fuses) (d : Dev) : f.le (releaseHeld n f d).1 := by
  induction n generalizing f d with
  | zero => exact Fuses.le_refl f
  | succ n ih =>
    unfold releaseHeld
    split
    · exact Fuses.le_refl f
    · next op h w rest _ =>
      dsimp only
      split
      · exact ih ..
      · next c hc =>
        split
        · next r e => exact ((cmdOf_blows hc).serve.answer e).trans (ih ..)
        · exact Fuses.le_refl f

theorem runOp_blows : f.le (runOp op h w f d).1 := by
  unfold runOp
  split
  · next c hc => exact (cmdOf_blows hc).exec
  · exact Fuses.le_refl f

theorem hostFrame_blows (port : Nat) (l : List Byte) : f.le (hostFrame runOp f d port l).1 := by
  have refl := Fuses.le_refl f
  unfold hostFrame
  split_ifs
  · exact refl
  · exact refl
  · split
    · exact refl
    · dsimp only
      split
      · exact refl
      · exact runOp_blows
    · exact refl

theorem bootRom_blows : f.le (bootRom f d).1 := by
  have complete := Fuses.le_complete f
  unfold bootRom
  split
  · exact Fuses.le_refl f
  · dsimp only
    split
    · exact complete
    · exact complete.trans (Fuses.le_rollback _ _)

end

/-! ### The forms that the meaning of a row takes (95) -/

/-- What a row does: a command of the tables, a change of the device, one that reads the fuses, one after which held commands
are tried, the boot, or a frame. -/
inductive RowForm (s : State) : Host.Outcome State Fault Refusal → Prop
  | command {c : Cmd} (listed : c ∈ allCmds) (h : Hdr) (w : List W64) : RowForm s (s.cmd c h w)
  | device (g : Dev → Dev) : RowForm s (s.upd g)
  | fused (g : Fuses → Dev → Dev) : RowForm s (s.updF g)
  | held (g : Dev → Dev) : RowForm s (s.updHeld g)
  | boot : RowForm s (execBootRom s)
  | frame (port : Nat) (l : List Byte) : RowForm s (execHostFrameReceive port l s)

theorem exec_rowForm (i : Instr) (s : State) : RowForm s (exec i s) := by
  cases i <;> dsimp only [exec] <;> constructor
  all_goals simp [allCmds]

/-- Every row gives a next state, with the queue as it was and the fuses as they were or blown. -/
theorem RowForm.next {s : State} {o : Host.Outcome State Fault Refusal} (r : RowForm s o) :
    ∃ t, o = .next t ∧ t.pending = s.pending ∧ s.fuses.le t.fuses := by
  cases r with
  | command listed h w => exact ⟨_, rfl, rfl, (allCmds_blow _ listed).exec⟩
  | device g => exact ⟨_, rfl, rfl, Fuses.le_refl _⟩
  | fused g => exact ⟨_, rfl, rfl, Fuses.le_refl _⟩
  | held g => exact ⟨_, rfl, rfl, releaseHeld_blows ..⟩
  | boot => exact ⟨_, rfl, rfl, bootRom_blows⟩
  | frame port l => exact ⟨_, rfl, rfl, hostFrame_blows ..⟩

/-- Settles O1: `step` is defined so. -/
theorem stepTakesFront : Obligations.StepTakesFront := fun c q s waits => by
  rw [step, waits]

/-- Settles O2: an empty queue idles, and every row has one of the forms above. -/
theorem everyCommandAnswers : Obligations.EveryCommandAnswers := by
  refine ⟨fun s empty => by rw [step, empty], fun i s => ?_⟩
  obtain ⟨t, next, pending, -⟩ := (exec_rowForm i s).next
  exact ⟨t, next, pending⟩

/-- Settles O3: a step is a row on the same fuses, and no row takes a blown fuse back. -/
theorem fusesOneWay : Obligations.FusesOneWay := by
  intro s t steps
  cases waits : s.pending with
  | nil =>
    rw [everyCommandAnswers.1 s waits] at steps
    cases steps
    exact Fuses.le_refl _
  | cons c q =>
    rw [stepTakesFront c q s waits] at steps
    obtain ⟨t', next, -, le⟩ := (exec_rowForm c { s with pending := q }).next
    cases next.symm.trans steps
    exact le

end Sys2Proof.Machine
end

section
/-! PROOF. The state at reset, and the rows of the host that read: identity, registers, status words, results, counters, power
and log (15 R416 to R425, R431, R435; 18 R500; 21 R542). -/

namespace Sys2Proof.Machine

/-- Settles O4: `State.reset` is a closed state, and each value is read off it. -/
theorem resetState : Obligations.ResetState := by
  unfold Obligations.ResetState
  decide +kernel

/-! ### What a count of unsequenced packets leaves -/

section
variable (s : State)

/-- Counting a packet leaves every register of benches and floors. -/
theorem State.counted_unitReg {a : Nat} (ha : 0xFF01000000 ≤ a) : s.counted.reg a = s.dev.reg a :=
  s.dev.counted_reg a (Nat.ne_of_gt (lt_of_lt_of_le (by decide) ha))

theorem State.counted_unitGet {f : Fld} (hf : 0xFF01000000 ≤ f.addr) : s.counted.get f = s.dev.get f :=
  s.dev.counted_get f (Nat.ne_of_gt (lt_of_lt_of_le (by decide) hf))

theorem benchBase_le (b : Nat) : 0xFF01000000 ≤ benchBase b := by unfold benchBase; omega

theorem floorBase_le (k : Nat) : 0xFF01000000 ≤ floorBase k := by unfold floorBase; omega

theorem State.counted_benchReg (b o : Nat) : s.counted.reg (benchBase b + o) = s.dev.reg (benchBase b + o) :=
  s.counted_unitReg ((benchBase_le b).trans (Nat.le_add_right ..))

theorem State.counted_floorReg (k o : Nat) : s.counted.reg (floorBase k + o) = s.dev.reg (floorBase k + o) :=
  s.counted_unitReg ((floorBase_le k).trans (Nat.le_add_right ..))

theorem State.counted_bypassMap (b : Nat) : s.counted.bypassMap b = s.dev.bypassMap b := by
  simp only [Dev.bypassMap, Reg.LR_BYPASS, Nat.add_assoc, s.counted_benchReg]

theorem State.counted_identityWords : identityWords s.fuses s.counted = identityWords s.fuses s.dev := by
  simp only [identityWords, Dev.censusDigest, s.counted_bypassMap, Dev.life, Dev.power, Dev.mode, Dev.safe, Dev.jobLoaded, Dev.js,
    Dev.index]
  simp (disch := decide) only [Dev.counted_get]
  rfl

theorem State.counted_widths : (List.range 144).flatMap (fun b => toLe 2 (s.counted.get (Reg.LR_WIDTH_PRESENTED_WIDTH b))) =
    (List.range 144).flatMap (fun b => toLe 2 (s.dev.get (Reg.LR_WIDTH_PRESENTED_WIDTH b))) := by
  simp only [Dev.get, Reg.LR_WIDTH, s.counted_benchReg]

end

section
variable {s : State} {h : Hdr} {w : List W64}

/-- The words that IDENTIFY_PART answers with. -/
def Dev.partWords (d : Dev) (f : Fuses) (part : Nat) : List W64 :=
  if part = 0 then identityWords f d ++ bytesWords 8 d.boot.fwDigest
  else if part = 1 then packWords ((List.range 144).flatMap (fun b => toLe 2 (d.get (Reg.LR_WIDTH_PRESENTED_WIDTH b))))
  else (List.range 72).flatMap (fun b => (List.range 4).map (fun i => d.reg (Reg.LR_BYPASS (72 * (part - 2) + b) i)))

theorem cmdIdentifyPart_run {d : Dev} (f : Fuses) (fields : reserved (wd w 0) [(1, 0)] = false) :
    cmdIdentifyPart.run f d h w = .ok d (d.partWords f (fld (wd w 0) 1 0)) := by
  have lt : fld (wd w 0) 1 0 < 4 := fld_lt _ _ _
  simp only [cmdIdentifyPart, fields, Bool.false_eq_true, ↓reduceIte]
  generalize fld (wd w 0) 1 0 = part at lt ⊢
  match part, lt with
  | 0, _ => rfl
  | 1, _ => rfl
  | 2, _ => rfl
  | 3, _ => rfl

theorem State.counted_partWords (part : Nat) : s.counted.partWords s.fuses part = s.dev.partWords s.fuses part := by
  simp only [Dev.partWords, s.counted_identityWords, s.counted_widths, Reg.LR_BYPASS, Nat.add_assoc, s.counted_benchReg]
  simp only [Dev.inc_boot]

theorem Dev.partWords_length (d : Dev) (f : Fuses) (part : Nat) : (d.partWords f part).length ≤ 288 := by
  unfold Dev.partWords
  split_ifs
  · simp [identityWords, length_bytesWords]
  · simp [length_packWords, length_toLe]
  · simp

/-- Settles O8. -/
theorem identityReadsAnswer : Obligations.IdentityReadsAnswer := by
  unfold Obligations.IdentityReadsAnswer
  refine ⟨fun s h w a hb => ?_, fun s h w a fields hb => ?_⟩
  · exact State.cmd_read a rfl rfl (congrArg (Ans.ok s.counted) s.counted_identityWords) hb
  · have run := (cmdIdentifyPart_run s.fuses (d := s.counted) (h := h) fields).trans
      (congrArg (Ans.ok s.counted) (s.counted_partWords _))
    exact State.cmd_read a rfl rfl run ((Nat.mul_le_mul_left 8 (Dev.partWords_length ..)).trans hb)

/-! ### Registers, status words and results (15 R416 to R425) -/

theorem cmdRegRead_run {d : Dev} (f : Fuses) (fields : reserved (wd w 0) [(39, 0)] = false)
    (address : regAddrOk (fld (wd w 0) 39 0) = true) :
    cmdRegRead.run f d h w = .ok (d.wakeRegs [fld (wd w 0) 39 0]) [d.reg (fld (wd w 0) 39 0)] := by
  simp [cmdRegRead, fields, address]

theorem cmdRegReadBlock_run {d : Dev} (f : Fuses) {a n : Nat} (fields : reserved (wd w 0) [(63, 53), (39, 0)] = false)
    (first : fld (wd w 0) 39 0 = a) (count : fld (wd w 0) 63 53 = n) (pos : 1 ≤ n) (le : n ≤ 1138)
    (addresses : ∀ i, i < n → regAddrOk (a + 8 * i) = true) :
    cmdRegReadBlock.run f d h w = .ok (d.wakeRegs ((List.range n).map (fun i => a + 8 * i)))
      ((List.range n).map (fun i => d.reg (a + 8 * i))) := by
  have all : ((List.range n).map (fun i => a + 8 * i)).all regAddrOk = true := by simpa using addresses
  simp only [cmdRegReadBlock, fields, first, count, all]
  rw [if_neg (by simp; omega), List.map_map]
  rfl

/-- Counting a packet leaves the status page and the result areas. -/
theorem State.counted_status (i : Nat) : s.counted.status i = s.dev.status i := by
  simp only [Dev.status, Dev.word, Dev.bytes, Dev.inc_mem]

theorem State.counted_resultRecord (slot i : Nat) : s.counted.resultRecord slot i = s.dev.resultRecord slot i := by
  simp only [Dev.resultRecord, State.counted_status, Dev.inc_results]

theorem cmdStatusRead_run {d : Dev} (f : Fuses) (fields : reserved (wd w 0) [(7, 0)] = false) :
    cmdStatusRead.run f d h w = .ok d [d.status (fld (wd w 0) 7 0)] := by
  simp [cmdStatusRead, fields]

theorem cmdStatusPageRead_run {d : Dev} (f : Fuses) (fields : reserved (wd w 0) [(15, 0)] = false) :
    cmdStatusPageRead.run f d h w = .ok d ((List.range (fld (wd w 0) 15 8 + 1)).map
      (fun i => d.status ((fld (wd w 0) 7 0 + i) % 256))) := by
  simp [cmdStatusPageRead, fields]

theorem cmdResultRead_run {d : Dev} (f : Fuses) {n : Nat} (fields : reserved (wd w 0) [(7, 0), (25, 16), (41, 32)] = false)
    (count : fld (wd w 0) 41 32 = n) (pos : 1 ≤ n) (le : n ≤ 142) :
    cmdResultRead.run f d h w = .ok d ((List.range n).flatMap
      (fun i => d.resultRecord (fld (wd w 0) 7 0) (fld (wd w 0) 25 16 + i))) := by
  simp only [cmdResultRead, fields, count]
  rw [if_neg (by simp; omega)]

theorem cmdResultReadRaw_run {d : Dev} (f : Fuses) {n : Nat} (fields : reserved (wd w 0) [(7, 0), (28, 16), (44, 32)] = false)
    (count : fld (wd w 0) 44 32 = n) (room : 8 * n ≤ d.replyMax) :
    cmdResultReadRaw.run f d h w = .ok d ((List.range n).map (fun i =>
      (d.resultRecord (fld (wd w 0) 7 0) ((fld (wd w 0) 28 16 + i) / 8)).getD ((fld (wd w 0) 28 16 + i) % 8) 0)) := by
  simp only [cmdResultReadRaw, fields, count]
  rw [if_neg (by simp; omega)]

/-- A list of blocks of eight words each. -/
theorem length_flatMap_range_eight {α : Type} (f : Nat → List α) (hf : ∀ i, (f i).length = 8) (n : Nat) :
    ((List.range n).flatMap f).length = 8 * n := by
  simp [List.length_flatMap, hf, Nat.mul_comm]

/-- Settles O9. -/
theorem registerReadsAnswer : Obligations.RegisterReadsAnswer := by
  unfold Obligations.RegisterReadsAnswer
  refine ⟨⟨fun s h w a fields address hb => ?_, fun s h w a n asked fields first count pos le addresses hb => ?_,
    fun s a ha => s.dev.counted_reg a ha⟩, fun s h w a fields hb => ?_, fun s h w i n asked fields first count hb => ?_,
    fun s h w slot first n asked fields e1 e2 e3 pos le len hb => ?_, fun s h w slot first n asked fields e1 e2 e3 hb => ?_,
    fun s slot i hi => if_neg (Nat.not_lt.2 hi)⟩
  · exact State.cmd_read a rfl rfl (cmdRegRead_run _ fields address) hb
  · exact State.cmd_read asked rfl rfl (cmdRegReadBlock_run _ fields first count pos le addresses) (by simpa using hb)
  · have run := cmdStatusRead_run (d := s.counted) (h := h) s.fuses fields
    rw [s.counted_status] at run
    exact State.cmd_read a rfl rfl run hb
  · have run := cmdStatusPageRead_run (d := s.counted) (h := h) s.fuses fields
    simp only [s.counted_status, first, count] at run
    exact State.cmd_read asked rfl rfl run (by simpa using hb)
  · have run := cmdResultRead_run (d := s.counted) (h := h) s.fuses fields e3 pos le
    simp only [s.counted_resultRecord, e1, e2] at run
    exact State.cmd_read asked rfl rfl run (by rw [length_flatMap_range_eight _ (fun i => len _)]; omega)
  · have run := cmdResultReadRaw_run (d := s.counted) (h := h) s.fuses fields e3 (by rwa [Dev.counted_replyMax])
    simp only [s.counted_resultRecord, e1, e2] at run
    exact State.cmd_read asked rfl rfl run (by simpa using hb)

/-! ### Step, counters, power and log (15 R431, R435; 18 R500; 21 R542) -/

theorem State.counted_commitWords : s.counted.commitWords = s.dev.commitWords := by
  simp (disch := decide) only [Dev.commitWords, Dev.counted_reg]

theorem State.counted_updCounts (k : Nat) :
    [s.counted.reg (Reg.UPD_COUNT0 k), s.counted.reg (Reg.UPD_COUNT1 k), s.counted.reg (Reg.UPD_COUNTER k)] =
      [s.dev.reg (Reg.UPD_COUNT0 k), s.dev.reg (Reg.UPD_COUNT1 k), s.dev.reg (Reg.UPD_COUNTER k)] := by
  simp only [Reg.UPD_COUNT0, Reg.UPD_COUNT1, Reg.UPD_COUNTER, s.counted_floorReg]

theorem State.counted_arithOf (u i : Nat) : s.counted.arithOf u i = s.dev.arithOf u i := by
  simp only [Dev.arithOf, Dev.inc_arith]

/-- A sum over registers of benches or floors does not see the count. -/
theorem State.counted_sumFields {n : Nat} {l : List (Nat → Fld)} (hl : ∀ f ∈ l, ∀ i, 0xFF01000000 ≤ (f i).addr) :
    s.counted.sumFields n l = s.dev.sumFields n l := by
  unfold Dev.sumFields
  refine List.foldl_ext _ _ _ fun w f hf => ?_
  simp only [s.counted_unitGet (hl f hf _)]

theorem State.counted_spEcc : s.counted.sumFields 144 [Reg.SP_ECC_CORRECTED, Reg.SP_ECC_UNCORRECTABLE] =
    s.dev.sumFields 144 [Reg.SP_ECC_CORRECTED, Reg.SP_ECC_UNCORRECTABLE] :=
  s.counted_sumFields (by
    simp only [List.mem_cons, List.not_mem_nil, or_false, forall_eq_or_imp, forall_eq]
    exact ⟨fun i => (benchBase_le i).trans (Nat.le_add_right ..), fun i => (benchBase_le i).trans (Nat.le_add_right ..)⟩)

theorem State.counted_cellarEcc :
    s.counted.sumFields 8 [Reg.CELLAR_ECC_CORRECTED, Reg.CELLAR_ECC_DIE_CORRECTIONS, Reg.CELLAR_ECC_UNCORRECTABLE] =
      s.dev.sumFields 8 [Reg.CELLAR_ECC_CORRECTED, Reg.CELLAR_ECC_DIE_CORRECTIONS, Reg.CELLAR_ECC_UNCORRECTABLE] :=
  s.counted_sumFields (by
    simp only [List.mem_cons, List.not_mem_nil, or_false, forall_eq_or_imp, forall_eq]
    exact ⟨fun i => (floorBase_le i).trans (Nat.le_add_right ..), fun i => (floorBase_le i).trans (Nat.le_add_right ..),
      fun i => (floorBase_le i).trans (Nat.le_add_right ..)⟩)

theorem State.counted_frozen : s.counted.frozen = s.dev.frozen := by
  simp (disch := decide) only [Dev.frozen, Dev.counted_get, Dev.inc_boot]

theorem State.counted_hottestDie : s.counted.hottestDie = s.dev.hottestDie := by
  simp (disch := decide) only [Dev.hottestDie, Dev.counted_reg]

theorem State.counted_ringWords (i : Nat) : s.counted.ringWords i = s.dev.ringWords i := by
  unfold Dev.ringWords
  rw [Dev.inc_log, Dev.counted_get _ _ (by decide)]

theorem cmdCountersReadEx_run {d : Dev} (f : Fuses) {u : Nat} {ar : Area} (fields : reserved (wd w 0) [(7, 0)] = false)
    (unit : fld (wd w 0) 7 0 = u) (le : u ≤ 152) (area : ar = (if u < 144 then .bench else if u < 152 then .floor else .hub)) :
    cmdCountersReadEx.run f d h w = .ok (d.wakeRegs [locBase u])
      ((List.range 4).map (fun i => w64 (d.arithOf u i)) ++ (counterOffsets ar).map (fun o => d.reg (locBase u + o))) := by
  subst area
  simp only [cmdCountersReadEx, fields, unit]
  rw [if_neg (by simp; omega)]

theorem cmdLogRead_run {d : Dev} (f : Fuses) {count n : Nat} (fields : reserved (wd w 0) [(13, 0)] = false)
    (e : fld (wd w 0) 13 0 = count) (hn : d.get Reg.LOG_STATUS_WRITE_SEQ = n) (room : 64 * count ≤ d.replyMax) :
    cmdLogRead.run f d h w = .ok d ((List.range (min count (min n 16384))).flatMap
      (fun i => d.ringWords ((n - min count (min n 16384) + i) % 16384))) := by
  simp only [cmdLogRead, fields, e, hn]
  rw [if_neg (by simp; omega)]

theorem cmdLogReadEx_run {d : Dev} (f : Fuses) {count : Nat} (fields : reserved (wd w 0) [(13, 0), (29, 16)] = false)
    (e : fld (wd w 0) 29 16 = count) (room : 64 * count ≤ d.replyMax) :
    cmdLogReadEx.run f d h w = .ok d ((List.range count).flatMap
      (fun i => d.ringWords ((fld (wd w 0) 13 0 + i) % 16384))) := by
  simp only [cmdLogReadEx, fields, e]
  rw [if_neg (by simp; omega)]

theorem pwrWord_ne {i : Nat} (hi : i < 16) : Reg.PWR_STATUS + 8 * i ≠ Reg.SM_COUNT1 := by
  revert i
  decide

/-- Settles O10. -/
theorem stateReadsAnswer : Obligations.StateReadsAnswer := by
  unfold Obligations.StateReadsAnswer
  refine ⟨⟨fun s h w a hb => ?_, fun s h w a hb => ?_⟩, ⟨fun s h w a hb => ?_, fun s h w u ar a fields unit le area hb => ?_⟩,
    ⟨fun s h w a hb => ?_, fun s h w a hb => ?_⟩,
    fun s h w count n m a fields e hn hm hb len => ?_, fun s h w first count a fields e1 e2 hb len => ?_⟩
  · exact State.cmd_read a rfl rfl (congrArg (Ans.ok s.counted) s.counted_commitWords) hb
  · refine State.cmd_read a rfl rfl (congrArg (Ans.ok _) ?_) hb
    simp only [s.counted_commitWords, s.counted_updCounts]
    rfl
  · refine State.cmd_read a rfl rfl (congrArg₂ Ans.ok ?_ ?_) hb
    · rw [s.counted_frozen]
    · simp only [s.counted_arithOf, s.counted_spEcc, s.counted_cellarEcc]
      simp (disch := decide) only [Dev.counted_reg]
      rfl
  · have run := cmdCountersReadEx_run (d := s.counted) (h := h) s.fuses fields unit le area
    simp only [s.counted_arithOf] at run
    exact State.cmd_read a rfl rfl run (by simpa using hb)
  · refine State.cmd_read a rfl rfl (congrArg (Ans.ok s.counted) ?_) hb
    rw [s.counted_hottestDie, Dev.counted_get _ _ (by decide)]
  · refine State.cmd_read a rfl rfl (congrArg (Ans.ok s.counted) ?_) hb
    exact List.map_congr_left fun i hi => s.dev.counted_reg _ (pwrWord_ne (List.mem_range.1 hi))
  · have run := cmdLogRead_run (d := s.counted) (h := h) s.fuses fields e
      ((Dev.counted_get _ Reg.LOG_STATUS_WRITE_SEQ (by decide)).trans hn) (by rwa [Dev.counted_replyMax])
    rw [← hm] at run
    simp only [s.counted_ringWords] at run
    exact State.cmd_read a rfl rfl run (by rw [length_flatMap_range_eight _ (fun i => len _)]; omega)
  · have run := cmdLogReadEx_run (d := s.counted) (h := h) s.fuses fields e2 (by rwa [Dev.counted_replyMax])
    simp only [s.counted_ringWords, e1] at run
    exact State.cmd_read a rfl rfl run (by rw [length_flatMap_range_eight _ (fun i => len _)]; omega)

end

end Sys2Proof.Machine
end

section
/-! PROOF. What the command unit does with a packet before its row's own checks: refusals, sequence numbers, sessions (15 R401 to
R412). -/

namespace Sys2Proof.Machine

section
variable {c : Cmd} {s : State} {h : Hdr} {w : List W64}

/-! ### The first checks of a packet, in their order -/

theorem State.cmd_eq {d : Dev} (e : c.exec s.fuses s.dev h w = (s.fuses, d)) : s.cmd c h w = .next (s.withDev d) := by
  unfold State.cmd
  rw [e]

theorem State.cmd_unserved (hs : s.dev.serving = false) : s.cmd c h w = .next s :=
  State.cmd_eq (by simp [Cmd.exec, hs])

theorem State.cmd_badVersion (hs : s.dev.serving = true) (hv : h.version ≠ 1) :
    s.cmd c h w = .next (s.withDev (s.dev.reply c.op h rcBadVersion noDetail [])) :=
  State.cmd_eq (by simp [Cmd.exec, hs, hv])

theorem State.cmd_badLength (hs : s.dev.serving = true) (hv : h.version = 1) (hl : c.len w = false) :
    s.cmd c h w = .next (s.withDev (s.dev.reply c.op h rcLength noDetail [])) :=
  State.cmd_eq (by simp [Cmd.exec, hs, hv, hl])

/-- A packet that passes the checks of version and length. -/
structure Formed (c : Cmd) (s : State) (h : Hdr) (w : List W64) : Prop where
  serving : s.dev.serving = true
  version : h.version = 1
  length : c.len w = true
  short : w.length ≤ 1138

theorem Heard.formed (a : Heard c s h w) : Formed c s h w := ⟨a.serving, a.version, a.length, a.short⟩

theorem Formed.exec_eq (a : Formed c s h w) : c.exec s.fuses s.dev h w =
    if h.noseq then
      if c.free then (answer c.op h false s.fuses s.counted (c.serve s.fuses s.counted h w)).getD (s.fuses, s.counted)
      else (s.fuses, s.dev.reply c.op h rcParameter noDetail [])
    else if basicOp c.op = 0x102 then c.open_ (c.op ≠ 0x102) s.fuses s.dev h
    else if h.session = 0 || h.session.toNat ≠ s.dev.get Reg.SM_STATE_SESSION then
      (s.fuses, s.dev.reply c.op h rcSession noDetail [])
    else c.next s.fuses s.dev h w := by
  unfold Cmd.exec
  simp only [a.serving, a.version, a.length, Nat.not_lt.2 a.short, Bool.not_true, Bool.false_eq_true, ↓reduceIte, ne_eq,
    not_true_eq_false, decide_false, Bool.or_self]

theorem State.cmd_needsSequence (a : Formed c s h w) (hn : h.noseq = true) (hf : c.free = false) :
    s.cmd c h w = .next (s.withDev (s.dev.reply c.op h rcParameter noDetail [])) :=
  State.cmd_eq (by rw [a.exec_eq, if_pos hn, if_neg (by simp [hf])])

theorem State.cmd_wrongSession (a : Formed c s h w) (hn : h.noseq = false) (ho : basicOp c.op ≠ 0x102)
    (hw : h.session = 0 ∨ h.session.toNat ≠ s.dev.get Reg.SM_STATE_SESSION) :
    s.cmd c h w = .next (s.withDev (s.dev.reply c.op h rcSession noDetail [])) :=
  State.cmd_eq (by rw [a.exec_eq, if_neg (by simp [hn]), if_neg ho, if_pos (by simpa using hw)])

/-- A sequenced packet of the open session goes by its number. -/
theorem Formed.exec_next (a : Formed c s h w) (hn : h.noseq = false) (ho : basicOp c.op ≠ 0x102) (h0 : h.session ≠ 0)
    (hs : h.session.toNat = s.dev.get Reg.SM_STATE_SESSION) : c.exec s.fuses s.dev h w = c.next s.fuses s.dev h w := by
  rw [a.exec_eq, if_neg (by simp [hn]), if_neg ho, if_neg (by simpa [hs] using h0)]

/-! ### Refusals of the device state (15 R412) -/

/-- A device that its state, its life cycle or the row's precondition keeps from a row. -/
def Cmd.Barred (c : Cmd) (d : Dev) : Prop := d.admits c.op = false ∨ d.life ∉ c.states ∨ c.pre d = false

theorem Cmd.Barred.serve {d : Dev} (b : c.Barred d) (f : Fuses) :
    c.serve f d h w = .refuseWith (c.refused d) rcState noDetail := by
  unfold Cmd.serve
  rw [if_pos]
  rcases b with b | b | b <;> simp [b]

theorem State.cmd_barred_unsequenced (a : Formed c s h w) (hn : h.noseq = true) (hf : c.free = true) (hr : c.refused = id)
    (b : c.Barred s.counted) : s.cmd c h w = .next (s.withDev (s.counted.reply c.op h rcState noDetail [])) :=
  State.cmd_eq (by rw [a.exec_eq, if_pos hn, if_pos hf, b.serve, hr]; rfl)

theorem State.cmd_barred_sequenced (a : Formed c s h w) (hn : h.noseq = false) (ho : basicOp c.op ≠ 0x102)
    (h0 : h.session ≠ 0) (hs : h.session.toNat = s.dev.get Reg.SM_STATE_SESSION) (hq : h.seq = s.dev.expected)
    (alone : s.dev.smiper.heldCmds = []) (b : c.Barred (s.taken c.op h)) :
    s.cmd c h w = .next (s.withDev ((c.refused (s.taken c.op h)).refusal c.op h rcState noDetail)) := by
  have held : (s.taken c.op h).smiper.heldCmds = [] := by simp [Dev.takeNumber, alone]
  exact State.cmd_eq (by
    rw [a.exec_next hn ho h0 hs, Cmd.next_one _ _ _ _ _ (Dev.seqAhead_expected _ hq) held, b.serve]; rfl)

/-- Settles O5. -/
theorem packetsAreRefused : Obligations.PacketsAreRefused := by
  unfold Obligations.PacketsAreRefused
  refine ⟨fun c s h w hs => State.cmd_unserved hs, fun c s h w hs => ⟨State.cmd_badVersion hs, State.cmd_badLength hs,
    fun hv hl hw => State.cmd_needsSequence ⟨hs, hv, hl, hw⟩, fun hv hl hw => State.cmd_wrongSession ⟨hs, hv, hl, hw⟩⟩,
    fun s h op w hs ho => ?_, fun c s h w hs hv hl hw => ⟨State.cmd_barred_unsequenced ⟨hs, hv, hl, hw⟩,
      State.cmd_barred_sequenced ⟨hs, hv, hl, hw⟩⟩⟩
  show execUnknownOpcode h op w s = _
  unfold execUnknownOpcode unknownOp State.upd
  by_cases hv : h.version = 1 <;> simp [hs, ho, hv]

/-! ### Numbers out of sequence (15 R406) -/

theorem Cmd.next_ahead {f : Fuses} {d : Dev} (lo : 2 ≤ d.seqAhead h.seq) (hi : d.seqAhead h.seq < 2 ^ 31) :
    c.next f d h w = (f, (d.inc Reg.SM_COUNT1_AHEAD).reply c.op h rcSeqAhead noDetail []) := by
  have fresh : (d.seqAhead h.seq = 0 || decide (2 ^ 32 - 63 ≤ d.seqAhead h.seq)) = false := by simp; omega
  unfold Cmd.next
  simp only [fresh, Bool.false_eq_true, ↓reduceIte, Bool.false_or]
  rw [if_neg (by simp; omega), if_pos (by omega)]

theorem Cmd.next_stale {f : Fuses} {d : Dev} (lo : 2 ^ 31 ≤ d.seqAhead h.seq) (hi : d.seqAhead h.seq < 2 ^ 32 - 63) :
    c.next f d h w = (f, (d.inc Reg.SM_COUNT1_STALE).reply c.op h rcSeqStale noDetail []) := by
  have fresh : (d.seqAhead h.seq = 0 || decide (2 ^ 32 - 63 ≤ d.seqAhead h.seq)) = false := by simp; omega
  unfold Cmd.next
  simp only [fresh, Bool.false_eq_true, ↓reduceIte, Bool.false_or]
  rw [if_pos (by simp; omega)]

theorem Cmd.next_recent {f : Fuses} {d : Dev} (hn : d.seqAhead h.seq = 0 ∨ 2 ^ 32 - 63 ≤ d.seqAhead h.seq) :
    c.next f d h w = (f, (d.resent c.op h).getD ((d.inc Reg.SM_COUNT1_STALE).reply c.op h rcSeqStale noDetail [])) := by
  have recent : (d.seqAhead h.seq = 0 || decide (2 ^ 32 - 63 ≤ d.seqAhead h.seq)) = true := by simpa using hn
  unfold Cmd.next
  simp only [recent, ↓reduceIte, Bool.true_or]
  cases d.resent c.op h <;> rfl

/-! ### Sessions (15 R409) -/

theorem basicOp_take : basicOp 0x182 = 0x102 := by decide

/-- SESSION_OPEN and SESSION_TAKE that are in sequence go by the session. -/
theorem Formed.exec_open (a : Formed c s h w) (hn : h.noseq = false) (ho : basicOp c.op = 0x102) :
    c.exec s.fuses s.dev h w = c.open_ (c.op ≠ 0x102) s.fuses s.dev h := by
  rw [a.exec_eq, if_neg (by simp [hn]), if_pos ho]

/-- What an opening does that no kept reply answers and that the device admits. -/
theorem Cmd.open_fresh {f : Fuses} {d : Dev} {take : Bool}
    (fresh : (if h.session.toNat = d.get Reg.SM_STATE_SESSION ∧ d.get Reg.SM_STATE_SESSION ≠ 0 then d.resent c.op h
      else none) = none) (ha : d.admits c.op = true) (hl : d.life ∈ c.states) :
    c.open_ take f d h =
      if h.session = 0 then (f, d.reply c.op h rcParameter noDetail [])
      else if !take && d.get Reg.SM_STATE_SESSION ≠ 0 && h.session.toNat ≠ d.get Reg.SM_STATE_SESSION &&
          decide (d.ageBeats < d.smiper.lastBeat + 10000000) then (f, d.reply c.op h rcSession noDetail [])
      else (f, (((d.set Reg.SM_STATE_SESSION h.session.toNat).emptyCache).takeNumber c.op h).okReply c.op h
        [w64 (d.get Reg.SM_STATE_SESSION)]) := by
  unfold Cmd.open_
  simp only [fresh, ha, Bool.not_true, Bool.false_or]
  rw [if_neg (by simpa using hl)]

theorem resent_none_of {d : Dev} {op : Nat} (hr : h.session.toNat = d.get Reg.SM_STATE_SESSION → d.resent op h = none) :
    (if h.session.toNat = d.get Reg.SM_STATE_SESSION ∧ d.get Reg.SM_STATE_SESSION ≠ 0 then d.resent op h else none) = none := by
  split_ifs with hc
  · exact hr hc.1
  · rfl

/-- Settles O7. -/
theorem sequenceAndSessions : Obligations.SequenceAndSessions := by
  unfold Obligations.SequenceAndSessions
  refine ⟨fun c s h w n hs hv hl hw hn ho h0 hses en => ?_, fun s h w old a hn hold h0 hr free => ?_,
    fun s h w old a hn hold h0 hr => ?_, fun s h w a hn h0 hold hne busy => ?_, fun s h w a hn h0 => ?_⟩
  · have next := (Formed.mk hs hv hl hw).exec_next hn ho h0 hses
    subst en
    refine ⟨fun lo hi => State.cmd_eq (next.trans (Cmd.next_ahead lo hi)),
      fun lo hi => State.cmd_eq (next.trans (Cmd.next_stale lo hi)),
      fun hrec => State.cmd_eq (next.trans ((Cmd.next_recent hrec).trans (congrArg (Prod.mk _) ?_)))⟩
    unfold Dev.resent
    cases List.find? _ s.dev.smiper.cache with
    | none => rfl
    | some e => cases hr : e.reply <;> simp [hr]
  · subst hold
    refine State.cmd_eq ((a.formed.exec_open hn rfl).trans ((Cmd.open_fresh (resent_none_of hr) a.admitted a.life).trans ?_))
    rw [if_neg h0, if_neg (by simp; omega)]
    rfl
  · subst hold
    refine State.cmd_eq ((a.formed.exec_open hn basicOp_take).trans
      ((Cmd.open_fresh (resent_none_of hr) a.admitted a.life).trans ?_))
    rw [if_neg h0, if_neg (by simp [cmdSessionTake])]
    rfl
  · refine State.cmd_eq ((a.formed.exec_open hn rfl).trans
      ((Cmd.open_fresh (resent_none_of fun e => absurd e hne) a.admitted a.life).trans ?_))
    rw [if_neg (fun e => h0 (by rw [e]; rfl)), if_pos (by simp [hold, hne, busy, cmdSessionOpen])]
    rfl
  · refine State.cmd_eq ((a.formed.exec_open hn rfl).trans ((Cmd.open_fresh (if_neg ?_) a.admitted a.life).trans ?_))
    · rintro ⟨e, ne⟩
      exact ne (by rw [← e, h0]; rfl)
    · rw [if_pos h0]
      rfl

end

end Sys2Proof.Machine
end

section
/-! PROOF. Tables that commands write: windows, segments, parameter groups (12 R331; 13 R379; 15 R426 to R433; 16 R438 to R441);
power states, resets and freezes by command (15 R435; 18 R495 to R497; 21 R529 to R534). -/

namespace Sys2Proof.Machine

section
variable {s : State} {h : Hdr} {w : List W64}

/-! ### Whole records -/

/-- A record's writes that no check refuses are all made. -/
theorem recordWrite_pass {d : Dev} {i : Nat} {l : List (Nat × W64)} {r : List (Nat × W64 × W64)} {after : Dev → Dev}
    (e : r = l.map (fun p => (p.1, p.2, fullMask p.1))) (pass : d.WritesPass r) :
    recordWrite d i l after = .ok (after (d.writesDone r)) [] := by
  unfold recordWrite
  rw [← e, Dev.writeAll_pass d 0 r pass]

/-- WINDOW_OPEN whose words pass is the write of its record. -/
theorem cmdWindowOpen_run {f : Fuses} {d : Dev} {i n ops : Nat} (f0 : reserved (wd w 0) [(15, 0)] = false)
    (f1 : reserved (wd w 1) [(47, 0)] = false) (hi : fld (wd w 0) 5 0 = i) (hn : fld (wd w 0) 15 10 = n)
    (ho : fld (wd w 0) 8 6 = ops) (range : ops ≠ 0 → 12 ≤ n ∧ n ≤ 37 ∧ fld (wd w 1) 47 0 % 2 ^ n = 0) :
    cmdWindowOpen.run f d h w = recordWrite d 0
      [(Reg.WIN_W0 i, packFlds [(63, 63, if ops = 0 then 0 else 1), (62, 62, ops / 4), (61, 61, ops / 2), (60, 60, ops),
          (59, 54, n), (47, 0, fld (wd w 1) 47 0)]),
       (Reg.WIN_W1 i, packFlds [(63, 54, 0), (53, 44, d.get Reg.LAT_DOMAIN_DOMAIN_LAST), (43, 34, 1)])]
      (fun d => if ops = 0 then d else d.resumeWindows) := by
  subst hi hn ho
  have size : (fld (wd w 0) 8 6 ≠ 0 && !(decide (12 ≤ fld (wd w 0) 15 10) && decide (fld (wd w 0) 15 10 ≤ 37))) = false := by
    by_cases h0 : fld (wd w 0) 8 6 = 0
    · simp [h0]
    · obtain ⟨lo, hi, -⟩ := range h0
      simp [lo, hi]
  have aligned : (fld (wd w 0) 8 6 ≠ 0 && fld (wd w 1) 47 0 % 2 ^ fld (wd w 0) 15 10 ≠ 0 : Bool) = false := by
    by_cases h0 : fld (wd w 0) 8 6 = 0
    · simp [h0]
    · obtain ⟨-, -, al⟩ := range h0
      simp [al]
  simp only [cmdWindowOpen, f0, f1, size, aligned, Bool.false_eq_true, ↓reduceIte]

theorem cmdWindowWrite_run {f : Fuses} {d : Dev} {i : Nat} (f0 : reserved (wd w 0) [(5, 0)] = false)
    (hi : fld (wd w 0) 5 0 = i) :
    cmdWindowWrite.run f d h w = recordWrite d 1 [(Reg.WIN_W0 i, wd w 1), (Reg.WIN_W1 i, wd w 2)]
      (fun d => if bit (wd w 1) 63 then d.resumeWindows else d) := by
  subst hi
  simp only [cmdWindowWrite, f0, Bool.false_eq_true, ↓reduceIte]

theorem cmdGroupPreset_run {f : Fuses} {d : Dev} {l : List W64} (f0 : reserved (wd w 0) [(11, 0)] = false)
    (f2 : reserved (wd w 2) [(0, 0)] = false)
    (e : presetWords (fld (wd w 0) 11 8) (fld (wd w 1) 63 32) (fld (wd w 1) 31 0) (bit (wd w 2) 0) = some l) :
    cmdGroupPreset.run f d h w = recordWrite d 0 (groupWrites (fld (wd w 0) 7 0) l) id := by
  simp only [cmdGroupPreset, f0, f2, e, Bool.false_eq_true, ↓reduceIte]

theorem cmdGroupWrite_run {f : Fuses} {d : Dev} (f0 : reserved (wd w 0) [(7, 0)] = false) :
    cmdGroupWrite.run f d h w = recordWrite d 1 (groupWrites (fld (wd w 0) 7 0) (w.drop 1)) id := by
  simp only [cmdGroupWrite, f0, Bool.false_eq_true, ↓reduceIte]

/-! ### The segment table (16 R438, R439) -/

/-- A set of entries that leaves a table R439 allows is installed. -/
theorem segWrite_ok {d : Dev} {i : Nat} {l : List (Nat × Option W64)} (e : (d.tableWrite l).toBool = true) :
    segWrite d i l = .ok (d.setTable (valueOr [] (d.tableWrite l))).retryTranslation [] := by
  unfold segWrite
  cases ht : d.tableWrite l with
  | ok t => rfl
  | error c => rw [ht] at e; cases e

theorem Dev.taken_tableOpen (d : Dev) (op : Nat) : (d.takeNumber op h).tableOpen = d.tableOpen := by
  simp only [Dev.tableOpen, Dev.taken_js]

theorem cmdSegmentMap_run {f : Fuses} {d : Dev} {seg : Nat} (f0 : reserved (wd w 0) [(17, 0)] = false)
    (f1 : reserved (wd w 1) [(63, 63), (9, 0)] = false) (e : fld (wd w 0) 17 0 = seg) :
    cmdSegmentMap.run f d h w = segWrite d 0
      [(seg, if bit (wd w 1) 63 then some (packFlds [(63, 63, 1), (61, 44, seg), (9, 0, fld (wd w 1) 9 0)]) else none)] := by
  subst e
  simp only [cmdSegmentMap, f0, f1, Bool.false_eq_true, ↓reduceIte]

/-- The pairs of a parameter block, by their place. -/
theorem segPairs_eq (n : Nat) (w : List W64) :
    segPairs n w = (List.range n).map (fun i => (fld (wd w (2 * i)) 17 0, wd w (1 + 2 * i))) := by
  induction n generalizing w with
  | zero => rfl
  | succ n ih =>
    rw [segPairs, ih, List.range_succ_eq_map]
    simp only [wd_drop, List.map_cons, List.map_map, Function.comp_def, Nat.mul_succ, Nat.mul_zero, Nat.add_zero]
    refine congrArg _ (List.map_congr_left fun i _ => ?_)
    rw [show 2 + 2 * i = 2 * i + 2 by omega, show 2 + (1 + 2 * i) = 1 + (2 * i + 2) by omega]

theorem cmdSegmentWrite_run {f : Fuses} {d : Dev} {n : Nat} (f0 : reserved (wd w 0) [(6, 0)] = false)
    (count : fld (wd w 0) 6 0 = n) (pos : 1 ≤ n) (le : n ≤ 64)
    (fields : ∀ i, i < n → reserved (wd w (1 + 2 * i)) [(17, 0)] = false ∧ rawBad (wd w (2 + 2 * i)) = false)
    (apart : ∀ i j, i < j → j < n → fld (wd w (1 + 2 * i)) 17 0 ≠ fld (wd w (1 + 2 * j)) 17 0) :
    cmdSegmentWrite.run f d h w = segWrite d 1 ((List.range n).map (fun i => (fld (wd w (1 + 2 * i)) 17 0,
      if bit (wd w (2 + 2 * i)) 63 then some (rawEntry (fld (wd w (1 + 2 * i)) 17 0) (wd w (2 + 2 * i))) else none))) := by
  subst count
  have pairs : segPairs (fld (wd w 0) 6 0) (w.drop 1) =
      (List.range (fld (wd w 0) 6 0)).map (fun i => (fld (wd w (1 + 2 * i)) 17 0, wd w (2 + 2 * i))) := by
    rw [segPairs_eq]
    refine List.map_congr_left fun i _ => ?_
    rw [wd_drop, wd_drop, show 1 + (1 + 2 * i) = 2 + 2 * i by omega]
  have fresh : ∀ i, i < fld (wd w 0) 6 0 →
      ((((List.range (fld (wd w 0) 6 0)).map (fun i => (fld (wd w (1 + 2 * i)) 17 0, wd w (2 + 2 * i)))).take i).map
        Prod.fst).contains (fld (wd w (1 + 2 * i)) 17 0) = false := by
    intro i hi
    rw [Bool.eq_false_iff]
    intro found
    rw [← List.map_take, List.take_range, List.map_map, List.contains_iff_mem, List.mem_map] at found
    obtain ⟨j, hj, e⟩ := found
    exact apart j i (lt_of_lt_of_le (List.mem_range.1 hj) (Nat.min_le_left ..)) hi e
  simp only [cmdSegmentWrite, f0, pairs]
  rw [if_neg (by simp; omega), if_neg]
  · rw [List.map_map]
    rfl
  · rw [List.any_eq_true]
    rintro ⟨i, hi, raw⟩
    obtain ⟨e1, e2⟩ := fields i (List.mem_range.1 hi)
    rw [e1, fresh i (List.mem_range.1 hi), e2] at raw
    cases raw

/-- Settles O17. -/
theorem tablesAreWritten : Obligations.TablesAreWritten := by
  unfold Obligations.TablesAreWritten
  refine ⟨⟨?_, ?_⟩, ⟨?_, ?_⟩, ⟨?_, ?_⟩⟩
  · intro s h w i n ops v0 v1 l sent f0 f1 hi hn ho range e0 e1 el pass
    have run := cmdWindowOpen_run (f := s.fuses) (d := s.taken 0x204 h) (h := h) f0 f1 hi hn ho range
    rw [Dev.taken_get _ _ _ _ (by decide) (by decide), ← e0, ← e1, recordWrite_pass el pass] at run
    exact State.cmd_done sent (by decide) rfl run
  · intro s h w i l sent f0 hi el pass
    exact State.cmd_done sent (by decide) rfl ((cmdWindowWrite_run f0 hi).trans (recordWrite_pass el pass))
  · intro s h w seg l sent f0 f1 e el ok
    have run := cmdSegmentMap_run (f := s.fuses) (d := s.taken 0x306 h) (h := h) f0 f1 e
    rw [← el, segWrite_ok ok] at run
    exact State.cmd_done sent (by decide) ((s.dev.taken_tableOpen _).trans sent.pre) run
  · intro s h w n l sent f0 count pos le fields apart el ok
    have run := cmdSegmentWrite_run (f := s.fuses) (d := s.taken 0x386 h) (h := h) f0 count pos le fields apart
    rw [← el, segWrite_ok ok] at run
    exact State.cmd_done sent (by decide) ((s.dev.taken_tableOpen _).trans sent.pre) run
  · intro s h w l r sent f0 f2 e el pass
    exact State.cmd_done sent (by decide) rfl ((cmdGroupPreset_run f0 f2 e).trans (recordWrite_pass el pass))
  · intro s h w r sent f0 el pass
    exact State.cmd_done sent (by decide) rfl ((cmdGroupWrite_run f0).trans (recordWrite_pass el pass))

/-! ### Power states (15 R435, 18 R495 to R497) -/

theorem Dev.taken_restAllowed (d : Dev) (op : Nat) : (d.takeNumber op h).restAllowed = d.restAllowed := by
  simp only [Dev.restAllowed, Dev.taken_js, Dev.taken_ops]

/-- What keeps a device from the target of POWER_STATE. -/
def Dev.powerBarred (d : Dev) (t : Nat) : Bool :=
  (t = 2 && !d.restAllowed) || (t = 3 && !(d.js = jsNone && d.ops.isEmpty))

theorem Dev.taken_powerBarred (d : Dev) (op t : Nat) : (d.takeNumber op h).powerBarred t = d.powerBarred t := by
  simp only [Dev.powerBarred, Dev.taken_restAllowed, Dev.taken_js, Dev.taken_ops]

theorem cmdPowerState_run {f : Fuses} {d : Dev} {t : Nat} (f0 : reserved (wd w 0) [(2, 0)] = false)
    (e : fld (wd w 0) 2 0 = t) (le : t ≤ 3) :
    cmdPowerState.run f d h w =
      if d.powerBarred t then .refuse rcState noDetail else .okThen d [] (fun _ d => d.enterPower t) := by
  subst e
  simp only [cmdPowerState, f0, Bool.false_or, Nat.not_lt.2 le, decide_false, Bool.false_eq_true, ↓reduceIte]
  rfl

theorem cmdPowerStateEx_run {f : Fuses} {d : Dev} {t : Nat} (f0 : reserved (wd w 0) [(2, 0)] = false)
    (f1 : reserved (wd w 1) [(11, 0)] = false) (e : fld (wd w 0) 2 0 = t) (le : t ≤ 2) :
    cmdPowerStateEx.run f d h w = .okThen d [] (fun _ d => if t = 2 then d.restUnits (unitList (fld (wd w 1) 12 0))
      else d.wakeUnits (unitList (fld (wd w 1) 12 0))) := by
  subst e
  simp only [cmdPowerStateEx, f0, f1, Bool.false_or, Nat.not_lt.2 le, decide_false, Bool.false_eq_true, ↓reduceIte]

/-! ### Freezes and thaws (21 R529, R530, R534) -/

theorem cmdFreezeAt_run {f : Fuses} {d : Dev} {t : Nat} (f1 : reserved (wd w 1) [(0, 0)] = false) (e : (wd w 0).toNat = t) :
    cmdFreezeAt.run f d h w = .ok (if bit (wd w 1) 0 then d.freezeTrigger fcCommand 1 (max t (d.beat + 1))
      else d.freezeTrigger fcCommand 2 t) [] := by
  subst e
  simp only [cmdFreezeAt, f1, Bool.false_eq_true, ↓reduceIte]
  split <;> rfl

/-- Settles O19. -/
theorem powerAndResetCommands : Obligations.PowerAndResetCommands := by
  unfold Obligations.PowerAndResetCommands
  refine ⟨⟨?_, ?_, ?_⟩, ⟨?_, ?_, ?_, ?_⟩, ⟨?_, ?_, ?_, ?_, ?_⟩⟩
  · intro s h w t sent f0 e le rest vault
    have allowed : (s.taken 0x601 h).powerBarred t = false := by
      rw [Dev.taken_powerBarred]
      unfold Dev.powerBarred
      simp +contextual [rest, vault]
    exact State.cmd_okThen sent (by decide) rfl ((cmdPowerState_run f0 e le).trans (if_neg (ne_true_of_eq_false allowed)))
  · intro s h w t sent f0 f1 e le
    have pre : cmdPowerStateEx.pre (s.taken 0x681 h) = true := by
      show decide ((s.taken 0x681 h).js = jsNone) = true
      rw [Dev.taken_js]
      exact sent.pre
    have run := State.cmd_okThen sent (by decide) pre (cmdPowerStateEx_run f0 f1 e le)
    refine run.trans ?_
    split <;> rfl
  · intro s h w sent f0 bars
    have barred : (s.taken 0x601 h).powerBarred (fld (wd w 0) 2 0) = true := by
      rw [Dev.taken_powerBarred]
      unfold Dev.powerBarred
      rcases bars with ⟨e, no⟩ | ⟨e, no | no⟩ <;> simp [e, no]
    have le : fld (wd w 0) 2 0 ≤ 3 := by
      rcases bars with ⟨e, -⟩ | ⟨e, -⟩ <;> omega
    exact State.cmd_refused sent (by decide) rfl ((cmdPowerState_run f0 rfl le).trans (if_pos barred))
  · exact fun s h w sent => State.cmd_okThen sent (by decide) rfl rfl
  · exact fun s h w sent => State.cmd_done sent (by decide) rfl rfl
  · intro s b e run le
    show s.upd Dev.resetAtBeat = _
    simp [State.upd, Dev.resetAtBeat, e, run, le]
  · intro s b e lt
    show s.upd Dev.resetAtBeat = _
    simp [State.upd, Dev.resetAtBeat, e, Nat.not_le.2 lt]
  · exact fun s h w sent => State.cmd_done sent (by decide) rfl rfl
  · exact fun s h w t sent f1 e => State.cmd_done sent (by decide) rfl (cmdFreezeAt_run f1 e)
  · intro s h w sent frozen
    have run : cmdThaw.run s.fuses (s.taken 0x804 h) h w =
        .ok { s.taken 0x804 h with frz := { s.dev.frz with thawAt := some (s.dev.aonBeat + 1) } } [] := by
      simp only [cmdThaw, Dev.taken_frozen, frozen, Dev.taken_frz, Dev.taken_aonBeat, ↓reduceIte]
    exact State.cmd_done sent (by decide) rfl run
  · intro s h w sent frozen
    have run : cmdThawAt.run s.fuses (s.taken 0x884 h) h w =
        .ok { s.taken 0x884 h with frz := { s.dev.frz with thawAt := some (max (wd w 0).toNat (s.dev.aonBeat + 1)) } } [] := by
      simp only [cmdThawAt, Dev.taken_frozen, frozen, Dev.taken_frz, Dev.taken_aonBeat, ↓reduceIte]
    exact State.cmd_done sent (by decide) rfl run
  · intro s h w running
    have still (op : Nat) : ¬ (s.taken op h).frozen = true := by simp [Dev.taken_frozen, running]
    exact ⟨fun sent => State.cmd_refused sent (by decide) rfl (if_neg (still _)),
      fun sent => State.cmd_refused sent (by decide) rfl (if_neg (still _))⟩

end

end Sys2Proof.Machine
end

section
/-! PROOF. Long operations whose parameters pass are accepted into their slots (15 R413 to R415, R420, R426 to R435). -/

namespace Sys2Proof.Machine

section
variable {c : Cmd} {s : State} {h : Hdr} {w : List W64}

/-! ### What taking a number leaves of a row's preconditions -/

theorem Dev.taken_roomFor {d : Dev} (room : d.roomFor h) (op : Nat) : (d.takeNumber op h).roomFor h :=
  ⟨(d.taken_opOf op h _).trans room.1, by rw [Dev.taken_ops]; exact room.2⟩

theorem Dev.taken_opLive (d : Dev) (op b : Nat) : (d.takeNumber op h).opLive b = d.opLive b := by
  simp only [Dev.opLive, Dev.taken_ops]

theorem Dev.taken_held (d : Dev) (op : Nat) : (d.takeNumber op h).held = d.held := by
  have held (i : Nat) (hi : i < 3) : (d.takeNumber op h).reg (Reg.BIST_HELD i) = d.reg (Reg.BIST_HELD i) :=
    d.taken_reg op h _ (by revert i; decide) (by revert i; decide)
  have three : (List.range 3).any (fun i => (d.takeNumber op h).reg (Reg.BIST_HELD i) ≠ 0) =
      (List.range 3).any (fun i => d.reg (Reg.BIST_HELD i) ≠ 0) := by
    simp only [show List.range 3 = [0, 1, 2] from rfl, List.any_cons, List.any_nil, held 0 (by decide), held 1 (by decide),
      held 2 (by decide)]
  simp only [Dev.held, three]
  rw [d.taken_reg op h Reg.BIST_HELD3 (by decide) (by decide)]

/-! ### Acceptance -/

/-- A row that ends in the acceptance of its operation, with a change of the device after it. -/
theorem State.cmd_queued (a : Sent c s h w) (ho : basicOp c.op ≠ 0x102) (hp : c.pre (s.taken c.op h) = true)
    (room : s.dev.roomFor h) {g : Dev → Dev}
    (run : c.run s.fuses (s.taken c.op h) h w = ((s.taken c.op h).acceptOp c.op h w).then_ g) :
    s.cmd c h w = .next (s.accepted c.op h w g) := by
  rw [Dev.acceptOp_room _ (s.dev.taken_roomFor room c.op)] at run
  exact State.cmd_accepted a ho hp run

theorem Ans.then_id (a : Ans) : a.then_ id = a := by cases a <;> rfl

/-- A row that ends in the acceptance of its operation. -/
theorem State.cmd_queued_id (a : Sent c s h w) (ho : basicOp c.op ≠ 0x102) (hp : c.pre (s.taken c.op h) = true)
    (room : s.dev.roomFor h) (run : c.run s.fuses (s.taken c.op h) h w = (s.taken c.op h).acceptOp c.op h w) :
    s.cmd c h w = .next (s.accepted c.op h w id) :=
  State.cmd_queued a ho hp room (run.trans (Ans.then_id _).symm)

/-- A step whose slot is free writes its descriptor. -/
theorem Dev.acceptStep_free {d : Dev} {op t : Nat} {w0 w1 : W64} {etas : List W64} (ht : t ≠ 0) (room : d.roomFor h)
    (free : d.slotBusy t = false) : d.acceptStep op h w t w0 w1 etas =
      (d.acceptOp op h w).then_ (fun d => d.writeStep t w0 w1 etas) := by
  unfold Dev.acceptStep
  rw [if_neg ht, d.acceptOp_room room]
  simp only [free, Bool.false_eq_true, ↓reduceIte]
  rfl

theorem Dev.acceptStep_busy {d : Dev} {op t : Nat} {w0 w1 : W64} {etas : List W64} (ht : t ≠ 0) (room : d.roomFor h)
    (busy : d.slotBusy t = true) : d.acceptStep op h w t w0 w1 etas = .refuse rcBusy noDetail := by
  unfold Dev.acceptStep
  rw [if_neg ht, d.acceptOp_room room]
  simp only [busy, ↓reduceIte]

/-! ### Domain and jobs -/

theorem orElse_none (b : Ans) : Ans.orElse_ none b = b := rfl

/-- JOB_LOAD and JOB_LOAD_EX. -/
theorem State.cmd_load {op n : Nat} (a : Sent (cmdLoad op n) s h w) (ho : basicOp op ≠ 0x102) (good : loadBad w = none)
    (room : s.dev.roomFor h) :
    s.cmd (cmdLoad op n) h w = .next (s.accepted op h w (fun d => d.setJs jsLoading)) := by
  have pre : (cmdLoad op n).pre (s.taken op h) = true := by
    simp only [cmdLoad, Dev.taken_js, Dev.taken_held]
    exact a.pre
  exact State.cmd_queued a ho pre room (by simp only [cmdLoad, good, orElse_none])

/-- JOB_RUN and JOB_RUN_EX. -/
theorem State.cmd_run {op n : Nat} (a : Sent (cmdRun op n) s h w) (ho : basicOp op ≠ 0x102) (room : s.dev.roomFor h) :
    s.cmd (cmdRun op n) h w = .next (s.accepted op h w id) := by
  have pre : (cmdRun op n).pre (s.taken op h) = true := by
    simp only [cmdRun, Dev.taken_js, Dev.taken_opLive]
    exact a.pre
  exact State.cmd_queued_id a ho pre room rfl

/-- PREEMPT, and PREEMPT_AT at a fence that quiesces. -/
theorem State.cmd_preempting {op n : Nat} (a : Sent (cmdPreempting op n) s h w) (ho : basicOp op ≠ 0x102)
    (fence : op = 0x383 → reserved (wd w 0) [(15, 0)] = false ∧ feQuiesce ((s.taken op h).fenceEntry (fld (wd w 0) 15 0)) = true)
    (room : s.dev.roomFor h) : s.cmd (cmdPreempting op n) h w = .next (s.accepted op h w id) := by
  have pre : (cmdPreempting op n).pre (s.taken op h) = true := by
    simp only [cmdPreempting, Dev.taken_js, Dev.taken_opLive, Dev.taken_job]
    exact a.pre
  refine State.cmd_queued_id a ho pre room (if_neg fun bad => ?_)
  rw [Bool.and_eq_true, decide_eq_true_eq] at bad
  obtain ⟨e, bad⟩ := bad
  obtain ⟨e1, e2⟩ := fence e
  change (reserved (wd w 0) [(15, 0)] || !feQuiesce ((s.taken op h).fenceEntry (fld (wd w 0) 15 0))) = true at bad
  rw [e1, e2] at bad
  cases bad

/-- RESUME and RESUME_AT. -/
theorem State.cmd_resuming {op n : Nat} (a : Sent (cmdResuming op n) s h w) (ho : basicOp op ≠ 0x102)
    (good : (s.taken op h).resumeBad = none) (room : s.dev.roomFor h) :
    s.cmd (cmdResuming op n) h w = .next (s.accepted op h w (fun d => d.setJs jsResuming)) := by
  have pre : (cmdResuming op n).pre (s.taken op h) = true := by
    simp only [cmdResuming, Dev.taken_js]
    exact a.pre
  exact State.cmd_queued a ho pre room (by simp only [cmdResuming, good, orElse_none])

/-- JOB_UNLOAD and JOB_UNLOAD_EX. -/
theorem State.cmd_unload {op n : Nat} {f : Dev → Dev} (a : Sent (cmdUnload op n) s h w) (ho : basicOp op ≠ 0x102)
    (room : s.dev.roomFor h)
    (e : f = (fun d => ((d.onOp (h.tag.toNat % 256) (fun o => { o with note := [d.js] })).endOps
      (fun o => basicOp o.opcode = 0x302 || basicOp o.opcode = 0x401) stAborted 0).setJs jsUnloading)) :
    s.cmd (cmdUnload op n) h w = .next (s.accepted op h w f) := by
  have pre : (cmdUnload op n).pre (s.taken op h) = true := by
    simp only [cmdUnload, Dev.taken_js]
    exact a.pre
  subst e
  exact State.cmd_queued a ho pre room rfl

theorem domainAndJobs_accepted :
    (∀ (s : State) (h : Hdr) (w : List W64), Sent cmdDomainForm s h w → formBad w = none → s.dev.roomFor h →
      exec (.domainForm h w) s = .next (s.accepted 0x103 h w (Dev.noteForm h))) ∧
    (∀ (s : State) (h : Hdr) (w : List W64), Sent cmdDomainFormEx s h w → formBad w = none → formExBad w = none →
      s.dev.roomFor h → exec (.domainFormEx h w) s = .next (s.accepted 0x183 h w (Dev.noteForm h))) ∧
    (∀ (s : State) (h : Hdr) (w : List W64), Sent cmdHalt s h w → s.dev.roomFor h →
      exec (.halt h w) s = .next (s.accepted 0x307 h w id)) := by
  refine ⟨fun s h w a good room => ?_, fun s h w a good goodEx room => ?_, fun s h w a room => ?_⟩
  · have pre : cmdDomainForm.pre (s.taken 0x103 h) = true := by
      simp only [cmdDomainForm, Dev.taken_js]
      exact a.pre
    exact State.cmd_queued a (by decide) pre room (by simp only [cmdDomainForm, good, orElse_none])
  · have pre : cmdDomainFormEx.pre (s.taken 0x183 h) = true := by
      simp only [cmdDomainFormEx, Dev.taken_js]
      exact a.pre
    exact State.cmd_queued a (by decide) pre room
      (by simp only [cmdDomainFormEx, good, goodEx, Option.orElse_none, orElse_none])
  · have pre : cmdHalt.pre (s.taken 0x307 h) = true := by
      simp only [cmdHalt, Dev.taken_js]
      exact a.pre
    exact State.cmd_queued_id a (by decide) pre room rfl

/-! ### Steps -/

theorem cmdStep_pre (a : Sent cmdStep s h w) : cmdStep.pre (s.taken 0x401 h) = true :=
  (Dev.taken_jobLoaded ..).trans a.pre

theorem State.cmd_step {t eta : Nat} (a : Sent cmdStep s h w) (f1 : reserved (wd w 1) [(63, 23)] = false)
    (et : fld (wd w 0) 63 32 = t) (ht : t ≠ 0) (ee : fld (wd w 1) 63 32 = eta) (free : (s.taken 0x401 h).slotBusy t = false)
    (room : s.dev.roomFor h) : s.cmd cmdStep h w = .next (s.accepted 0x401 h w (fun d => d.writeStep t
      (packFlds [(63, 32, t), (31, 31, 1), (30, 30, fld (wd w 1) 31 31), (29, 26, fld (wd w 1) 30 27), (25, 22, fld (wd w 1) 26 23)])
      (packFlds [(63, 32, fld (wd w 0) 31 0)]) (List.replicate 128 (packFlds [(63, 32, eta), (31, 0, eta)])))) := by
  subst et ee
  refine State.cmd_queued a (by decide) (cmdStep_pre a) room ?_
  simp only [cmdStep, f1, Bool.false_eq_true, ↓reduceIte]
  exact Dev.acceptStep_free ht (s.dev.taken_roomFor room _) free

theorem State.cmd_step_busy (a : Sent cmdStep s h w) (f1 : reserved (wd w 1) [(63, 23)] = false)
    (ht : fld (wd w 0) 63 32 ≠ 0) (busy : (s.taken 0x401 h).slotBusy (fld (wd w 0) 63 32) = true) (room : s.dev.roomFor h) :
    s.cmd cmdStep h w = .next (s.withDev ((s.taken 0x401 h).refusal 0x401 h rcBusy noDetail)) := by
  refine State.cmd_refused a (by decide) (cmdStep_pre a) ?_
  simp only [cmdStep, f1, Bool.false_eq_true, ↓reduceIte]
  exact Dev.acceptStep_busy ht (s.dev.taken_roomFor room _) busy

theorem State.cmd_stepEx {t : Nat} (a : Sent cmdStepEx s h w) (et : fld (wd w 0) 63 32 = t) (ht : t ≠ 0)
    (free : (s.taken 0x481 h).slotBusy t = false) (room : s.dev.roomFor h) :
    s.cmd cmdStepEx h w = .next (s.accepted 0x481 h w (fun d => d.writeStep t
      (packFlds [(63, 32, t), (31, 31, 1), (30, 22, fld (wd w 0) 30 22)]) (packFlds [(63, 32, fld (wd w 1) 63 32)])
      (w.drop 8))) := by
  subst et
  exact State.cmd_queued a (by decide) ((Dev.taken_jobLoaded ..).trans a.pre) room
    (Dev.acceptStep_free ht (s.dev.taken_roomFor room _) free)

/-! ### Copies and submitted descriptors -/

/-- What the fields of a COPY that passes are. -/
structure CopyWords (w : List W64) : Prop where
  src : reserved (wd w 0) [(63, 63), (47, 0)] = false
  dst : reserved (wd w 1) [(63, 63), (47, 0)] = false
  len : reserved (wd w 2) [(39, 0)] = false
  pos : fld (wd w 2) 39 0 ≠ 0
  small : fld (wd w 2) 39 0 < 2 ^ 24
  srcAligned : fld (wd w 0) 47 0 % 32 = 0
  dstAligned : fld (wd w 1) 47 0 % 32 = 0
  form : dmFault 152 28 (copyDesc w 28) (Shape.ofWords []) (Shape.ofWords []) = none

theorem cmdCopy_run {f : Fuses} {d : Dev} (job : (bit (wd w 0) 63 || bit (wd w 1) 63) = true → d.jobLoaded = true)
    (good : CopyWords w) (src : d.endRefused (copyDesc w 28) false (Shape.ofWords []) = none)
    (dst : d.endRefused (copyDesc w 28) true (Shape.ofWords []) = none)
    (view0 : d.endViews (copyDesc w 28) false (Shape.ofWords []) = .runs [])
    (view1 : d.endViews (copyDesc w 28) true (Shape.ofWords []) = .runs []) :
    cmdCopy.run f d h w = d.acceptOp 0x203 h w := by
  have loaded : ((bit (wd w 0) 63 || bit (wd w 1) 63) && !d.jobLoaded) = false := by
    cases hb : bit (wd w 0) 63 || bit (wd w 1) 63 with
    | false => rfl
    | true => rw [job hb]; rfl
  have len : (reserved (wd w 2) [(39, 0)] || fld (wd w 2) 39 0 = 0 || decide (2 ^ 24 ≤ fld (wd w 2) 39 0)) = false := by
    rw [good.len, decide_eq_false good.pos, decide_eq_false (Nat.not_le.2 good.small)]
    rfl
  unfold cmdCopy
  dsimp only
  rw [loaded, good.src, good.dst, len, good.srcAligned, good.dstAligned, src, dst, good.form, view0, view1]
  rfl

/-- The shape words of an end: those its 2-D form names, or none. -/
theorem shapes_read {d : Dev} {desc x : List W64} {a : Nat} (two : dmForm desc = 2 → d.shapeWords 152 a = .words x)
    (one : dmForm desc ≠ 2 → x = []) : (if dmForm desc = 2 then d.shapeWords 152 a else .words []) = .words x := by
  split_ifs with hf
  · exact two hf
  · rw [one hf]

theorem State.cmd_descSubmit {desc x y : List W64} {ch : Nat} (a : Sent cmdDescSubmit s h w)
    (f0 : reserved (wd w 0) [(1, 0)] = false) (ed : desc = w.drop 1) (ec : ch = 28 + fld (wd w 0) 1 0) (hc : ch ≠ 31)
    (job : descJob desc = true → s.dev.jobLoaded = true)
    (two : dmForm desc = 2 → (s.taken 0x283 h).shapeWords 152 (dmSrc desc) = .words x ∧
      (s.taken 0x283 h).shapeWords 152 (dmDst desc) = .words y)
    (one : dmForm desc ≠ 2 → x = [] ∧ y = []) (form : dmFault 152 ch desc (Shape.ofWords x) (Shape.ofWords y) = none)
    (src : (s.taken 0x283 h).endRefused desc false (Shape.ofWords x) = none)
    (dst : (s.taken 0x283 h).endRefused desc true (Shape.ofWords y) = none)
    (view0 : (s.taken 0x283 h).endViews desc false (Shape.ofWords x) = .runs [])
    (view1 : (s.taken 0x283 h).endViews desc true (Shape.ofWords y) = .runs []) (room : s.dev.roomFor h) :
    s.cmd cmdDescSubmit h w = .next (s.accepted 0x283 h w id) := by
  subst ed ec
  have loaded : (descJob (w.drop 1) && !(s.taken 0x283 h).jobLoaded) = false := by
    rw [Dev.taken_jobLoaded]
    cases hb : descJob (w.drop 1) with
    | false => rfl
    | true => rw [job hb]; rfl
  refine State.cmd_queued_id a (by decide) rfl room ?_
  simp only [cmdDescSubmit, loaded, f0, hc, shapes_read (fun e => (two e).1) (fun e => (one e).1),
    shapes_read (fun e => (two e).2) (fun e => (one e).2), form, src, dst, view0, view1, decide_false, Bool.or_self,
    Bool.false_eq_true, ↓reduceIte]

/-! ### Maintenance -/

/-- A row whose one precondition is that no job is loaded. -/
theorem State.taken_noJob (pre : c.pre = fun d : Dev => d.js = jsNone) (a : Sent c s h w) : c.pre (s.taken c.op h) = true := by
  have held := a.pre
  rw [pre] at held ⊢
  simpa only [Dev.taken_js] using held

theorem State.cmd_scrubEx (a : Sent cmdScrubEx s h w) (f0 : reserved (wd w 0) [(0, 0)] = false)
    (bits : bit (wd w 0) 0 = true → bit (wd w 9) 62 = false ∧ bit (wd w 9) 63 = false) (room : s.dev.roomFor h) :
    s.cmd cmdScrubEx h w = .next (s.accepted 0x582 h w id) := by
  have mask : (bit (wd w 0) 0 && (bit (wd w 9) 62 || bit (wd w 9) 63)) = false := by
    cases hb : bit (wd w 0) 0 with
    | false => rfl
    | true => rw [(bits hb).1, (bits hb).2]; rfl
  refine State.cmd_queued_id a (by decide) (State.taken_noJob rfl a) room ?_
  simp only [cmdScrubEx, f0, mask, Bool.false_eq_true, ↓reduceIte]

theorem State.cmd_bistEx (a : Sent cmdBistEx s h w) (f0 : reserved (wd w 0) [(7, 0)] = false)
    (good : ∀ i, i < fld (wd w 0) 7 0 →
      (s.taken 0x583 h).bistWordBad (((w.drop 1).map (fun (x : W64) => bwCode x)).take i) (1 + i) (wd w (1 + i)) = none)
    (room : s.dev.roomFor h) : s.cmd cmdBistEx h w = .next (s.accepted 0x583 h w id) := by
  have none_ : (List.range (fld (wd w 0) 7 0)).findSome? (fun i =>
      (s.taken 0x583 h).bistWordBad (((w.drop 1).map (fun (x : W64) => bwCode x)).take i) (1 + i) (wd w (1 + i))) = none :=
    List.findSome?_eq_none_iff.2 fun i hi => good i (List.mem_range.1 hi)
  refine State.cmd_queued_id a (by decide) (State.taken_noJob rfl a) room ?_
  simp only [cmdBistEx, f0, Bool.false_eq_true, ↓reduceIte]
  rw [none_, orElse_none]

theorem State.cmd_attestEx (a : Sent (cmdAttesting 0x781 5) s h w) (f4 : reserved (wd w 4) [(8, 0)] = false)
    (mode : fld (wd w 4) 7 6 = 0) (room : s.dev.roomFor h) :
    s.cmd (cmdAttesting 0x781 5) h w = .next (s.accepted 0x781 h w id) :=
  State.cmd_queued_id a (by decide) rfl room (if_neg (by rw [f4, mode]; decide))

theorem State.cmd_firmwareUpdate (a : Sent cmdFirmwareUpdate s h w) (f0 : reserved (wd w 0) [(39, 0)] = false)
    (f1 : reserved (wd w 1) [(31, 0)] = false) (size : fld (wd w 1) 31 0 ≤ fwSlotSize) (start : fld (wd w 0) 39 0 < cellarEnd)
    (stop : fld (wd w 0) 39 0 + fld (wd w 1) 31 0 ≤ cellarEnd) (room : s.dev.roomFor h) :
    s.cmd cmdFirmwareUpdate h w = .next (s.accepted 0x703 h w id) := by
  have range : cellarRange (fld (wd w 0) 39 0) (fld (wd w 1) 31 0) 0 = none := by
    simp only [cellarRange, firstBad, Nat.not_le.2 start, Nat.not_lt.2 stop, decide_false]
    rfl
  refine State.cmd_queued_id a (by decide) (State.taken_noJob rfl a) room ?_
  simp only [cmdFirmwareUpdate, f0, f1, Nat.not_lt.2 size, range, decide_false, Bool.or_self, Bool.false_eq_true, ↓reduceIte,
    orElse_none]

theorem State.cmd_flashWrite {x n : Nat} (a : Sent cmdFlashWrite s h w) (f0 : reserved (wd w 0) [(31, 0)] = false)
    (f1 : reserved (wd w 1) [(39, 0)] = false) (f2 : reserved (wd w 2) [(31, 0)] = false) (ex : fld (wd w 0) 31 0 = x)
    (en : fld (wd w 2) 31 0 = n) (start : x < flashSize) (stop : x + n ≤ flashSize)
    (slots : s.dev.life = 2 → 0x2110000 ≤ x ∧ x + n ≤ 0x2120000)
    (source : ∀ c, (s.taken 0x783 h).physTo (fld (wd w 1) 39 0) n false ≠ .no c) (room : s.dev.roomFor h) :
    s.cmd cmdFlashWrite h w = .next (s.accepted 0x783 h w id) := by
  subst ex en
  have cert : ((s.taken 0x783 h).life = 2 && !(decide (0x2110000 ≤ fld (wd w 0) 31 0) &&
      decide (fld (wd w 0) 31 0 + fld (wd w 2) 31 0 ≤ 0x2120000)) : Bool) = false := by
    rw [Dev.taken_life]
    by_cases hl : s.dev.life = 2
    · obtain ⟨lo, hi⟩ := slots hl
      simp [lo, hi]
    · simp [hl]
  refine State.cmd_queued_id a (by decide) (State.taken_noJob rfl a) room ?_
  simp only [cmdFlashWrite, cert, f0, f1, f2, Nat.not_le.2 start, Nat.not_lt.2 stop, decide_false, Bool.or_self,
    Bool.false_eq_true, ↓reduceIte]

end

/-- Settles O15: each row's checks pass, and it ends in `acceptOp`, which finds room. -/
theorem operationsAreAccepted : Obligations.OperationsAreAccepted := by
  unfold Obligations.OperationsAreAccepted
  obtain ⟨form, formEx, halt⟩ := domainAndJobs_accepted
  refine ⟨⟨form, formEx, fun s h w a => State.cmd_load a (by decide), fun s h w a => State.cmd_load a (by decide),
    fun s h w a => State.cmd_run a (by decide), fun s h w a => State.cmd_run a (by decide),
    fun s h w a => State.cmd_preempting a (by decide) (fun e => absurd e (by decide)),
    fun s h w a f0 fence => State.cmd_preempting a (by decide) (fun _ => ⟨f0, fence⟩),
    fun s h w a => State.cmd_resuming a (by decide), fun s h w a => State.cmd_resuming a (by decide),
    fun s h w f room e => ⟨fun a => State.cmd_unload a (by decide) room e, fun a => State.cmd_unload a (by decide) room e⟩,
    halt⟩, ⟨fun s h w t eta => State.cmd_step, fun s h w t => State.cmd_stepEx, fun s h w => State.cmd_step_busy⟩,
    fun s h w a job f0 f1 f2 pos small al0 al1 src dst form view0 view1 room =>
      State.cmd_queued_id a (by decide) rfl room (cmdCopy_run (fun e => (Dev.taken_jobLoaded ..).trans (job e))
        ⟨f0, f1, f2, pos, small, al0, al1, form⟩ src dst view0 view1),
     fun s h w desc x y ch => State.cmd_descSubmit,
    fun s h w a room => State.cmd_queued_id a (by decide) (State.taken_noJob rfl a) room rfl,
    fun s h w => State.cmd_scrubEx,
    fun s h w a room => State.cmd_queued_id a (by decide) (State.taken_noJob rfl a) room rfl,
    fun s h w => State.cmd_bistEx,
    fun s h w a room => State.cmd_queued_id a (by decide) rfl room rfl,
    fun s h w => State.cmd_attestEx, fun s h w => State.cmd_firmwareUpdate, fun s h w x n => State.cmd_flashWrite⟩

end Sys2Proof.Machine
end

section
/-! PROOF. The log's ring (21 R539 to R543), the side ports (21 R536; 22 R559, R560), and what a warm reset makes of the
operations (15 R422). -/

namespace Sys2Proof.Machine

/-! ### The ring -/

theorem Dev.ringEntry_seq (d : Dev) (e : LogEntry) : (d.ringEntry e).get Reg.LOG_STATUS_WRITE_SEQ =
    min Reg.LOG_STATUS_WRITE_SEQ.max (d.get Reg.LOG_STATUS_WRITE_SEQ + 1) :=
  Dev.get_inc_self _ (by decide)

theorem Dev.ringEntry_log (d : Dev) (e : LogEntry) (i : Nat) : SMap.get (fun _ => none) (d.ringEntry e).log i =
    if i = d.get Reg.LOG_STATUS_WRITE_SEQ % 16384 then some e else SMap.get (fun _ => none) d.log i := by
  rw [Dev.ringEntry, Dev.inc_log]
  exact SMap.get_insert ..

/-- Settles O28. -/
theorem logEntriesAreWritten : Obligations.LogEntriesAreWritten := by
  unfold Obligations.LogEntriesAreWritten
  refine ⟨fun s e held => ?_, fun d e => ⟨?_, d.ringEntry_seq e, Dev.inc_logHeld .., fun i other => ?_⟩, fun s none_ => ?_⟩
  · show s.upd Dev.logWrite = _
    simp only [State.upd, Dev.logWrite, held]
  · rw [Dev.ringEntry_log, if_pos rfl]
  · rw [Dev.ringEntry_log, if_neg other]
  · show s.upd Dev.logWrite = _
    have idle : nextEntry s.dev.logHeld = none := by rw [none_]; rfl
    simp only [State.upd, Dev.logWrite, idle]

/-! ### The test access port and SMBus -/

theorem Dev.freeWords_next (d : Dev) (n : Nat) : (Dev.freeWords n d).2 = { d with free := d.free + n } := by
  induction n generalizing d with
  | zero => rfl
  | succ n ih =>
    rw [Dev.freeWords]
    dsimp only
    rw [ih]
    simp only [Dev.free?, Nat.add_right_comm d.free 1 n, Nat.add_assoc]

theorem Dev.smbBlock_on {d : Dev} (on : d.boot.phase ≠ .off) (code : Nat) (data : List Byte) :
    d.smbBlock code data = d.send (.smb (byteOf data.length :: data ++ [byteOf (pec
      ([byteOf (2 * d.pins.smbAddr), byteOf code, byteOf (2 * d.pins.smbAddr + 1), byteOf data.length] ++ data))])) :=
  if_neg on

/-- Settles O30. -/
theorem sidePortsAnswer : Obligations.SidePortsAnswer := by
  unfold Obligations.SidePortsAnswer
  refine ⟨⟨fun s n on => State.upd_eq (f := fun d => d.tapScan n) (if_neg on),
      fun d n => ⟨d.length_freeWords n, d.freeWords_next n⟩⟩, fun s reply on e => ?_,
    fun s run vault => ?_, fun s active => ?_, fun s on => ?_, fun s low => ?_, fun s high => ?_, fun s code unlisted on => ?_⟩
  · have block (code : Nat) (data : List Byte) : s.dev.smbBlock code data = reply code data := by
      rw [Dev.smbBlock_on on, e]
    exact ⟨State.upd_eq (f := Dev.smbStatus) (block ..), State.upd_eq (f := Dev.smbTemp) (block ..),
      State.upd_eq (block ..),
      congrArg (fun d => Host.Outcome.next (s.withDev d)) (block ..)⟩
  · exact State.upd_eq (if_pos (by simp [run, vault]))
  · exact State.upd_eq (if_neg (by simp [active]))
  · exact State.upd_eq (if_neg on)
  · exact State.upd_eq (if_pos low)
  · exact State.upd_eq (if_neg (ne_true_of_eq_false high))
  · refine State.upd_eq (f := fun d => d.smbUnlisted code) ((if_neg (fun listed => ?_)).trans (if_neg on))
    exact unlisted (List.contains_iff_mem.1 listed)

/-! ### A warm reset and the operations -/

/-- The status word of an operation that a reset ends. -/
abbrev endedByReset (w : W64) : Prop := fld w 63 60 = stAborted ∧ fld w 33 26 = rcReset

theorem endedByReset_endedWord (d : Dev) (slot : Nat) : endedByReset (d.endedWord slot stAborted rcReset) := by
  unfold Dev.endedWord
  rw [if_neg (by decide)]
  refine ⟨?_, fld_putFld _ (by decide) (by decide) _⟩
  rw [fld_putFld_above _ (by decide) (by decide) _ _ _ (by decide)]
  exact fld_putFld _ (by decide) (by decide) _

/-- Of the memory an operation's end writes its status word alone. -/
theorem Dev.opEnd_status (d : Dev) (slot state err k : Nat) :
    (d.opEnd slot state err).status k = (d.setStatus slot (d.endedWord slot state err)).status k := by
  have mem : (d.opEnd slot state err).mem = (d.setStatus slot (d.endedWord slot state err)).mem := by
    unfold Dev.opEnd
    exact (apply_ite Dev.mem _ _ _).trans (ite_self _)
  simp only [Dev.status, Dev.word, Dev.bytes, mem]

theorem Dev.opEnd_status_self (d : Dev) {slot : Nat} (clean : d.errIn (statusAddr slot) 8 = []) (state err : Nat) :
    (d.opEnd slot state err).status slot = d.endedWord slot state err := by
  rw [Dev.opEnd_status, Dev.status_setStatus_self _ clean]

theorem Dev.opEnd_status_ne (d : Dev) {slot k : Nat} (state err : Nat) (other : k ≠ slot) :
    (d.opEnd slot state err).status k = d.status k := by
  rw [Dev.opEnd_status, Dev.status_setStatus_ne _ _ other]

/-- A write of one word leaves no error that was not there. -/
theorem Dev.wrWord_errs_subset (d : Dev) (a : Nat) (w : W64) : (d.wrWord a w).errs ⊆ d.errs := by
  have wr (e : Dev) : (e.wrLe a 8 w.toNat).errs ⊆ e.errs := by
    unfold Dev.wrLe Dev.wr
    split
    · exact List.Subset.refl _
    · exact List.filter_subset_self _
  unfold Dev.wrWord
  dsimp only
  split
  · rw [Dev.inc_errs]
    exact List.Subset.refl _
  · refine List.Subset.trans (wr _) ?_
    · refine List.foldlRecOn (motive := fun e : Dev => e.errs ⊆ d.errs) _ _ (List.Subset.refl _) fun e kept x _ => ?_
      split
      · rwa [Dev.inc_errs]
      · rwa [Dev.onFloor_errs, Dev.inc_errs]

theorem Dev.opEnd_clean {d : Dev} {a n : Nat} (clean : d.errIn a n = []) (slot state err : Nat) :
    (d.opEnd slot state err).errIn a n = [] := by
  have errs : (d.opEnd slot state err).errs = (d.setStatus slot (d.endedWord slot state err)).errs := by
    unfold Dev.opEnd
    exact (apply_ite Dev.errs _ _ _).trans (ite_self _)
  rw [Dev.errIn, List.filter_eq_nil_iff] at clean ⊢
  rw [errs]
  exact fun x hx => clean x (d.wrWord_errs_subset _ _ hx)

theorem Dev.opEnd_results (d : Dev) (slot state err : Nat) : (d.opEnd slot state err).results = d.results := by
  have same : (d.opEnd slot state err).results = (d.setStatus slot (d.endedWord slot state err)).results := by
    unfold Dev.opEnd
    exact (apply_ite Dev.results _ _ _).trans (ite_self _)
  rw [same, Dev.setStatus_results]

/-- The device once each of a list of operations has ended with RESET. -/
abbrev Dev.resetOps (d : Dev) (l : List LongOp) : Dev := l.foldl (fun d o => d.opEnd o.slot stAborted rcReset) d

theorem Dev.resetOps_results (d : Dev) (l : List LongOp) : (d.resetOps l).results = d.results :=
  List.foldlRecOn (motive := fun e : Dev => e.results = d.results) _ _ rfl fun e kept _ _ => (e.opEnd_results ..).trans kept

/-- A word that has ended stays so: another end of its slot writes the same state and error. -/
theorem Dev.resetOps_keeps {d : Dev} {k : Nat} (ended : endedByReset (d.status k)) (clean : d.errIn (statusAddr k) 8 = [])
    (l : List LongOp) : endedByReset ((d.resetOps l).status k) := by
  induction l generalizing d with
  | nil => exact ended
  | cons o t ih =>
    refine ih ?_ (d.opEnd_clean clean ..)
    by_cases same : k = o.slot
    · subst same
      rw [d.opEnd_status_self clean]
      exact endedByReset_endedWord ..
    · rwa [d.opEnd_status_ne _ _ same]

theorem Dev.resetOps_ended {d : Dev} {o : LongOp} {l : List LongOp} (live : o ∈ l)
    (clean : d.errIn (statusAddr o.slot) 8 = []) : endedByReset ((d.resetOps l).status o.slot) := by
  induction l generalizing d with
  | nil => cases live
  | cons x t ih =>
    rcases List.mem_cons.1 live with rfl | later
    · refine Dev.resetOps_keeps ?_ (d.opEnd_clean clean ..) t
      rw [d.opEnd_status_self clean]
      exact endedByReset_endedWord ..
    · exact ih later (d.opEnd_clean clean ..)

theorem Dev.resetOps_other (d : Dev) {k : Nat} {l : List LongOp} (other : ∀ o ∈ l, o.slot ≠ k) :
    (d.resetOps l).status k = d.status k :=
  List.foldlRecOn (motive := fun e : Dev => e.status k = d.status k) _ _ rfl
    fun e kept o ho => (e.opEnd_status_ne _ _ (other o ho).symm).trans kept

/-! ### What the rest of a warm reset leaves of the status page -/

theorem Dev.linkLost_results (d : Dev) (p : Nat) : (d.linkLost p).results = d.results := by
  unfold Dev.linkLost
  dsimp only
  split <;> simp

theorem Dev.linkLost_ops (d : Dev) (p : Nat) : (d.linkLost p).ops = d.ops := by
  unfold Dev.linkLost
  dsimp only
  split <;> simp

theorem Dev.logFlush_mem (d : Dev) : d.logFlush.mem = d.mem := by
  refine List.foldlRecOn (motive := fun e : Dev => e.mem = d.mem) _ _ rfl fun e kept _ _ => ?_
  split
  · exact (Dev.inc_mem ..).trans kept
  · exact kept

theorem Dev.logFlush_results (d : Dev) : d.logFlush.results = d.results := by
  refine List.foldlRecOn (motive := fun e : Dev => e.results = d.results) _ _ rfl fun e kept _ _ => ?_
  split
  · exact (Dev.inc_results ..).trans kept
  · exact kept

theorem Dev.endOps_all (d : Dev) : d.endOps (fun _ => true) stAborted rcReset = d.resetOps d.ops := by
  rw [Dev.endOps, List.filter_true]

theorem Dev.warmReset_mem (d : Dev) : d.warmReset.mem = (d.resetOps d.ops).mem := by
  show ((((d.endOps (fun _ => true) stAborted rcReset).linkLost 0).linkLost 1).setPower 0).logFlush.mem = _
  rw [Dev.logFlush_mem, Dev.setPower_mem, Dev.linkLost_mem, Dev.linkLost_mem, Dev.endOps_all]

theorem Dev.warmReset_results (d : Dev) : d.warmReset.results = d.results := by
  show ((((d.endOps (fun _ => true) stAborted rcReset).linkLost 0).linkLost 1).setPower 0).logFlush.results = _
  rw [Dev.logFlush_results, Dev.setPower_results, Dev.linkLost_results, Dev.linkLost_results, Dev.endOps_all,
    Dev.resetOps_results]

theorem Dev.warmReset_status (d : Dev) (k : Nat) : d.warmReset.status k = (d.resetOps d.ops).status k := by
  simp only [Dev.status, Dev.word, Dev.bytes, Dev.warmReset_mem]

theorem Dev.hostLinkDown_keeps (d : Dev) (port : Nat) : (d.hostLinkDown port).ops = d.ops ∧
    (d.hostLinkDown port).results = d.results ∧ (d.hostLinkDown port).mem = d.mem := by
  unfold Dev.hostLinkDown
  split
  · exact ⟨d.linkLost_ops port, d.linkLost_results port, d.linkLost_mem port⟩
  · exact ⟨rfl, rfl, rfl⟩

/-- Settles O20: the operations end one by one, and an end keeps what the ends before it wrote. -/
theorem warmResetEndsOperations : Obligations.WarmResetEndsOperations := by
  unfold Obligations.WarmResetEndsOperations
  refine ⟨fun d _ => ⟨rfl, d.warmReset_results, fun o live clean => ?_, fun i _ free => ?_⟩, fun s on good => ?_, fun s port => ?_⟩
  · rw [Dev.warmReset_status]
    exact Dev.resetOps_ended live clean
  · rw [Dev.warmReset_status]
    exact Dev.resetOps_other d fun o live => by simpa using List.find?_eq_none.1 free o live
  · exact ⟨_, State.upd_eq (if_neg (by simp [on, good])), rfl, rfl⟩
  · obtain ⟨ops, results, mem⟩ := s.dev.hostLinkDown_keeps port
    refine ⟨_, State.upd_eq (f := fun d => d.hostLinkDown port) rfl, ops, results, fun i => ?_⟩
    show (s.dev.hostLinkDown port).status i = _
    simp only [Dev.status, Dev.word, Dev.bytes, mem]

end Sys2Proof.Machine
end

section
/-! PROOF. A frozen device's clocked work stands still (21 R532): the guards of the rows, and each row by its guard. -/

namespace Sys2Proof.Machine

/-! ### The guards of clocked work -/

section
variable {d : Dev} (still : d.frozen = true)
include still

theorem Dev.paused_frozen : d.paused = true := by simp [Dev.paused, still]

theorem Dev.runs_frozen : d.runs = false := by simp [Dev.runs, Dev.paused_frozen still]

theorem Dev.finishes_frozen : d.finishes = false := by simp [Dev.finishes, Dev.runs_frozen still, still]

theorem Dev.awake_frozen (unit : Nat) : d.awake unit = false := by simp [Dev.awake, still]

theorem Dev.netRuns_frozen : d.netRuns = false := by simp [Dev.netRuns, still]

theorem Dev.chanLive_frozen (loc ch : Nat) : d.chanLive loc ch = false := by simp [Dev.chanLive, still]

theorem Dev.portHears_frozen (p : Nat) : d.portHears p = false := by simp [Dev.portHears, still]

theorem Dev.fencesMove_frozen : d.fencesMove = false := by simp [Dev.fencesMove, Dev.paused_frozen still]

theorem Dev.fenceLive_frozen (f : Nat) : d.fenceLive f = false := by simp [Dev.fenceLive, Dev.fencesMove_frozen still]

/-! ### Benches and their scratchpads -/

theorem fetchRecord_frozen (b : Nat) : fetchRecord d b = d := by
  unfold fetchRecord
  rw [if_pos (by simp [Dev.runs_frozen still])]

/-- A row of a bench's units waits for a device that finishes its records. -/
theorem unlessFinishes_frozen (p : Bool) (b : Nat) (e : Dev) :
    (if b < 144 && d.finishes && p then e else d) = d :=
  if_neg (by simp [Dev.finishes_frozen still])

theorem alsoUnlessFinishes_frozen (p q : Bool) (b : Nat) (e : Dev) :
    (if b < 144 && d.finishes && p && q then e else d) = d :=
  if_neg (by simp [Dev.finishes_frozen still])

theorem finishes_guard_frozen (b : Nat) (e : Dev) : (if b < 144 && d.finishes then e else d) = d :=
  if_neg (by simp [Dev.finishes_frozen still])

theorem laneMismatch_frozen (b lane : Nat) (agrees : Bool) : laneMismatch d b lane agrees = d := by
  unfold laneMismatch
  rw [if_neg (by simp [Dev.finishes_frozen still])]

theorem stashHead_frozen (k : Nat) : stashHead d k = (d, none) := by
  unfold stashHead
  rw [if_pos (by simp [Dev.runs_frozen still])]

theorem floorSelect_frozen (k : Nat) : floorSelect d k = d := by
  unfold floorSelect
  cases (d.floor k).stashCur with
  | some _ => rfl
  | none => rw [stashHead_frozen still]

theorem selectRun_frozen (loc : Nat) : selectRun d loc = d := by
  unfold selectRun
  rw [Dev.runs_frozen still, floorSelect_frozen still]
  simp

theorem outputReform_frozen (u : ReformUnit) (recovered : Bool) : outputReform d u recovered = d := by
  unfold outputReform
  rw [if_neg (by simp [still])]

theorem execTagWaitSatisfiedOn_frozen (a : Access) : execTagWaitSatisfiedOn d a = d := by
  unfold execTagWaitSatisfiedOn
  cases a <;> simp [Dev.netRuns_frozen still, Dev.finishes_frozen still]

theorem execSlotTimeoutOn_frozen (a : Access) : execSlotTimeoutOn d a = d := by
  unfold execSlotTimeoutOn
  cases a <;> simp [Dev.netRuns_frozen still, Dev.finishes_frozen still]

theorem scratchScrub_frozen (b bank : Nat) (seen : List (Nat × Nat)) : scratchScrub d b bank seen = d := by
  unfold scratchScrub
  rw [if_pos (by simp [Dev.awake_frozen still])]

theorem scratchWriteback_frozen (b off : Nat) : scratchWriteback d b off = d := by
  unfold scratchWriteback
  rw [if_neg (by simp [Dev.awake_frozen still])]

/-! ### Floors -/

theorem cellarScrub_frozen (k ch : Nat) (seen : Ecc) : cellarScrub d k ch seen = d := by
  unfold cellarScrub
  rw [if_pos (by simp [Dev.awake_frozen still])]

theorem cellarWriteback_frozen (k addr : Nat) : cellarWriteback d k addr = d := by
  unfold cellarWriteback
  rw [if_neg (by simp [Dev.awake_frozen still])]

theorem stashRun_frozen (k : Nat) : stashRun d k = d := by
  unfold stashRun
  cases (d.floor k).stashCur with
  | some _ => simp [Dev.runs_frozen still]
  | none => rw [stashHead_frozen still]

theorem recallRun_frozen (k : Nat) : recallRun d k = d := by
  unfold recallRun
  cases (d.floor k).stashCur with
  | some _ => simp [Dev.runs_frozen still]
  | none => rw [stashHead_frozen still]

theorem freeRun_frozen (k : Nat) : freeRun d k = d := by
  unfold freeRun
  cases (d.floor k).stashCur with
  | some _ => rfl
  | none => rw [stashHead_frozen still]

theorem updRun_guard_frozen (k : Nat) (e : Dev) : (if k < 8 && d.runs then e else d) = d :=
  if_neg (by simp [Dev.runs_frozen still])

theorem Dev.stepStart_frozen : d.stepStart = d := by
  unfold Dev.stepStart
  rw [if_pos (by simp [still])]

theorem Dev.floorVote_frozen (k : Nat) : d.floorVote k = d := by
  unfold Dev.floorVote
  rw [if_pos (by simp [still])]

theorem Dev.replayStart_frozen : d.replayStart = d := by
  unfold Dev.replayStart
  cases d.step.replayAt <;> simp [still]

/-! ### Channels and the bulk network -/

theorem Dev.startDesc_frozen (form loc ch : Nat) : d.startDesc form loc ch = d := by
  unfold Dev.startDesc
  rw [if_pos (by simp [Dev.chanLive_frozen still])]

theorem Dev.issueBurst_frozen (loc ch : Nat) : d.issueBurst loc ch = d := by
  unfold Dev.issueBurst
  cases (d.chan loc ch).cur with
  | none => rfl
  | some r => simp [Dev.chanLive_frozen still]

theorem Dev.limitReread_frozen (loc ch : Nat) : d.limitReread loc ch = d := by
  unfold Dev.limitReread
  cases (d.chan loc ch).cur with
  | none => rfl
  | some r => simp [Dev.chanLive_frozen still]

theorem Dev.limitTimeout_frozen (loc ch : Nat) : d.limitTimeout loc ch = d := by
  unfold Dev.limitTimeout
  cases (d.chan loc ch).cur with
  | none => rfl
  | some r => cases hr : r.limitSince <;> simp [hr, still]

theorem Dev.chanStop_frozen (loc ch : Nat) : d.chanStop loc ch = d := by
  unfold Dev.chanStop
  cases (d.chan loc ch).cur with
  | none => rfl
  | some r => cases hr : r.stop <;> simp [hr, still]

/-- No packet arrives on a network that does not run. -/
theorem arriving_frozen {α : Type} (x : Option α) : (if d.netRuns then x else none) = none :=
  if_neg (by simp [Dev.netRuns_frozen still])

theorem execBulkWriteOn_frozen (id : Nat) : execBulkWriteOn d id = d := by
  unfold execBulkWriteOn
  rw [arriving_frozen still]

theorem execBulkReadReqOn_frozen (id : Nat) : execBulkReadReqOn d id = d := by
  unfold execBulkReadReqOn
  rw [arriving_frozen still]

theorem execBulkReadDataOn_frozen (id : Nat) : execBulkReadDataOn d id = d := by
  unfold execBulkReadDataOn
  rw [arriving_frozen still]

theorem execBulkAckOn_frozen (id : Nat) (agrees : Bool) : execBulkAckOn d id agrees = d := by
  unfold execBulkAckOn
  rw [arriving_frozen still]

theorem execBulkNackOn_frozen (id : Nat) : execBulkNackOn d id = d := by
  unfold execBulkNackOn
  rw [arriving_frozen still]

theorem execBulkMulticastOn_frozen (id : Nat) : execBulkMulticastOn d id = d := by
  unfold execBulkMulticastOn
  rw [arriving_frozen still]

theorem execBulkReduceOn_frozen (id : Nat) : execBulkReduceOn d id = d := by
  unfold execBulkReduceOn
  rw [arriving_frozen still]

theorem execReduceTimeoutOn_frozen (b : Nat) : execReduceTimeoutOn d b = d := by
  unfold execReduceTimeoutOn
  split
  · simp [Dev.netRuns_frozen still]
  · rfl

theorem execLinkCrcReplayOn_frozen (b port failures : Nat) : execLinkCrcReplayOn d b port failures = d := by
  unfold execLinkCrcReplayOn
  rw [if_pos (by simp [Dev.netRuns_frozen still])]

theorem execMergeWindowCloseOn_frozen (b slot : Nat) : execMergeWindowCloseOn d b slot = d := by
  unfold execMergeWindowCloseOn
  rw [if_neg (by simp [Dev.netRuns_frozen still])]

/-! ### Ports -/

theorem Dev.phaseRecord_frozen (p : Nat) : d.phaseRecord p = d := by
  unfold Dev.phaseRecord
  rw [if_pos (by simp [Dev.runs_frozen still])]

theorem Dev.recvFlit_frozen (p : Nat) (f : Flit) (effect : Dev → Nat → Dev) : d.recvFlit p f effect = d := by
  unfold Dev.recvFlit
  rw [if_pos (by simp [Dev.portHears_frozen still])]

theorem Dev.recvKind_frozen (kind p : Nat) (f : Flit) : d.recvKind kind p f = d := by
  unfold Dev.recvKind
  rw [Dev.recvFlit_frozen still, ite_self]

theorem Dev.recvIdle_frozen (p : Nat) (f : Flit) : d.recvIdle p f = d := by
  simp [Dev.recvIdle, Dev.recvFlit_frozen still, Dev.portHears_frozen still]

theorem Dev.recvService_frozen (type p : Nat) (f : Flit) (residual : Option Int) (delay : Nat) :
    d.recvService type p f residual delay = d := by
  unfold Dev.recvService
  rw [Dev.recvFlit_frozen still, ite_self]

theorem Dev.recvBeat_frozen (p : Nat) (f : Flit) (residual : Int) : d.recvBeat p f residual = d := by
  unfold Dev.recvBeat
  dsimp only
  rw [Dev.recvService_frozen still, if_pos (c := (!flGood f || flKind f ≠ 6 || d.frozen) = true) (by simp [still]), ite_self]

theorem Dev.recvCal_frozen (p : Nat) (f : Flit) (delay : Nat) : d.recvCal p f delay = d := by
  unfold Dev.recvCal
  rw [Dev.recvService_frozen still, if_neg (by simp [still])]

theorem Dev.laneLoss_frozen (p lane : Nat) : d.laneLoss p lane = d := by
  unfold Dev.laneLoss
  rw [if_neg (by simp [Dev.portHears_frozen still])]

theorem Dev.resendTimeout_frozen (p seq : Nat) : d.resendTimeout p seq = d := by
  unfold Dev.resendTimeout
  dsimp only
  rw [Dev.portHears_frozen still, Bool.false_and, if_neg (by decide)]

theorem Dev.retrainComplete_frozen (p : Nat) : d.retrainComplete p = d := by
  unfold Dev.retrainComplete
  rw [if_neg (by simp [still])]

theorem Dev.portFailed_frozen (p : Nat) : d.portFailed p = d := by
  unfold Dev.portFailed
  dsimp only
  rw [if_neg (by simp [still])]

theorem Dev.beatSkew_frozen (p : Nat) : d.beatSkew p = d := by
  unfold Dev.beatSkew
  rw [if_neg (by simp [still])]

theorem Dev.degradeEffect_frozen : d.degradeEffect = d := by
  unfold Dev.degradeEffect
  dsimp only
  rw [if_pos (by simp [still])]

theorem Dev.abortFlood_frozen : d.abortFlood = d := by
  unfold Dev.abortFlood
  split
  · rfl
  · rw [if_pos (by simp [still])]

theorem Dev.preemptFlood_frozen : d.preemptFlood = d := by
  unfold Dev.preemptFlood
  rw [if_pos (by simp [still])]

theorem Dev.crcMismatch_frozen (p : Nat) (missing : List Nat) (crcBad : Bool) : d.crcMismatch p missing crcBad = d := by
  unfold Dev.crcMismatch
  rw [if_pos (by simp [Dev.portHears_frozen still])]

/-! ### Fences and leave -/

theorem Dev.syncArrive_frozen (rank fence : Nat) : d.syncArrive rank fence = d := by
  unfold Dev.syncArrive
  rw [if_pos (by simp [Dev.paused_frozen still])]

theorem Dev.fenceRelease_frozen (f : Nat) : d.fenceRelease f = d := by
  unfold Dev.fenceRelease
  dsimp only
  rw [if_pos (by simp [Dev.fenceLive_frozen still])]

theorem Dev.syncTimeout_frozen (f : Nat) : d.syncTimeout f = d := by
  unfold Dev.syncTimeout
  dsimp only
  split
  · rw [if_neg (by simp [Dev.fenceLive_frozen still])]
  · rfl

theorem Dev.slipReq_frozen (rank beats record : Nat) : d.slipReq rank beats record = d := by
  unfold Dev.slipReq
  rw [if_pos (Dev.paused_frozen still)]

theorem Dev.slipOut_frozen (fence beats : Nat) : d.slipOut fence beats = d := by
  unfold Dev.slipOut
  rw [if_pos (by simp [Dev.paused_frozen still])]

theorem Dev.fencePoll_frozen (f : Nat) : d.fencePoll f = d := by
  unfold Dev.fencePoll
  exact if_pos still

theorem Dev.fenceResult_frozen (f : Nat) : d.fenceResult f = d := by
  unfold Dev.fenceResult
  exact if_pos still

theorem Dev.leafQuiesced_frozen (rank : Nat) : d.leafQuiesced rank = d := by
  unfold Dev.leafQuiesced
  rw [if_pos (by simp [still])]

theorem Dev.leaveRequest_frozen (who : Nat) : d.leaveRequest who = d := by
  unfold Dev.leaveRequest
  rw [if_pos (by simp [still])]

theorem Dev.leaveGrant_frozen : d.leaveGrant = d := by
  unfold Dev.leaveGrant
  cases d.leaveQ with
  | nil => rfl
  | cons q rest => exact if_pos (by simp [still])

end

/-! ### The rows -/

theorem State.next_same {s : State} {d : Dev} (e : d = s.dev) : Host.Outcome.next (ρ := Refusal) (φ := Fault) (s.withDev d) = .next s := by
  rw [e]

/-- Settles O57: each clocked row by the guard of its work. -/
theorem frozenStandsStill : Obligations.FrozenStandsStill := by
  unfold Obligations.FrozenStandsStill
  intro s i still clocked
  obtain ⟨k, rfl⟩ | other := Classical.em (∃ k, i = .recall k)
  · exact State.next_same (recallRun_frozen still k)
  cases i with
  | recordFetch b => exact State.next_same (fetchRecord_frozen still b)
  | laneRowRecord b => exact State.next_same (finishes_guard_frozen still b _)
  | batchRowArrive b => exact State.next_same (finishes_guard_frozen still b _)
  | batchTimeout b => exact State.next_same (finishes_guard_frozen still b _)
  | compact b => exact State.next_same (finishes_guard_frozen still b _)
  | laneResidueMismatch b lane agrees => exact State.next_same (laneMismatch_frozen still b lane agrees)
  | compress b => exact State.next_same (unlessFinishes_frozen still _ b _)
  | expand b => exact State.next_same (unlessFinishes_frozen still _ b _)
  | gather b => exact State.next_same (unlessFinishes_frozen still _ b _)
  | scatterAdd b => exact State.next_same (unlessFinishes_frozen still _ b _)
  | sort b => exact State.next_same (unlessFinishes_frozen still _ b _)
  | wsum b => exact State.next_same (unlessFinishes_frozen still _ b _)
  | vectorRecord b => exact State.next_same (unlessFinishes_frozen still _ b _)
  | raggedLoop b => exact State.next_same (finishes_guard_frozen still b _)
  | routeDispatch b => exact State.next_same (alsoUnlessFinishes_frozen still _ _ b _)
  | routeCollect b => exact State.next_same (alsoUnlessFinishes_frozen still _ _ b _)
  | transpose b => exact State.next_same (alsoUnlessFinishes_frozen still _ _ b _)
  | transposeInPlace b => exact State.next_same (alsoUnlessFinishes_frozen still _ _ b _)
  | select loc => exact State.next_same (selectRun_frozen still loc)
  | outputReform u recovered => exact State.next_same (outputReform_frozen still u recovered)
  | tagWaitSatisfied a => exact State.next_same (execTagWaitSatisfiedOn_frozen still a)
  | slotTimeout a => exact State.next_same (execSlotTimeoutOn_frozen still a)
  | scratchpadScrubRead b bank seen => exact State.next_same (scratchScrub_frozen still b bank seen)
  | scratchpadEccWriteback b off => exact State.next_same (scratchWriteback_frozen still b off)
  | cellarScrubRead k ch seen => exact State.next_same (cellarScrub_frozen still k ch seen)
  | cellarEccWriteback k addr => exact State.next_same (cellarWriteback_frozen still k addr)
  | dmaTwoD loc ch => exact State.next_same (Dev.startDesc_frozen still 0 loc ch)
  | dmaCircular loc ch => exact State.next_same (Dev.startDesc_frozen still 1 loc ch)
  | dmaShape loc ch => exact State.next_same (Dev.startDesc_frozen still 2 loc ch)
  | dmaBurstIssue loc ch => exact State.next_same (Dev.issueBurst_frozen still loc ch)
  | dmaLimitReread loc ch => exact State.next_same (Dev.limitReread_frozen still loc ch)
  | limitTimeout loc ch => exact State.next_same (Dev.limitTimeout_frozen still loc ch)
  | dmaStop loc ch => exact State.next_same (Dev.chanStop_frozen still loc ch)
  | bulkWrite id => exact State.next_same (execBulkWriteOn_frozen still id)
  | bulkReadReq id => exact State.next_same (execBulkReadReqOn_frozen still id)
  | bulkReadData id => exact State.next_same (execBulkReadDataOn_frozen still id)
  | bulkNack id => exact State.next_same (execBulkNackOn_frozen still id)
  | bulkMulticast id => exact State.next_same (execBulkMulticastOn_frozen still id)
  | bulkReduce id => exact State.next_same (execBulkReduceOn_frozen still id)
  | bulkAck id agrees => exact State.next_same (execBulkAckOn_frozen still id agrees)
  | reduceTimeout b => exact State.next_same (execReduceTimeoutOn_frozen still b)
  | linkCrcReplay b port failures => exact State.next_same (execLinkCrcReplayOn_frozen still b port failures)
  | mergeWindowClose b slot => exact State.next_same (execMergeWindowCloseOn_frozen still b slot)
  | stash k => exact State.next_same (stashRun_frozen still k)
  | free k => exact State.next_same (freeRun_frozen still k)
  | phaseRecord p => exact State.next_same (Dev.phaseRecord_frozen still p)
  | flitWrite p f => exact State.next_same (Dev.recvKind_frozen still 1 p f)
  | flitReduceAdd p f => exact State.next_same (Dev.recvKind_frozen still 2 p f)
  | flitReadReq p f => exact State.next_same (Dev.recvKind_frozen still 3 p f)
  | flitReadData p f => exact State.next_same (Dev.recvKind_frozen still 4 p f)
  | flitStream p f => exact State.next_same (Dev.recvKind_frozen still 5 p f)
  | flitIdle p f => exact State.next_same (Dev.recvIdle_frozen still p f)
  | beatMessage p f residual => exact State.next_same (Dev.recvBeat_frozen still p f residual)
  | flood p f => exact State.next_same (Dev.recvService_frozen still 9 p f none 0)
  | retryReq p f => exact State.next_same (Dev.recvService_frozen still 3 p f none 0)
  | nack p f => exact State.next_same (Dev.recvService_frozen still 4 p f none 0)
  | poll p f => exact State.next_same (Dev.recvService_frozen still 5 p f none 0)
  | result p f => exact State.next_same (Dev.recvService_frozen still 6 p f none 0)
  | vote p f => exact State.next_same (Dev.recvService_frozen still 7 p f none 0)
  | voteResult p f => exact State.next_same (Dev.recvService_frozen still 8 p f none 0)
  | norm p f => exact State.next_same (Dev.recvService_frozen still 10 p f none 0)
  | fprint p f => exact State.next_same (Dev.recvService_frozen still 11 p f none 0)
  | cal p f delay => exact State.next_same (Dev.recvCal_frozen still p f delay)
  | laneLoss p lane => exact State.next_same (Dev.laneLoss_frozen still p lane)
  | resendTimeout p seq => exact State.next_same (Dev.resendTimeout_frozen still p seq)
  | retrainComplete p => exact State.next_same (Dev.retrainComplete_frozen still p)
  | portFailed p => exact State.next_same (Dev.portFailed_frozen still p)
  | beatSkew p => exact State.next_same (Dev.beatSkew_frozen still p)
  | degradeEffect => exact State.next_same (Dev.degradeEffect_frozen still)
  | abortEffect => exact State.next_same (Dev.abortFlood_frozen still)
  | preemptEffect => exact State.next_same (Dev.preemptFlood_frozen still)
  | flitCrcMismatch p missing crcBad => exact State.next_same (Dev.crcMismatch_frozen still p missing crcBad)
  | syncArrive rank fence => exact State.next_same (Dev.syncArrive_frozen still rank fence)
  | fenceRelease fence => exact State.next_same (Dev.fenceRelease_frozen still fence)
  | syncTimeout fence => exact State.next_same (Dev.syncTimeout_frozen still fence)
  | slipReq rank beats record => exact State.next_same (Dev.slipReq_frozen still rank beats record)
  | slip fence beats => exact State.next_same (Dev.slipOut_frozen still fence beats)
  | domainFencePoll fence => exact State.next_same (Dev.fencePoll_frozen still fence)
  | domainFenceResult fence => exact State.next_same (Dev.fenceResult_frozen still fence)
  | quiesced rank => exact State.next_same (Dev.leafQuiesced_frozen still rank)
  | stepStart => exact State.next_same (Dev.stepStart_frozen still)
  | elementwise k => exact State.next_same (updRun_guard_frozen still k _)
  | orthoMomentum k => exact State.next_same (updRun_guard_frozen still k _)
  | orthoApply k => exact State.next_same (updRun_guard_frozen still k _)
  | floorVote k => exact State.next_same (Dev.floorVote_frozen still k)
  | stepReplayStart => exact State.next_same (Dev.replayStart_frozen still)
  | leaveRequest b => exact State.next_same (Dev.leaveRequest_frozen still b)
  | leaveGrant => exact State.next_same (Dev.leaveGrant_frozen still)
  | _ => simp [Instr.clocked] at clocked other

end Sys2Proof.Machine
end

section
/-! PROOF. The end of a self-test's region that passes: its restore can meet the sixteenth correction against a die, and the mark
of the die is a fault (10 R294, R295, 17 R471, R481, 20 R523, R525). -/

namespace Sys2Proof.Machine

section
variable {d : Dev}

/-! ### What an end of a region leaves of FAULT_STATUS and of the held commands -/

/-- FAULT_STATUS and the commands that wait (15 R407). -/
def Dev.statusAndHeld (d : Dev) : W64 × List (Nat × Hdr × List W64) := (d.reg Reg.FAULT_STATUS, d.smiper.heldCmds)

theorem faultStatus_ne_cellarEcc (k : Nat) : Reg.FAULT_STATUS ≠ Reg.CELLAR_ECC k := by
  unfold Reg.FAULT_STATUS Reg.CELLAR_ECC floorBase
  omega

theorem faultStatus_ne_benchLeave (b : Nat) : Reg.FAULT_STATUS ≠ Reg.BENCH_LEAVE b := by
  unfold Reg.FAULT_STATUS Reg.BENCH_LEAVE benchBase
  omega

theorem Dev.statusAndHeld_foldl {β : Type} {f : Dev → β → Dev} (hf : ∀ d b, (f d b).statusAndHeld = d.statusAndHeld) (l : List β)
    (d : Dev) : (l.foldl f d).statusAndHeld = d.statusAndHeld :=
  List.foldlRecOn (motive := fun e : Dev => e.statusAndHeld = d.statusAndHeld) _ _ rfl fun e kept b _ => (hf e b).trans kept

theorem Dev.setStatus_statusAndHeld (d : Dev) (i : Nat) (w : W64) : (d.setStatus i w).statusAndHeld = d.statusAndHeld := by
  simp only [Dev.statusAndHeld, Dev.setStatus_reg _ _ _ faultStatus_ne_cellarEcc, Dev.setStatus_smiper]

theorem Dev.addResult_statusAndHeld (d : Dev) (i : Nat) (r : List W64) : (d.addResult i r).statusAndHeld = d.statusAndHeld :=
  Dev.setStatus_statusAndHeld ..

theorem Dev.opEnd_statusAndHeld (d : Dev) (slot state err : Nat) : (d.opEnd slot state err).statusAndHeld = d.statusAndHeld := by
  have ended : (d.opEnd slot state err).statusAndHeld = (d.setStatus slot (d.endedWord slot state err)).statusAndHeld := by
    unfold Dev.opEnd
    exact (apply_ite Dev.statusAndHeld _ _ _).trans (ite_self _)
  rw [ended, Dev.setStatus_statusAndHeld]

theorem Dev.set_statusAndHeld (d : Dev) {f : Fld} (v : Nat) (hf : Reg.FAULT_STATUS ≠ f.addr) :
    (d.set f v).statusAndHeld = d.statusAndHeld := by
  simp only [Dev.statusAndHeld, Dev.reg_set_ne d v hf, Dev.set_smiper]

theorem Dev.returnHub_statusAndHeld (d : Dev) (units : Nat) : (d.returnHub units).statusAndHeld = d.statusAndHeld := by
  unfold Dev.returnHub Dev.refreshLeave
  dsimp only
  rw [Dev.set_statusAndHeld _ _ (by decide)]
  exact Dev.statusAndHeld_foldl (fun d b => by exact Dev.set_statusAndHeld d _ (faultStatus_ne_benchLeave b)) _ _

/-- The self-test's operation with what is left of it recorded, before its status word is written. -/
def Dev.bistRecorded (d : Dev) (slot : Nat) : Dev :=
  let e := (d.bist.filter (fun r => r.stage ≠ 3)).foldl
    (fun d r => d.addResult slot (regionRecord r 3 0xFF 0xF 0 0 0 0 0 0)) d
  ({ e with bist := [], leaveQ := e.leaveQ.filter (fun q => decide (q.who ≤ 144)) }).returnHub e.hubGrant

theorem Dev.bistRecorded_statusAndHeld (d : Dev) (slot : Nat) : (d.bistRecorded slot).statusAndHeld = d.statusAndHeld :=
  (Dev.returnHub_statusAndHeld ..).trans (Dev.statusAndHeld_foldl (fun d _ => by exact d.addResult_statusAndHeld ..) _ d)

/-- A self-test that settles ends, or goes on. -/
theorem Dev.bistSettle_cases (d : Dev) : d.bistSettle = d ∨
    ∃ (slot state err : Nat), d.bistSettle = (d.bistRecorded slot).opEnd slot state err := by
  unfold Dev.bistSettle
  cases d.testing with
  | none => exact .inl rfl
  | some o =>
    dsimp only
    split
    · exact .inl rfl
    · right
      split
      · exact ⟨_, _, _, rfl⟩
      · exact ⟨_, _, _, rfl⟩
      · exact ⟨_, _, _, rfl⟩

theorem Dev.bistSettle_statusAndHeld (d : Dev) : d.bistSettle.statusAndHeld = d.statusAndHeld := by
  rcases d.bistSettle_cases with e | ⟨slot, state, err, e⟩
  · rw [e]
  · rw [e, Dev.opEnd_statusAndHeld, Dev.bistRecorded_statusAndHeld]

/-- A region that has passed: restored from `a` to `p`, recorded, its leave given back. -/
def Dev.regionPassed (d : Dev) (o : LongOp) (r : Region) (code i : Nat) (p : Nat × Nat) (a : Nat) : Dev :=
  let e := ((d.rdPhys a p.2).1.copyRange a p.1 p.2).addResult o.slot
    (regionRecord r 0 0xFF 0xF 0 0 0 0 0 (d.outcomeOf r (Found.of [])).2)
  let e : Dev := { e with bist := e.bist.modify i (fun r => { r with stage := 3 }) }
  e.returnHub (Dev.regionUnits ((d.rdPhys a p.2).1.copyRange a p.1 p.2 |>.addResult o.slot
    (regionRecord r 0 0xFF 0xF 0 0 0 0 0 (d.outcomeOf r (Found.of [])).2)) code)

theorem Dev.regionPassed_statusAndHeld (o : LongOp) (r : Region) (code i : Nat) (p : Nat × Nat) (a : Nat) :
    (d.regionPassed o r code i p a).statusAndHeld = (d.rdPhys a p.2).1.statusAndHeld :=
  (Dev.returnHub_statusAndHeld ..).trans (Dev.addResult_statusAndHeld ..)

theorem Dev.regionEnd_passes {o : LongOp} {r : Region} {code i : Nat} {p : Nat × Nat} {a : Nat} (testing : d.testing = some o)
    (found : d.bist.findIdx? (fun r => r.code = code) = some i) (region : d.bist[i]? = some r) (runs : r.stage = 2)
    (on : d.frozen = false) (bytes : regionBytes code = some p) (slot : saveSlot r = some a) (good : d.badPhys a p.2 = none) :
    d.regionEnd code [] = (d.regionPassed o r code i p a).bistSettle := by
  have passed : d.outcomeOf r (Found.of []) = (0, (d.outcomeOf r (Found.of [])).2) := rfl
  unfold Dev.regionEnd
  rw [testing, found]
  dsimp only
  rw [region]
  dsimp only
  rw [if_neg (by simp [runs, on]), passed]
  simp only [bytes, slot, Option.bind_some, good, Option.isSome_none]
  rfl

/-! ### A die of a suspect site -/

theorem Dev.enterSafe_idle (idle : d.js = jsNone) (cause : Nat) : d.enterSafe cause = d.safeEntered cause := by
  have js : (d.safeEntered cause).js = jsNone := (d.safeEntered_keepsJob cause).js.trans idle
  unfold Dev.safeEntered at js ⊢
  unfold Dev.enterSafe
  dsimp only at js ⊢
  rw [if_pos (by rw [Dev.jobLoaded, js]; decide)]

theorem Dev.safeEntered_safe (d : Dev) (cause : Nat) : (d.safeEntered cause).get Reg.FAULT_STATUS_SAFE = 1 := by
  unfold Dev.safeEntered
  dsimp only
  rw [Dev.logEv_get, Dev.get, Dev.setRepair_reg]
  exact (Dev.get_set_ne _ (by decide) _ (.inr (by decide))).trans (Dev.get_set_self _ (by decide) _)

theorem Dev.setRepair_smiper (d : Dev) (f : Repair → Repair) : (d.setRepair f).smiper = d.smiper := by
  unfold Dev.setRepair
  obtain ⟨r, i⟩ := d.repair
  rfl

theorem Dev.safeEntered_smiper (d : Dev) (cause : Nat) : (d.safeEntered cause).smiper = d.smiper := by
  unfold Dev.safeEntered
  dsimp only
  rw [Dev.logEv_smiper, Dev.setRepair_smiper, Dev.set_smiper, Dev.set_smiper]

theorem Dev.recordFault_smiper (d : Dev) (f : FaultRec) (disp : Nat) (persistent : Bool) :
    (d.recordFault f disp persistent).smiper = d.smiper := by
  have counted (e : Dev) (c : Fld) (b : Prop) [Decidable b] : (if b then e.inc c else e).smiper = e.smiper := by
    split <;> simp
  unfold Dev.recordFault
  dsimp only
  split
  · split
    · rw [Dev.inc_smiper, counted]; rfl
    · rw [counted, counted]; rfl
  · rw [counted]; rfl

/-- A die whose site is suspect takes a device without a job to Safe, and no command waits that did not. -/
theorem Dev.fault_suspectDie_safe {k : Nat} (suspect : d.faults.suspects.contains (fkDieMark, 144 + k, 0) = true)
    (idle : d.js = jsNone) (quiet : d.ops.filter (fun o => o.running && decide (basicOp o.opcode = 0x303)) = []) (disp : Nat) :
    (d.fault (dieMark k) disp).get Reg.FAULT_STATUS_SAFE = 1 ∧ (d.fault (dieMark k) disp).smiper = d.smiper := by
  have recorded := d.suspectRecorded_keepsJob k
  have js := recorded.js.trans idle
  have none_picked : (d.suspectRecorded (dieMark k)).ops.filter (fun o => o.running && decide (basicOp o.opcode = 0x303)) = [] := by
    rw [recorded.ops, quiet]
  have alone : (d.suspectRecorded (dieMark k)).failPreempt (dieMark k) = d.suspectRecorded (dieMark k) := by
    simp only [Dev.failPreempt, js]
    exact Dev.endOps_none none_picked ..
  rw [Dev.fault_suspectDie suspect, alone, Dev.enterSafe_idle js]
  refine ⟨Dev.safeEntered_safe .., (Dev.safeEntered_smiper ..).trans ?_⟩
  exact (Dev.inc_smiper _ Reg.FAULT_COUNT_PERSISTENT).trans (Dev.recordFault_smiper ..)

/-- The read of one codeword that has an error of a die. -/
theorem Dev.rdPhys_dieError {a n die : Nat} (readable : d.badPhys a n = none) (cellar : a < cellarEnd)
    (met : d.errIn a n = [(a, 16 + die)]) (ofDie : d.codeError a (16 + die) = 16 + die) :
    (d.rdPhys a n).1.statusAndHeld = (d.dieCorrection (cellarOf a) die).statusAndHeld := by
  simp only [Dev.rdPhys, readable, cellar, ↓reduceIte, met, List.foldl_cons, List.foldl_nil, Dev.codewordMet, ofDie,
    Dev.codewordRead]
  rw [if_neg (by omega), if_pos (by omega), Nat.add_sub_cancel_left]
  rfl

end

/-- With no command held none is tried. -/
theorem thenHeld_none {f : Fuses} {d : Dev} (none_held : d.smiper.heldCmds = []) : thenHeld f d = (f, d) := by
  rw [thenHeld, none_held]
  rfl

theorem State.tried_none {s : State} {d : Dev} (none_held : d.smiper.heldCmds = []) : s.tried d = s.withDev d := by
  rw [State.tried, thenHeld_none none_held]

/-! ### The counterexample -/

/-- The one operation that lives: a self-test that runs. -/
def selfTest : LongOp := { slot := 0, opcode := 0x503, params := [], running := true }

/-- The region that runs: bench 0, saved in the first slot of the save area. -/
def benchZero : Region := { code := 0, mask := 1, stage := 2 }

/-- The save slot holds a codeword with an error of die 0; fifteen corrections stand against that die, and a mark of a die of its
floor is a fault at a suspect site. -/
def suspectSave : Dev :=
  { ops := [selfTest], bist := [benchZero], errs := [(574 * 2 ^ 30, 16)]
    floors := [(cellarOf (574 * 2 ^ 30), { dieCounts := [(0, 15)] })]
    faults := { suspects := [(fkDieMark, 144 + cellarOf (574 * 2 ^ 30), 0)] } }

theorem suspectSave_readable : suspectSave.badPhys (574 * 2 ^ 30) spSize = none := by decide +kernel

theorem benchZero_bytes : regionBytes 0 = some (spBase 0, spSize) := rfl

theorem benchZero_saveSlot : saveSlot benchZero = some (574 * 2 ^ 30) := by decide +kernel

theorem Dev.safe_and_held_of {d e : Dev} (same : d.statusAndHeld = e.statusAndHeld)
    (safe : e.get Reg.FAULT_STATUS_SAFE = 1 ∧ e.smiper.heldCmds = []) :
    d.get Reg.FAULT_STATUS_SAFE = 1 ∧ d.smiper.heldCmds = [] := by
  obtain ⟨reg, held⟩ := Prod.ext_iff.1 same
  exact ⟨(congrArg (fld · 63 63) reg).trans safe.1, held.trans safe.2⟩

theorem suspectSave_dieCorrection :
    (suspectSave.dieCorrection (cellarOf (574 * 2 ^ 30)) 0).get Reg.FAULT_STATUS_SAFE = 1 ∧
      (suspectSave.dieCorrection (cellarOf (574 * 2 ^ 30)) 0).smiper.heldCmds = [] := by
  have marked := (suspectSave.dieCounted_keepsJob (cellarOf (574 * 2 ^ 30)) 0).trans
    (Dev.dieMarked_keepsJob _ (cellarOf (574 * 2 ^ 30)) 0)
  have suspect : ((suspectSave.dieCounted (cellarOf (574 * 2 ^ 30)) 0).dieMarked (cellarOf (574 * 2 ^ 30)) 0).faults.suspects.contains
      (fkDieMark, 144 + cellarOf (574 * 2 ^ 30), 0) = true := by
    rw [Dev.dieMarked_faults, Dev.dieCounted, Dev.onFloor_faults, Dev.inc_faults]
    decide
  have idle : suspectSave.js = jsNone := by decide +kernel
  have smiper : ((suspectSave.dieCounted (cellarOf (574 * 2 ^ 30)) 0).dieMarked (cellarOf (574 * 2 ^ 30)) 0).smiper =
      suspectSave.smiper := by
    rw [Dev.dieMarked, Dev.setRepair_smiper, Dev.set_smiper, Dev.set_smiper, Dev.dieCounted, Dev.onFloor_smiper, Dev.inc_smiper]
  obtain ⟨safe, kept⟩ := Dev.fault_suspectDie_safe suspect (marked.js.trans idle) (by rw [marked.ops]; decide) dLatent
  rw [Dev.dieCorrection_marks (by decide +kernel) (by decide +kernel)]
  exact ⟨safe, congrArg SmiperSt.heldCmds (kept.trans smiper)⟩

/-- The end of the region leaves the device in Safe, with no command held. -/
theorem suspectSave_regionEnd :
    (suspectSave.regionEnd 0 []).get Reg.FAULT_STATUS_SAFE = 1 ∧ (suspectSave.regionEnd 0 []).smiper.heldCmds = [] := by
  have restored : (suspectSave.rdPhys (574 * 2 ^ 30) spSize).1.statusAndHeld =
      (suspectSave.dieCorrection (cellarOf (574 * 2 ^ 30)) 0).statusAndHeld :=
    Dev.rdPhys_dieError (die := 0) suspectSave_readable (by decide) (by decide +kernel) (by decide +kernel)
  rw [Dev.regionEnd_passes (o := selfTest) (i := 0) rfl rfl rfl rfl (by decide +kernel) benchZero_bytes benchZero_saveSlot suspectSave_readable]
  exact Dev.safe_and_held_of (((Dev.bistSettle_statusAndHeld _).trans (Dev.regionPassed_statusAndHeld ..)).trans restored)
    suspectSave_dieCorrection

/-- A device that an end of a region takes to Safe. -/
theorem bistRegionEnd_enters {d : Dev} {code : Nat} {seen : List Nat} {t : State}
    (entered : (d.regionEnd code seen).get Reg.FAULT_STATUS_SAFE = 1 ∧ (d.regionEnd code seen).smiper.heldCmds = [])
    (taken : exec (.bistRegionEnd code seen) { dev := d } = .next t) : t.dev.get Reg.FAULT_STATUS_SAFE = 1 := by
  obtain ⟨safe, held⟩ := entered
  obtain rfl : State.tried { dev := d } (d.regionEnd code seen) = t := Host.Outcome.next.inj taken
  rw [State.tried_none held]
  exact safe

/-- Refutes O26: a region that passes need not leave Safe as it is. The restore of a bench reads its save slot; the read can be the
sixteenth correction against a die of the cellar, and where the mark of that die is a fault at a suspect site the device enters
Safe (10 R294, R295, 17 R471, R481). -/
theorem not_selfTestRegions : ¬ Obligations.SelfTestRegions := by
  unfold Obligations.SelfTestRegions
  rintro ⟨-, ends, -⟩
  have readable (p : Nat × Nat) (a : Nat) (bytes : regionBytes 0 = some p) (slot : saveSlot benchZero = some a) :
      suspectSave.badPhys a p.2 = none := by
    have ep : (spBase 0, spSize) = p := Option.some.inj (benchZero_bytes.symm.trans bytes)
    have ea : 574 * 2 ^ 30 = a := Option.some.inj (benchZero_saveSlot.symm.trans slot)
    rw [← ep, ← ea]
    exact suspectSave_readable
  obtain ⟨⟨t, taken, -, safe⟩, -⟩ := ends { dev := suspectSave } selfTest 0 0 benchZero rfl rfl rfl rfl (by decide +kernel) rfl readable
  have before : suspectSave.get Reg.FAULT_STATUS_SAFE = 0 := by decide +kernel
  have after := (bistRegionEnd_enters suspectSave_regionEnd taken).symm.trans (safe.trans before)
  exact absurd after (by decide)

end Sys2Proof.Machine
end

section
/-! PROOF. Residue and parity mismatches (17 R467 to R471), and the ends of waits on tags (07 R223 to R225). -/

namespace Sys2Proof.Machine

variable {d : Dev} {b e : Nat}

/-! ### Mismatches -/

theorem laneMismatch_eq {lane : Nat} {agrees : Bool} {r : LaneRun} (hb : b < 144) (hl : lane < 256) (finishes : d.finishes = true)
    (here : (d.bn b).lane.cur = some r) : laneMismatch d b lane agrees =
      ((if agrees then d else laneStop d b).addCycles (Reg.INTEG_COUNT_RERUN_CYCLES b)).fault
        { kind := fkResidue, unit := b, recordId := recId r.item.words, lane := lane, site := lane, suspect := !agrees }
        (if agrees then dLocal else dAbort) := by
  unfold laneMismatch
  rw [if_pos (by simp [hb, hl, finishes, here]), here]

/-! ### An access looks at its tags again (07 R223, R224) -/

/-- With no access before it, an engine's access looks at its tags again at once. -/
theorem tagWait_engine {k : Nat} (hb : b < 144) (finishes : d.finishes = true) (alone : d.rivals (.engine b k) = []) :
    execTagWaitSatisfiedOn d (.engine b k) = engineRetry d b k := by
  unfold execTagWaitSatisfiedOn
  simp [alone, hb, finishes]

theorem engineRetry_eng (he : e < 3) : engineRetry d b (e + 2) = engRun e d b := by
  match e, he with
  | 0, _ => rfl
  | 1, _ => rfl
  | 2, _ => rfl

section
variable {r : EngRun} {w : Wait} {p : Plan} (here : ((d.bn b).eng e).cur = some r) (phase : r.phase = 1)
  (plan : enginePlan e d b r.item = .ok p)
include here phase plan

/-- An engine whose record waits at its source goes on from there. -/
theorem engRun_from_source : engRun e d b =
    (let d := engAt e 1 d b (engTags e 2 (p.fullSlots b) true d b)
     let d := engAt e 2 d b (engTags e 3 (p.emptySlots b) false d b)
     engAt e 3 d b (engWork e p d b)) := by
  have start : engStart e d b = d := by simp only [engStart, here]
  have leave : engLeaveStep e d b = d := engAt_other here (by omega) _
  simp only [engRun, start, here, plan, leave]
  rfl

/-- While its slots are not as they are to be, it waits on. -/
theorem engRun_waits_on (wait : r.wait = some w) (clean : d.tagsClean (p.fullSlots b))
    (unready : d.tagsAre (p.fullSlots b) true = false) : engRun e d b = d := by
  have source : engAt e 1 d b (engTags e 2 (p.fullSlots b) true d b) = d := by
    rw [engAt_phase here phase]
    simp only [engTags, d.tagBad_clean _ clean, d.tagFix_clean _ clean, unready, Bool.false_eq_true, ↓reduceIte, wait]
  rw [engRun_from_source here phase plan]
  simp only [source]
  rw [engAt_other here (by omega), engAt_other here (by omega)]

theorem engRun_goes_on (ends : d.EngEnds b e r.item.words p) : engRun e d b = d.engWorked b e r.item.words p :=
  (engRun_from_source here phase plan).trans (ends.phases rfl here phase)

end

/-- With no access before it, a channel's own bursts look at their tags again; no packet of its waits. -/
theorem tagWait_channel {loc ch : Nat} (on : d.netRuns = true) (alone : d.rivals (.channel loc ch) = [])
    (idle : ∀ p ∈ (d.ownRetry loc ch).net.pkts, p.loc = loc → p.ch = ch → p.wait = none) :
    execTagWaitSatisfiedOn d (.channel loc ch) = d.ownRetry loc ch := by
  have none_waits : (d.ownRetry loc ch).net.pkts.filter (fun p => p.loc = loc && p.ch = ch && p.wait.isSome) = [] := by
    rw [List.filter_eq_nil_iff]
    intro p hp
    simp only [Bool.and_eq_true, decide_eq_true_eq, Option.isSome_iff_ne_none, not_and, not_not, and_imp]
    exact idle p hp
  unfold execTagWaitSatisfiedOn Dev.channelRetry
  simp only [on, alone, List.foldl_nil, ite_self, none_waits, ↓reduceIte]

/-! ### Waits that last too long (07 R225) -/

theorem slotTimeout_engine (hb : b < 144) (finishes : d.finishes = true) (k : Nat) :
    execSlotTimeoutOn d (.engine b k) = engineTimeout d b k := by
  simp [execSlotTimeoutOn, hb, finishes]

section
variable {r : EngRun} {w : Wait} (he : e < 3) (here : ((d.bn b).eng e).cur = some r) (wait : r.wait = some w)
include he here wait

theorem waitsOf_eng : d.waitsOf (.engine b (e + 2)) = [(engPort e r.item.words, w)] := by
  match e, he with
  | 0, _ => simp [Dev.waitsOf, here, wait]
  | 1, _ => simp [Dev.waitsOf, here, wait]
  | 2, _ => simp [Dev.waitsOf, here, wait]

theorem engineTimeout_eng (expired : d.waitExpired w = true) : engineTimeout d b (e + 2) =
    (engDrop d b e).slotTimeout b b (engPort e r.item.words) (recId r.item.words) w := by
  unfold engineTimeout
  simp only [waitsOf_eng he here wait, List.find?_cons, expired]
  match e, he with
  | 0, _ => simp [here]
  | 1, _ => simp [here]
  | 2, _ => simp [here]

theorem engineTimeout_eng_early (early : d.waitExpired w = false) : engineTimeout d b (e + 2) = d := by
  unfold engineTimeout
  simp only [waitsOf_eng he here wait, List.find?_cons, early, List.find?_nil]

end

theorem engineTimeout_lane {r : LaneRun} {w : Wait} (here : (d.bn b).lane.cur = some r) (wait : r.wait = some w)
    (expired : d.waitExpired w = true) :
    engineTimeout d b 0 = (laneStop d b).slotTimeout b b 0 (recId r.item.words) w := by
  have waits : d.waitsOf (.engine b 0) = [(0, w)] := by simp [Dev.waitsOf, here, wait]
  simp only [engineTimeout, waits, List.find?_cons, expired, here]

theorem engineTimeout_drain {r : DrainRow} {l : List DrainRow} {w : Wait} (here : (d.bn b).lane.drains = r :: l)
    (wait : r.wait = some w) (expired : d.waitExpired w = true) :
    engineTimeout d b 1 =
      ((laneStop d b).onLane b (fun l => { l with drains := [] })).slotTimeout b b 2 (recId r.words) w := by
  have first : (d.waitsOf (.engine b 1)).find? (fun w => d.waitExpired w.2) = some (2, w) := by
    simp [Dev.waitsOf, here, wait, expired]
  simp [engineTimeout, first, here, wait]

theorem engineTimeout_ragged {u : List W64} {w : Wait} (here : (d.bn b).seq = .ragged u) (wait : (d.bn b).raggedWait = some w)
    (expired : d.waitExpired w = true) : engineTimeout d b 5 = (seqStop d b).slotTimeout b b 4 (ragId u) w := by
  have waits : d.waitsOf (.engine b 5) = [(4, w)] := by simp [Dev.waitsOf, wait]
  simp only [engineTimeout, waits, List.find?_cons, expired, here]

section
variable {loc ch : Nat} {r : ChanRun} (here : (d.chan loc ch).cur = some r)
include here

theorem channelTimeout_burst {u : Burst} {w : Wait} {k : Nat} {l : List Nat}
    (found : r.fly.find? (fun b => (b.wait.map d.waitExpired).getD false) = some u) (wait : u.wait = some w)
    (slots : w.slots = k :: l) : d.channelTimeout loc ch =
      ((d.onRun loc ch (ChanRun.lessBurst u.pos)).slotTimeout (k / 16384) loc 3 (dmId r.words) w).stopChan loc ch 5 := by
  simp only [Dev.channelTimeout, here, found, wait, Option.getD_some, slots, List.headD_cons]

theorem channelTimeout_own {w : Wait} (idle : ∀ u ∈ r.fly, u.wait = none) (wait : r.wait = some w) : d.channelTimeout loc ch =
    if d.waitExpired w then
      (d.slotTimeout (w.slots.headD 0 / 16384) loc 3 (dmId r.words) w).stopChan loc ch 5 else d := by
  have none_ : r.fly.find? (fun b => (b.wait.map d.waitExpired).getD false) = none :=
    List.find?_eq_none.2 fun u hu => by simp [idle u hu]
  simp only [Dev.channelTimeout, here, none_, wait]

end

theorem State.slotTimeout_eq {s : State} {a : Access} {t : Dev} (h : execSlotTimeoutOn s.dev a = t) :
    exec (.slotTimeout a) s = .next (s.withDev t) :=
  State.upd_eq (f := fun d => execSlotTimeoutOn d a) h

theorem State.tagWait_eq {s : State} {a : Access} {t : Dev} (h : execTagWaitSatisfiedOn s.dev a = t) :
    exec (.tagWaitSatisfied a) s = .next (s.withDev t) :=
  State.upd_eq (f := fun d => execTagWaitSatisfiedOn d a) h

/-- Settles O39. -/
theorem mismatchesAndTagWaits : Obligations.MismatchesAndTagWaits := by
  unfold Obligations.MismatchesAndTagWaits
  refine ⟨⟨fun s b lane agrees r hb hl finishes here =>
      State.upd_eq (f := fun d => laneMismatch d b lane agrees) (laneMismatch_eq hb hl finishes here),
    fun s u ok there on => State.upd_eq (f := fun d => outputReform d u ok) ?_⟩,
    fun s b e r w hb he finishes here phase wait => ⟨fun expired => ?_, fun early => ?_, fun p alone plan => ⟨fun clean unready => ?_, fun ends => ?_⟩⟩,
    fun s b hb finishes => ⟨fun alone => ?_, fun alone => ?_, fun alone => ?_, fun r w here wait expired => ?_,
      fun r l w here wait expired => ?_, fun u w here wait expired => ?_⟩,
    fun s loc ch r on here => ⟨fun u w k l found wait slots => ?_, fun w k l idle wait slots => ⟨fun expired => ?_, fun early => ?_⟩,
      fun alone idle => State.tagWait_eq (tagWait_channel on alone idle)⟩⟩
  · unfold outputReform
    rw [if_pos (by simp [there, on])]
  · exact State.slotTimeout_eq ((slotTimeout_engine hb finishes _).trans (engineTimeout_eng he here wait expired))
  · exact State.slotTimeout_eq ((slotTimeout_engine hb finishes _).trans (engineTimeout_eng_early he here wait early))
  · exact State.tagWait_eq ((tagWait_engine hb finishes alone).trans
      ((engineRetry_eng he).trans (engRun_waits_on here phase plan wait clean unready)))
  · exact State.tagWait_eq ((tagWait_engine hb finishes alone).trans
      ((engineRetry_eng he).trans (engRun_goes_on here phase plan ends)))
  · exact (State.tagWait_eq (tagWait_engine hb finishes alone)).trans (State.upd_finishes (f := (laneRun · b)) hb finishes rfl).symm
  · exact (State.tagWait_eq (tagWait_engine hb finishes alone)).trans (State.upd_finishes (f := (laneRun · b)) hb finishes rfl).symm
  · exact (State.tagWait_eq (tagWait_engine hb finishes alone)).trans (State.upd_finishes (f := (raggedRun · b)) hb finishes rfl).symm
  · exact State.slotTimeout_eq ((slotTimeout_engine hb finishes _).trans (engineTimeout_lane here wait expired))
  · exact State.slotTimeout_eq ((slotTimeout_engine hb finishes _).trans (engineTimeout_drain here wait expired))
  · exact State.slotTimeout_eq ((slotTimeout_engine hb finishes _).trans (engineTimeout_ragged here wait expired))
  · exact State.slotTimeout_eq ((if_pos on).trans (channelTimeout_burst here found wait slots))
  · refine State.slotTimeout_eq ((if_pos on).trans ((channelTimeout_own here idle wait).trans ?_))
    rw [if_pos expired, slots, List.headD_cons]
  · refine State.slotTimeout_eq ((if_pos on).trans ((channelTimeout_own here idle wait).trans ?_))
    rw [if_neg (ne_true_of_eq_false early)]

end Sys2Proof.Machine
end

section
/-! PROOF. A domain forms (13 R358, R359, 15 R434): its end by the tree and the minima, its timeout, and what BEAT and CAL do on a
port that trains or calibrates. -/

namespace Sys2Proof.Machine

variable {d : Dev} {p : Nat} {f : Flit} {m : List W64} {l : List (List W64)} {o : LongOp}

/-! ### The end of a formation -/

/-- A result record changes no register but the ECC counts of the status page's die. -/
theorem Dev.addResult_get (i : Nat) (r : List W64) {x : Fld} (h : ∀ k, x.addr ≠ Reg.CELLAR_ECC k) :
    (d.addResult i r).get x = d.get x :=
  Dev.setStatus_get _ _ _ h

theorem latDomain_ne_cellarEcc (k : Nat) : Reg.LAT_DOMAIN ≠ Reg.CELLAR_ECC k := by
  unfold Reg.LAT_DOMAIN Reg.CELLAR_ECC floorBase
  omega

section
variable (forming : d.forming = some o) (frozen : d.frozen = false) (up : d.formUp o = true)
include forming frozen up

/-- R358's tree: one that does not nest, or is too deep. -/
theorem Dev.formDone_refused (tree : d.treeNests = false ∨ 5 < Config.treeDepth (d.reg Reg.LAT_DOMAIN)) :
    d.formDone = d.opEnd o.slot stFailed rcParameter := by
  simp only [Dev.formDone, forming, frozen, up, Bool.not_true, Bool.or_self, Bool.false_eq_true, ↓reduceIte]
  rw [if_pos (by simpa using tree)]

section
variable {agree flood : Nat} (nests : d.treeNests = true) (shallow : ¬ 5 < Config.treeDepth (d.reg Reg.LAT_DOMAIN))
  (ha : agree = max 2 (min 63 (Config.formMinima (d.reg Reg.LAT_DOMAIN)).1))
  (hf : flood = max 1 (min (agree - 1) (Config.formMinima (d.reg Reg.LAT_DOMAIN)).2))
include nests shallow ha hf

theorem Dev.formDone_sets (basic : o.opcode ≠ 0x183) : d.formDone =
    ((((d.addResult o.slot [packFlds [(29, 24, agree), (23, 18, flood)]]).set Reg.LAT_DOMAIN_AGREE_BEATS agree).set
      Reg.LAT_DOMAIN_FLOOD_BEATS flood).set Reg.LAT_DOMAIN_RETRAIN_SLIP 400).opEnd o.slot stDone 0 := by
  subst ha hf
  simp only [Dev.formDone, forming, frozen, up, nests, shallow, basic, Bool.not_true, Bool.or_self, Bool.false_eq_true, decide_false,
    ↓reduceIte]

/-- The caller's minima are compared as they stand: the result record leaves them. -/
theorem Dev.formDone_compares (extended : o.opcode = 0x183) : d.formDone =
    let e := d.addResult o.slot [packFlds [(29, 24, agree), (23, 18, flood)]]
    if d.get Reg.LAT_DOMAIN_AGREE_BEATS < agree ∨ d.get Reg.LAT_DOMAIN_FLOOD_BEATS < flood then e.opEnd o.slot stFailed rcParameter
    else e.opEnd o.slot stDone 0 := by
  subst ha hf
  simp only [Dev.formDone, forming, frozen, up, nests, shallow, extended, Bool.not_true, Bool.or_self, Bool.false_eq_true,
    decide_false, ↓reduceIte, Dev.addResult_get (x := Reg.LAT_DOMAIN_AGREE_BEATS) _ _ latDomain_ne_cellarEcc,
    Dev.addResult_get (x := Reg.LAT_DOMAIN_FLOOD_BEATS) _ _ latDomain_ne_cellarEcc]

end
end

theorem Dev.formTimeout_fails (oldest : d.ops.find? (fun o => basicOp o.opcode = 0x103) = some o) (frozen : d.frozen = false)
    (late : o.note.headD 0 + 10000000 ≤ d.ageBeats) (open_ : (o.running && d.formUp o) = false) :
    d.formTimeout = d.opEnd o.slot stFailed rcLink := by
  simp only [Dev.formTimeout, oldest, frozen, open_, late, decide_true, Bool.not_false, Bool.and_self, ↓reduceIte]

/-! ### BEAT on a port that trains -/

theorem Dev.recvBeat_trains (r : Int) (hp : p < 12) (forming : d.forming = some o) (good : flGood f = true) (kind : flKind f = 6)
    (frozen : d.frozen = false) (messages : flMessages f = m :: l) (trains : d.get (Reg.PORT_W0_STATE p) = 1) (beat : msType m = 1) :
    d.recvBeat p f r = if msOrigin m ≠ d.get (Reg.PORT_W0_PARTNER p) then (d.setPort p 6).opEnd o.slot stFailed 0x11
      else ((d.takeBeat p m (some r)).setPort p 2).setFormNote p 0 ((d.takeBeat p m (some r)).ageBeats + 1) := by
  have first : (flMessages f).find? (fun m => msType m = 1) = some m := by simp [messages, beat]
  simp only [Dev.recvBeat, hp, trains, good, kind, frozen, first, forming, true_or, and_self, Bool.not_true, Bool.or_false,
    ne_eq, not_true_eq_false, decide_false, Bool.false_eq_true, ↓reduceIte]

/-! ### CAL on a port that calibrates -/

theorem Dev.recvCal_calibrates (delay : Nat) (hp : p < 12) (good : flGood f = true) (kind : flKind f = 6)
    (frozen : d.frozen = false) (messages : flMessages f = m :: l) (rest : ∀ x ∈ l, msType x = 0)
    (calibrates : d.get (Reg.PORT_W0_STATE p) = 2) (cal : msType m = 2) :
    d.recvCal p f delay = (d.noteCal p).takeCal p delay := by
  have only : (flMessages f).filter (fun m => msType m = 1 || msType m = 2) = [m] := by
    rw [messages, List.filter_cons_of_pos (by simp [cal]), List.filter_eq_nil_iff.2 (fun x hx => by simp [rest x hx])]
  rw [Dev.recvCal, if_pos ⟨hp, calibrates, good, kind, by simp [frozen]⟩, only, List.foldl_cons, List.foldl_nil, Dev.takeMsg]
  simp only [cal]

@[simp] theorem Dev.noteCal_forming : (d.noteCal p).forming = d.forming := by
  simp [Dev.forming, Dev.runningOp, Dev.noteCal]

@[simp] theorem Dev.noteCal_get (x : Fld) : (d.noteCal p).get x = d.get x := Dev.onPort_get ..

@[simp] theorem Dev.setFormNote_ageBeats (i v : Nat) : (d.setFormNote p i v).ageBeats = d.ageBeats := by
  unfold Dev.setFormNote
  split <;> rfl

/-- The least and the largest delay measured so far. -/
abbrev calLow (o : LongOp) (p delay : Nat) : Nat := if formNote o p 2 = 0 then delay else min delay (formNote o p 1)
abbrev calHigh (o : LongOp) (p delay : Nat) : Nat := max delay (formNote o p 2)

section
variable {delay : Nat} (forming : d.forming = some o) (calibrates : d.get (Reg.PORT_W0_STATE p) = 2)
include forming calibrates

theorem Dev.takeCal_fails (far : 1200 < delay ∨ 16 < calHigh o p delay - calLow o p delay) : d.takeCal p delay = d.setPort p 6 := by
  simp only [Dev.takeCal, forming, calibrates, ne_eq, not_true_eq_false, ↓reduceIte]
  rw [if_pos far]

theorem Dev.takeCal_measures (near : delay ≤ 1200) (tight : calHigh o p delay - calLow o p delay ≤ 16) : d.takeCal p delay =
    let e := ((d.set (Reg.PORT_W0_DELAY p) delay).setFormNote p 1 (calLow o p delay)).setFormNote p 2 (calHigh o p delay)
    if d.ageBeats + 1 < formNote o p 0 + 1024 then e
    else (e.setPort p 3).addResult o.slot [(e.setPort p 3).reg (Reg.PORT_W0 p),
      packFlds [(13, 4, (e.setPort p 3).get (Reg.PORT_W0_PARTNER p)), (3, 0, (e.setPort p 3).get (Reg.PORT_W0_PARTNER_PORT p))]] := by
  simp only [Dev.takeCal, forming, calibrates, ne_eq, not_true_eq_false, ↓reduceIte]
  rw [if_neg (not_or.2 ⟨Nat.not_lt.2 near, Nat.not_lt.2 tight⟩)]
  simp only [Dev.setFormNote_ageBeats, Dev.set_ageBeats]

end

/-! ### The obligation -/

/-- A formation whose ports are UP ends by its tree's depth. -/
theorem domainForms_ends {s : State} {o : LongOp} {d : Dev} (forming : s.dev.forming = some o) (frozen : s.dev.frozen = false)
    (up : s.dev.formUp o = true) (ends : ¬ 5 < Config.treeDepth (s.dev.reg Reg.LAT_DOMAIN) → s.dev.formDone = d) :
    exec .domainFormDone s = .next (s.withDev
      (if 5 < Config.treeDepth (s.dev.reg Reg.LAT_DOMAIN) then s.dev.opEnd o.slot stFailed rcParameter else d)) := by
  refine State.upd_eq (f := Dev.formDone) ?_
  split
  · next deep => exact Dev.formDone_refused forming frozen up (.inr deep)
  · next shallow => exact ends shallow

/-- Settles O24: the end of a formation by its tree and minima, then BEAT and CAL by the state of the port. -/
theorem domainsForm : Obligations.DomainsForm := by
  refine ⟨⟨?_, ?_, ?_⟩, ?_⟩
  · intro s o forming frozen up tree
    exact State.upd_eq (f := Dev.formDone) (Dev.formDone_refused forming frozen up tree)
  · intro s o agree flood forming frozen up nests ends ha hf
    refine ⟨fun basic => ?_, fun extended enough enough' => ?_, fun extended short => ?_⟩ <;>
      refine domainForms_ends forming frozen up fun shallow => ?_
    · exact Dev.formDone_sets forming frozen up nests shallow ha hf basic
    · exact (Dev.formDone_compares forming frozen up nests shallow ha hf extended).trans
        (if_neg (not_or.2 ⟨Nat.not_lt.2 enough, Nat.not_lt.2 enough'⟩))
    · exact (Dev.formDone_compares forming frozen up nests shallow ha hf extended).trans (if_pos short)
  · intro s o oldest frozen late open_
    exact State.upd_eq (f := Dev.formTimeout) (Dev.formTimeout_fails oldest frozen late open_)
  · intro s p f m l o hp forming good kind frozen messages rest
    refine ⟨fun r trains beat => ?_, fun delay calibrates cal => ?_⟩
    · have taken := Dev.recvBeat_trains r hp forming good kind frozen messages trains beat
      exact ⟨fun stranger => State.upd_eq (f := fun d => d.recvBeat p f r) (taken.trans (if_pos stranger)),
        fun partner => State.upd_eq (f := fun d => d.recvBeat p f r) (taken.trans (if_neg (not_not.2 partner)))⟩
    · have taken := Dev.recvCal_calibrates delay hp good kind frozen messages rest calibrates cal
      have forming' : (s.dev.noteCal p).forming = some o := Dev.noteCal_forming.trans forming
      have calibrates' : (s.dev.noteCal p).get (Reg.PORT_W0_STATE p) = 2 := (Dev.noteCal_get _).trans calibrates
      refine ⟨fun far => ?_, fun near tight early => ?_, fun near tight late => ?_⟩
      · exact State.upd_eq (f := fun d => d.recvCal p f delay) (taken.trans (Dev.takeCal_fails forming' calibrates' far))
      · exact State.upd_eq (f := fun d => d.recvCal p f delay) (taken.trans
          ((Dev.takeCal_measures forming' calibrates' near tight).trans (if_pos early)))
      · exact State.upd_eq (f := fun d => d.recvCal p f delay) (taken.trans
          ((Dev.takeCal_measures forming' calibrates' near tight).trans (if_neg (Nat.not_lt.2 late))))

end Sys2Proof.Machine
end

section
/-! PROOF. Service messages take effect (13 R356 to R360, R365 to R370, R375): what a SERVICE row does with a flit that its port
takes, and what each message does by its TYPE. -/

namespace Sys2Proof.Machine

variable {d : Dev} {p type : Nat} {f : Flit} {m : List W64} {l : List (List W64)}

/-! ### A SERVICE flit that a port takes (13 R357) -/

/-- Its messages take effect in order of place; then covered bursts are settled and due additions made. -/
theorem Dev.TakesFlit.recvService_eq (h : d.TakesFlit p f) (hk : flKind f = 6)
    (listed : (flMessages f).any (fun m => msType m = type) = true) (residual : Option Int) (delay : Nat) :
    d.recvService type p f residual delay =
      ((flMessages f).foldl (fun d m => d.takeMsg p residual delay m) (d.tookFlit p f)).serviced p := by
  rw [Dev.recvService, if_pos (by simp [hk, listed]), h.recvFlit_eq, Dev.takeService]

/-- A place without a message changes nothing. -/
theorem Dev.takeMsg_none (residual : Option Int) (delay : Nat) (hm : msType m = 0) : d.takeMsg p residual delay m = d := by
  simp only [Dev.takeMsg, hm]

theorem Dev.foldl_takeMsg_none (residual : Option Int) (delay : Nat) (rest : ∀ x ∈ l, msType x = 0) :
    l.foldl (fun d m => d.takeMsg p residual delay m) d = d := by
  induction l generalizing d with
  | nil => rfl
  | cons m t ih =>
    obtain ⟨hm, ht⟩ := List.forall_mem_cons.1 rest
    rw [List.foldl_cons, Dev.takeMsg_none _ _ hm, ih ht]

/-- A flit with one message does what the message does. -/
theorem Dev.TakesFlit.recvService_one (h : d.TakesFlit p f) (hk : flKind f = 6) (messages : flMessages f = m :: l)
    (rest : ∀ x ∈ l, msType x = 0) (hm : msType m = type) (residual : Option Int) (delay : Nat) :
    d.recvService type p f residual delay = ((d.tookFlit p f).takeMsg p residual delay m).serviced p := by
  rw [h.recvService_eq hk (by simp [messages, hm]), messages, List.foldl_cons, Dev.foldl_takeMsg_none _ _ rest]

/-- A port that takes flits neither trains nor calibrates, and takes a BEAT as it does any other message. -/
theorem Dev.TakesFlit.recvBeat_eq (h : d.TakesFlit p f) (r : Int) : d.recvBeat p f r = d.recvService 0x01 p f (some r) 0 := by
  have up : d.portUp p = true := by
    have hears := h.hears
    simp only [Dev.portHears, Bool.and_eq_true] at hears
    exact hears.1.1.1.2
  rw [Dev.recvBeat, if_neg]
  unfold Dev.portUp at up
  simp only [Bool.or_eq_true, decide_eq_true_eq] at up
  omega

/-! ### Messages by TYPE -/

section
variable (residual : Option Int) (delay : Nat)

theorem Dev.takeMsg_beat (hm : msType m = 0x01) : d.takeMsg p residual delay m = d.takeBeat p m residual := by
  simp only [Dev.takeMsg, hm]

/-- RETRY_REQ of a flit that is held and not yet asked for queues its resend (13 R356). -/
theorem Dev.takeMsg_retryReq (hm : msType m = 0x03) (held : (d.port p).held.any (fun h => h.seq = fld (wd m 0) 9 0) = true)
    (fresh : (d.port p).resend.any (fun r => r.1 = fld (wd m 0) 9 0) = false) : d.takeMsg p residual delay m =
    d.onPort p (fun x => { x with resend := x.resend ++ [(fld (wd m 0) 9 0, d.beat)] }) := by
  simp only [Dev.takeMsg, hm, held, fresh, Bool.not_false, Bool.and_self, ↓reduceIte]

theorem Dev.takeMsg_nack (hm : msType m = 0x04) : d.takeMsg p residual delay m = d.takeNack p m := by
  simp only [Dev.takeMsg, hm]

theorem Dev.kid_found (kid : d.kids.any (fun k => k.2 = p && k.1 = msOrigin m) = true) :
    (d.kids.find? (fun k => k.2 = p && k.1 = msOrigin m)).isNone = false := by
  rw [List.any_eq_true, ← List.find?_isSome] at kid
  simpa using kid

/-- A child's POLL is combined, but for one of START_FENCE before the step's own poll (13 R365). -/
theorem Dev.takeMsg_poll (hm : msType m = 0x05) (kid : d.kids.any (fun k => k.2 = p && k.1 = msOrigin m) = true)
    (begun : fld (wd m 1) 63 48 ≠ d.startFence ∨ d.js ≠ jsRunning ∨ d.step.startPoll.isSome = true ∨
      d.step.replayFrom.isSome = true) :
    d.takeMsg p residual delay m = d.pollKid (fld (wd m 1) 63 48) (msOrigin m) (contribOf (wd m 1)) := by
  simp only [Dev.takeMsg, hm, Dev.kid_found kid, Bool.false_or]
  rw [if_neg]
  rcases begun with other | idle | polled | replays
  · simp [other]
  · simp [idle]
  · simp [Option.isSome_iff_ne_none.1 polled]
  · simp [Option.isSome_iff_ne_none.1 replays]

theorem Dev.takeMsg_result (hm : msType m = 0x06) (parent : d.parentPort = some p) :
    d.takeMsg p residual delay m = d.pollResult (fld (wd m 1) 63 48) (contribOf (wd m 1)) := by
  simp only [Dev.takeMsg, hm, parent, ↓reduceIte]

/-- A child's VOTE of an open close replaces its last (13 R369). -/
theorem Dev.takeMsg_vote (hm : msType m = 0x07) (kid : d.kids.any (fun k => k.2 = p && k.1 = msOrigin m) = true)
    (open_ : d.voteComplete = false) : d.takeMsg p residual delay m =
    ({ d with step := { d.step with kids := d.step.kids.filter (fun (k : Nat × Contrib) => k.1 ≠ msOrigin m) ++
      [(msOrigin m, voteOf (wd m 1))] } } : Dev).voteProgress := by
  simp only [Dev.takeMsg, hm, Dev.kid_found kid, open_, Bool.or_self, Bool.false_eq_true, ↓reduceIte]

theorem Dev.takeMsg_voteResult (hm : msType m = 0x08) (parent : d.parentPort = some p) (open_ : d.voteComplete = false)
    (votes : d.get Reg.STEP_STATE_PHASE = 2) : d.takeMsg p residual delay m =
    (let at_ := match d.step.agreed with | some (_, b) => b | none => d.beat
     ({ d with step := { d.step with agreed := some (voteOf (wd m 1), at_) } } : Dev).postDown 4
       (voteMsg 0x08 d.index (voteOf (wd m 1)))) := by
  simp only [Dev.takeMsg, hm, parent, open_, votes, decide_true, Bool.not_true, Bool.or_self, ne_eq, not_true_eq_false, decide_false,
    Bool.false_eq_true, ↓reduceIte] <;> rfl

theorem Dev.takeMsg_flood (hm : msType m = 0x09) : d.takeMsg p residual delay m =
    d.noteFlood (some p) (msOrigin m) (fld (wd m 1) 63 60) (wd m 2) (fld (wd m 1) 59 0) (wd m 3).toNat := by
  simp only [Dev.takeMsg, hm]

theorem Dev.takeMsg_norm (hm : msType m = 0x0A) : d.takeMsg p residual delay m =
    if msTarget m = d.index then d.normArrive (fld (wd m 2) 9 0) (fld (wd m 1) 31 0) else d.postTo (msTarget m) 5 m := by
  simp only [Dev.takeMsg, hm]

theorem Dev.takeMsg_fprint (hm : msType m = 0x0B) : d.takeMsg p residual delay m =
    if msTarget m = d.index then d.fpArrive (msOrigin m) (fld (wd m 2) 9 0) (fld (wd m 2) 17 16) (wd m 1)
    else d.postTo (msTarget m) 5 m := by
  simp only [Dev.takeMsg, hm]

end

/-! ### The rows -/

/-- The SERVICE rows but BEAT and CAL, each with the TYPE it is named after. -/
theorem exec_service {s : State} {i : Instr}
    (row : i = .flood p f ∧ type = 0x09 ∨ i = .retryReq p f ∧ type = 0x03 ∨ i = .nack p f ∧ type = 0x04 ∨
      i = .poll p f ∧ type = 0x05 ∨ i = .result p f ∧ type = 0x06 ∨ i = .vote p f ∧ type = 0x07 ∨
      i = .voteResult p f ∧ type = 0x08 ∨ i = .norm p f ∧ type = 0x0A ∨ i = .fprint p f ∧ type = 0x0B) :
    exec i s = s.upd (fun d => d.recvService type p f none 0) := by
  rcases row with ⟨rfl, rfl⟩ | ⟨rfl, rfl⟩ | ⟨rfl, rfl⟩ | ⟨rfl, rfl⟩ | ⟨rfl, rfl⟩ | ⟨rfl, rfl⟩ | ⟨rfl, rfl⟩ | ⟨rfl, rfl⟩ | ⟨rfl, rfl⟩
  all_goals rfl

/-- Settles O50: each message of a flit with one, by its TYPE; then flits with several. -/
theorem messagesTakeEffect : Obligations.MessagesTakeEffect := by
  refine ⟨?_, ?_⟩
  · intro s p f m l takes d hk messages rest
    have effect : ∀ {type : Nat} {i : Instr} {e : Dev}, exec i s = s.upd (fun d => d.recvService type p f none 0) →
        msType m = type → d.takeMsg p none 0 m = e → exec i s = .next (s.withDev (e.serviced p)) := by
      intro type i e row hm taken
      rw [row, ← taken]
      exact State.upd_eq (f := fun d => d.recvService type p f none 0) (takes.recvService_one hk messages rest hm none 0)
    refine ⟨fun r hm => ?_, fun hm held fresh => effect rfl hm (Dev.takeMsg_retryReq none 0 hm held fresh),
      fun hm => effect rfl hm (Dev.takeMsg_nack none 0 hm),
      fun hm kid begun => effect rfl hm (Dev.takeMsg_poll none 0 hm kid begun),
      fun hm parent => effect rfl hm (Dev.takeMsg_result none 0 hm parent),
      fun hm kid open_ => effect rfl hm (Dev.takeMsg_vote none 0 hm kid open_),
      fun hm parent open_ votes => effect rfl hm (Dev.takeMsg_voteResult none 0 hm parent open_ votes),
      fun hm => effect rfl hm (Dev.takeMsg_flood none 0 hm),
      fun hm => ⟨fun own => effect rfl hm ((Dev.takeMsg_norm none 0 hm).trans (if_pos own)),
        fun other => effect rfl hm ((Dev.takeMsg_norm none 0 hm).trans (if_neg other))⟩,
      fun hm => ⟨fun own => effect rfl hm ((Dev.takeMsg_fprint none 0 hm).trans (if_pos own)),
        fun other => effect rfl hm ((Dev.takeMsg_fprint none 0 hm).trans (if_neg other))⟩⟩
    refine State.upd_eq (f := fun d => d.recvBeat p f r) ?_
    rw [takes.recvBeat_eq, takes.recvService_one hk messages rest hm, Dev.takeMsg_beat _ _ hm]
  · intro s p f takes hk d type i listed row
    rw [exec_service row]
    exact State.upd_eq (f := fun d => d.recvService type p f none 0) (takes.recvService_eq hk listed none 0)

end Sys2Proof.Machine
end

section
/-! PROOF. Lanes and ports (13 R356, R359, R372 to R374): missing flits, lost lanes, retraining, failed ports and beat skew. -/

namespace Sys2Proof.Machine

variable {d : Dev} {p q lane : Nat}

/-! ### Missing flits (13 R356) -/

theorem Dev.inc_portErrors_beat : (d.inc (Reg.PORT_W1_CRC_ERRORS p)).beat = d.beat :=
  Dev.get_inc_ne d ⟨by simp, by simp⟩ (.inl (by simp only [Reg.SYNC_BEAT, Reg.PORT_W1]; omega))

/-- A flit found missing by a port that misses none is noted with its beat, and asked for once. -/
theorem Dev.noteMissing_one (gaps : (d.port p).gaps = []) : d.noteMissing p [q] =
    (d.onPort p (fun x => { x with gaps := x.gaps ++ [(q, d.beat)] })).askRetry p q := by
  rw [Dev.noteMissing, List.foldl_cons, List.foldl_nil, if_neg (by simp [gaps])]

theorem Dev.crcMismatch_one (bad : Bool) (hears : d.portHears p = true) (hq : q < 1024)
    (ahead : Machine.seqAhead (d.port p).recvNext q < 512) (gaps : (d.port p).gaps = []) (early : (d.port p).early = []) :
    d.crcMismatch p [q] bad = ((if bad then d.inc (Reg.PORT_W1_CRC_ERRORS p) else d).onPort p
      (fun x => { x with gaps := x.gaps ++ [(q, d.beat)] })).askRetry p q := by
  have wanted : [q].filter (fun q => decide (q < 1024) && decide (Machine.seqAhead (d.port p).recvNext q < 512) &&
      !(d.port p).early.contains q) = [q] := by
    rw [List.filter_cons_of_pos (by simp [hq, ahead, early]), List.filter_nil]
  have again : (if bad then [q].filter (fun q => (d.port p).gaps.any (fun g => g.1 = q)) else []) = [] := by
    rw [gaps]
    split <;> rfl
  simp only [Dev.crcMismatch, hears, Bool.not_true, Bool.false_eq_true, ↓reduceIte, wanted, again, List.foldl_nil]
  cases bad with
  | false => exact Dev.noteMissing_one gaps
  | true =>
    have noted : ((d.inc (Reg.PORT_W1_CRC_ERRORS p)).port p).gaps = [] := gaps
    simp only [↓reduceIte, Dev.noteMissing_one noted, Dev.inc_portErrors_beat]

/-! ### Lost lanes (13 R372, R374) -/

theorem Dev.set_lanes_state (n : Nat) :
    (d.set (Reg.PORT_W0_LANES p) n).get (Reg.PORT_W0_STATE p) = d.get (Reg.PORT_W0_STATE p) :=
  Dev.get_set_ne d ⟨by simp, by simp⟩ n (.inr (.inl (by simp)))

section
variable (used : (d.get (Reg.PORT_W0_LANES p)).testBit lane = true)
include used

theorem Dev.loseLane_up (up : d.get (Reg.PORT_W0_STATE p) ≠ 4) : d.loseLane p lane =
    (((((d.set (Reg.PORT_W0_LANES p) (d.get (Reg.PORT_W0_LANES p) - 2 ^ lane)).inc (Reg.PORT_W1_RETRAINS p)).setPort p
      5).floodDegrade p).fault { kind := fkPortDegraded, unit := 153 + p, lane := lane } dLocal) := by
  simp only [Dev.loseLane, used, ↓reduceIte, Dev.set_lanes_state, up]

theorem Dev.loseLane_degraded (degraded : d.get (Reg.PORT_W0_STATE p) = 4) : d.loseLane p lane =
    (((d.set (Reg.PORT_W0_LANES p) (d.get (Reg.PORT_W0_LANES p) - 2 ^ lane)).setPort p 6).fault
      { kind := fkPortFailed, unit := 153 + p } dLocal) := by
  simp only [Dev.loseLane, used, ↓reduceIte, Dev.set_lanes_state, degraded]

theorem Dev.laneLoss_eq (hears : d.portHears p = true) (hl : lane < 4) : d.laneLoss p lane = d.loseLane p lane := by
  simp only [Dev.laneLoss, hears, hl, used, decide_true, Bool.and_self, ↓reduceIte]

/-- The highest lane in use, as a resend that comes too late looks for it. -/
theorem findIdx_highest (hl : lane < 4) (top : ∀ i, lane < i → i < 4 → (d.get (Reg.PORT_W0_LANES p)).testBit i = false) :
    (findIdx (fun i => (d.get (Reg.PORT_W0_LANES p)).testBit (3 - i)) 4).elim 0 (fun i => 3 - i) = lane := by
  have found : findIdx (fun i => (d.get (Reg.PORT_W0_LANES p)).testBit (3 - i)) 4 = some (3 - lane) := by
    rw [findIdx, List.find?_range_eq_some]
    refine ⟨?_, List.mem_range.2 (by omega), fun i hi => ?_⟩
    · rw [Nat.sub_sub_self (by omega), used]
    · rw [top (3 - i) (by omega) (by omega)]; rfl
  rw [found]
  exact Nat.sub_sub_self (by omega)

/-- A resend that comes too late costs the highest lane in use (13 R356). -/
theorem Dev.resendTimeout_eq {b : Nat} (hears : d.portHears p = true)
    (asked : (d.port p).resend.find? (fun r => r.1 = q) = some (q, b))
    (late : b + 2 < d.beat ∨ (d.port p).held.any (fun h => h.seq = q && decide (3 ≤ h.resends)) = true) (hl : lane < 4)
    (top : ∀ i, lane < i → i < 4 → (d.get (Reg.PORT_W0_LANES p)).testBit i = false) :
    d.resendTimeout p q = d.laneLoss p lane := by
  have due : (decide (b + 2 < d.beat) || (d.port p).held.any (fun h => h.seq = q && decide (3 ≤ h.resends))) = true := by
    rw [Bool.or_eq_true, decide_eq_true_eq]
    exact late
  simp only [Dev.resendTimeout, asked, hears, Option.isSome_some, Bool.and_true, due, ↓reduceIte,
    findIdx_highest used hl top]
  exact (Dev.laneLoss_eq used hears hl).symm

end

/-! ### Retraining (13 R372, R373) -/

@[simp] theorem Dev.setPort_port (new r : Nat) : (d.setPort p new).port r = d.port r := by
  unfold Dev.setPort
  dsimp only
  split <;> rfl

/-- A port that has retrained: UP with all its lanes or else DEGRADED, every held flit to be sent again. -/
def Dev.retrained (d : Dev) (p : Nat) : Dev :=
  (d.setPort p (if d.get (Reg.PORT_W0_LANES p) = 15 then 3 else 4)).onPort p (fun x => { x with
    replay := x.held.map HeldFlit.seq, resend := [], held := x.held.map (fun h => { h with resends := 0 }) })

/-- Retraining ends; on a degraded port a phase that has not begun asks for its stretch. -/
theorem Dev.retrainComplete_eq (hp : p < 12) (retrains : d.get (Reg.PORT_W0_STATE p) = 5) (frozen : d.frozen = false) :
    d.retrainComplete p = match (d.port p).phase with
      | some ph => if d.get (Reg.PORT_W0_LANES p) ≠ 15 ∧ ph.used = none then (d.retrained p).stretch ph.words else d.retrained p
      | none => d.retrained p := by
  have same : (if d.get (Reg.PORT_W0_LANES p) = 15 then 3 else 4) = if decide (d.get (Reg.PORT_W0_LANES p) ≠ 15) then 4 else 3 := by
    split <;> simp_all
  have phase : ((d.retrained p).port p).phase = (d.port p).phase := by
    rw [Dev.retrained, Dev.port_onPort_self, Dev.setPort_port]
  rw [Dev.retrainComplete, if_pos ⟨hp, retrains, by simp [frozen]⟩]
  dsimp only
  rw [← same]
  change (match ((d.retrained p).port p).phase with | some _ => _ | none => d.retrained p) = _
  rw [phase]
  cases (d.port p).phase with
  | none => rfl
  | some ph => simp [Dev.retrained]

/-! ### Failed ports and beat skew (13 R359, R374) -/

theorem Dev.portFailed_eq (hp : p < 12) (linked : d.get (Reg.PORT_W0_STATE p) ∈ [3, 4, 5]) (frozen : d.frozen = false) :
    d.portFailed p = ((d.set (Reg.PORT_W0_LANES p) 0).setPort p 6).fault { kind := fkPortFailed, unit := 153 + p } dLocal :=
  if_pos ⟨hp, by simpa using linked, by simp [frozen]⟩

theorem Dev.beatSkew_eq (parent : d.parentPort = some p) (lasting : 16 ≤ (d.port p).skewBeats) (frozen : d.frozen = false) :
    d.beatSkew p = ((d.inc Reg.LAT_COUNT_BEAT_SKEWS).onPort p (fun x => { x with skewBeats := 0 })).fault
      { kind := fkBeatSkew, unit := 153 + p } dAbort :=
  if_pos (by simp [parent, lasting, frozen])

/-! ### The obligation -/

/-- Settles O51: each row by the state of its port. -/
theorem lanesAndPorts : Obligations.LanesAndPorts := by
  intro s p
  refine ⟨?_, ?_, ?_, ?_, ?_, ?_⟩
  · intro q bad hears hq ahead gaps early
    exact State.upd_eq (f := fun d => d.crcMismatch p [q] bad) (Dev.crcMismatch_one bad hears hq ahead gaps early)
  · intro lane hears hl used
    have lost := Dev.laneLoss_eq used hears hl
    refine ⟨fun up => ?_, fun degraded => ?_⟩
    · exact State.upd_eq (f := fun d => d.laneLoss p lane) (lost.trans (Dev.loseLane_up used (by omega)))
    · exact State.upd_eq (f := fun d => d.laneLoss p lane) (lost.trans (Dev.loseLane_degraded used degraded))
  · intro q b lane hears asked late hl used top
    exact ⟨State.upd_eq (f := fun d => d.resendTimeout p q) (Dev.resendTimeout_eq used hears asked late hl top), _, rfl⟩
  · intro hp retrains frozen
    have ends := Dev.retrainComplete_eq hp retrains frozen
    refine ⟨fun whole => ?_, fun ph here begun => ?_, fun ph here fresh degraded => ?_⟩ <;>
      refine State.upd_eq (f := fun d => d.retrainComplete p) (ends.trans ?_)
    · split
      · next ph here =>
        exact if_neg fun h => whole.elim h.1 fun none => by simp [none] at here
      · rfl
    · rw [here]
      exact if_neg fun h => by simp [h.2] at begun
    · rw [here]
      exact if_pos ⟨degraded, fresh⟩
  · intro hp linked frozen
    exact State.upd_eq (f := fun d => d.portFailed p) (Dev.portFailed_eq hp linked frozen)
  · intro parent lasting frozen
    exact State.upd_eq (f := fun d => d.beatSkew p) (Dev.beatSkew_eq parent lasting frozen)

end Sys2Proof.Machine
end
